-- ==== Sys2Proof/Word.lean ====
section
/-! DEFINITION. The plain carrier types of the model.

A dictionary value, a BLOB, a frame payload and a memory image are each carried as ONE natural number, the
little-endian reading of their bytes (R7): byte `i` is bits `[8 i + 7 : 8 i]`.  The length stands beside the number
wherever the specification gives one. -/

namespace Sys2Proof

/-- A byte string read little-endian as a number (R7). -/
abbrev Blob := Nat

/-- A sparse table: `(key, value)` pairs with keys strictly rising and no pair holding the table's default value. -/
abbrev Tab (α : Type) := List (Nat × α)

/-- A Q32 number (R12, R119): the value `v × 2^−s`, with `v` in two's complement of 32 bits and `s` from 0 to 31. -/
structure Q32 where
  v : Int
  s : Nat
  deriving DecidableEq, Repr

end Sys2Proof
end

