-- ==== Sys2Proof/Syntax.lean ====
section
/-! DEFINITION. The commands of the DXC-960: one constructor of `Instr` per row of spec/opcode_table.json, with the
operands that reach the module from outside. -/

namespace Sys2Proof

/-! ## Operands -/

/-- The path of a dictionary request: the host mailbox (R355), or DAP (R361) on port 0 (FN-A) or 1 (FN-B) with the
client's MAC address and tag. -/
inductive Via where
  | host
  | dap (port mac tag : Nat)
  deriving DecidableEq, Repr

/-- The 104-byte trailer of a signed request (R356): challenge, signer key and signature. -/
structure Trailer where
  challenge : Nat
  key : Blob
  sig : Blob
  deriving DecidableEq, Repr

/-- Who sends a command-row request, and whether it is signed. -/
structure ReqHead where
  via : Via
  signed : Option Trailer
  deriving DecidableEq, Repr

/-- A dictionary request as it arrives (R355, R361): entry, declared length, SIGNED flag, and the stream bytes that
arrive with it.  The mailbox delivers the whole stream; a DAP opening frame may deliver only its beginning (R364). -/
structure Req where
  via : Via
  signed : Bool
  index : Nat
  sub : Nat
  len : Nat
  data : Blob
  dataLen : Nat
  deriving DecidableEq, Repr

/-- The memory a word address lies in. -/
inductive Space where
  /-- HBM, addressed by PA (R195). -/
  | hbm
  /-- SRAM, addressed by macro × 1 MiB + offset, macros numbered as in R221. -/
  | sram
  deriving DecidableEq, Repr

/-- A bit upset that has struck a stored word: its byte address, and the flipped bits, data bits in [31:0], check bits in
[38:32], and in [41:39] the three copies of the valid bit of the word, or of its block in HBM (R202 to R208). -/
structure Upset where
  space : Space
  addr : Nat
  mask : Nat
  deriving DecidableEq, Repr

/-- A bit upset that has struck a word of the merge store: of the result of a stream, or of the merge's program and state, and
the flipped bits as in `Upset` (R248). -/
structure MergeUpset where
  stream : Option Nat
  word : Nat
  mask : Nat
  deriving DecidableEq, Repr

/-- The program that a TE command belongs to (R149): a forecast stream, a host program or a ripening program on a
core. -/
inductive ProgRef where
  | stream (s : Nat)
  | host (core : Nat)
  | ripen (core : Nat)
  deriving DecidableEq, Repr

/-- What the hardware meets while a TE command executes: the upsets since the last access, and whether a group sum
fails its residue check (cause 4 of R137). -/
structure ExecFx where
  upsets : List Upset
  residueFail : Bool
  deriving DecidableEq, Repr

/-- What the start-up sequence of R81 meets: the 16 strap samples of R50, the level of FLOW_OK at its first sample
(R500), and the rail whose check before start fails, if any (R480). -/
structure BootInputs where
  straps : List Nat
  flowOk : Bool
  highSideShort : Option Nat
  deriving DecidableEq, Repr

/-- What a CD start meets (R82): a rail whose check before start fails (R480), the stacks that cannot be trained
(R214), and the cores that fail their self-test (R137). -/
structure CdStartInputs where
  highSideShort : Option Nat
  untrained : List Nat
  selfTestFail : List Nat
  deriving DecidableEq, Repr

/-- The MPC's measurement of a rail at a fault (R482): voltage in mV, current in 0.1 A, limited-cycle map. -/
structure RailMeas where
  mv : Nat
  deciAmp : Nat
  limited : Nat
  deriving DecidableEq, Repr

/-- One 2 µs slot's readings (R471, R484): the activity-counter increments as (cluster, counter, increment), the measured
VDD_C in mV, its mean current in 0.1 A, the mean power of VDD_CA and the HBM rails in mW, and the place of the last SYNC_IN
edge in its Gangway frame in ns, as the MPC has last measured it. -/
structure SlotReadings where
  counts : List (Nat × Nat × Nat)
  mv : Nat
  deciAmp : Nat
  auxMilliwatt : Nat
  edge : Nat
  deriving DecidableEq, Repr

/-- A frame received on a cell monitor port (R423): type, sequence, payload length, payload and CRC-16 as received,
and the measured turnaround in ns (R426). -/
structure CellFrame where
  typ : Nat
  seq : Nat
  len : Nat
  payload : Blob
  crc : Nat
  turnaround : Nat
  deriving DecidableEq, Repr

/-- One berth's window of an upstream crossing (R319): the 76-byte record slot, the 22-byte message slot, and whether
an uncorrectable codeword touches it (R317). -/
structure Window where
  berth : Nat
  record : Blob
  msg : Blob
  uncorrectable : Bool
  deriving DecidableEq, Repr

/-- A load recorded in the model area (R518): its commit order and image offset in 4 KiB units, the 16-byte load
request, the image bytes with their length, and the CRC-32 of the catalogue entry. -/
structure ModelEntry where
  order : Nat
  offset : Nat
  request : Blob
  imageLen : Nat
  image : Blob
  crc : Nat
  deriving DecidableEq, Repr

/-- What a replay reads of the model area (R184, R518): slot and sequence number of the newest catalogue that is good, none
where no slot is, and the loads that it records. -/
structure ModelCatalogue where
  newest : Option (Nat × Nat)
  entries : List ModelEntry
  deriving DecidableEq, Repr

/-- What resets the PCI Express controller (R353). -/
inductive CtlReset where
  | perst | hotReset | linkDown | flr
  deriving DecidableEq, Repr

/-- A register pair with a latched upper half (R411). -/
inductive LoReg where
  | frame | logNext | logOldest
  deriving DecidableEq, Repr

/-- The tolls of R162. -/
inductive Toll where
  | intake | emitM | mergeCe | hint | hbmWr | load
  deriving DecidableEq, Repr

/-! ## Commands -/

/-- The commands and events of the DXC-960, one per row of the opcode table, in the table's order. -/
inductive Instr where
  | inputEntersRange (b : BootInputs)
  | leaseLineWatchEnd (driverSeen : Bool)
  | bootComplete
  | bootWatchdogExpiry (b : BootInputs)
  | mpWatchdogExpiry
  | strapChange (straps : Nat)
  | inputSupervisorTick (millivolt : Nat)
  | rideThroughTimeout
  | mateNHigh (nanoseconds : Nat)
  | nvrWriteComplete
  | rootOrIoPllLost (rootLost : Bool)
  | cdPllUnlock (hbm : Bool)
  | serdesPllUnlock
  | rootCompensationUpdate
  | operatingPointChange (point : Nat)
  | computeSlewStep
  | fixedOpWrite (h : ReqHead) (point : Nat)
  | syncInLost (cause : Nat)
  | syncInReturned
  | cdStart (inp : CdStartInputs)
  | loadReplay (c : ModelCatalogue)
  | imageOpen (h : ReqHead) (header : Blob)
  | imageSegment (h : ReqHead) (offset reserved : Nat) (body : Blob)
  | imageActivate (h : ReqHead) (arg : Nat) (b : BootInputs)
  | imageTransferTimeout
  | floorCommand (h : ReqHead) (record : Blob)
  | keyEnrol (h : ReqHead) (record : Blob)
  | keyRemove (h : ReqHead) (record : Blob)
  | configurationBundle (h : ReqHead) (bundle : Blob)
  | bundleApply
  | regionWorldChange
  | gangwayFrameBoundary (readBackDiffers : Bool)
  | replySlotReceive (node : Nat) (bits : Option Nat)
  | managementReplyReceive (node : Nat) (bits : Option Nat)
  | nodeDisable (h : ReqHead) (node : Nat)
  | nodeEnable (h : ReqHead) (node : Nat)
  | nodeClearFault (h : ReqHead) (node : Nat)
  | holdLimitExpiry
  | intakeFrameBoundary
  | bankSeal
  | runEndedAtBankReuse (core : Nat)
  | nop (p : ProgRef)
  | matmul (p : ProgRef) (fx : ExecFx)
  | vector (p : ProgRef) (fx : ExecFx)
  | copy (p : ProgRef) (fx : ExecFx)
  | gather (p : ProgRef) (fx : ExecFx)
  | scalar (p : ProgRef) (fx : ExecFx)
  | skip (p : ProgRef)
  | hint (p : ProgRef)
  | fence (p : ProgRef)
  | barrier (p : ProgRef)
  | barrierTimeout (p : ProgRef) (ident : Nat)
  | emit (p : ProgRef) (fx : ExecFx)
  | progEnd (p : ProgRef) (cycles : Nat)
  | tileYield (core : Nat)
  | clusterWake (cluster : Nat)
  | tollCreditReturn (toll : Toll) (unit : Nat)
  | sequencerWatchdogExpiry (core : Nat)
  | fenceCore (h : ReqHead) (core : Nat)
  | releaseCore (h : ReqHead) (core : Nat)
  | fenceCluster (h : ReqHead) (cluster : Nat)
  | coreSelfTestDone (core : Nat) (pass : Bool)
  | cdStop (h : ReqHead)
  | clearHostStop (h : ReqHead)
  | streamSettingsWrite (h : ReqHead) (stream sub value : Nat)
  | loadNewStreams (h : ReqHead) (addr first count : Nat)
  | replaceModel (h : ReqHead) (addr first count : Nat)
  | loadCommit
  | unload (h : ReqHead) (first count : Nat)
  | hostWork (h : ReqHead) (descriptor : Blob)
  | masterCopyRestore (modelId : Nat) (upsets : List Upset)
  | bar2Read (offset len : Nat) (upsets : List Upset)
  | bar2Write (offset len : Nat) (data : Blob) (upsets : List Upset)
  | hbmAccessTimeout (stack : Nat)
  | hbmScrubStep (stack : Nat) (upsets : List Upset) (again : List Upset)
  | sramScrubStep (sramMacro : Nat) (upsets : List Upset) (again : List Upset)
  | refreshUpdate (stack : Nat) (readout : Option Int)
  | resultRecordAccept (core : Nat)
  | mergeRun (upsets : List MergeUpset)
  | mergeOverrun
  | ripeningImageRegister (h : ReqHead) (modelId : Nat) (addr : Nat)
  | ripeningImageDeregister (h : ReqHead) (modelId : Nat)
  | ripeningJobStart (modelId : Nat)
  | ripeningTimeout (modelId : Nat)
  | budgetPeriodBoundary
  | coreResume
  | budgetWrite (h : ReqHead) (watts : Nat)
  | budgetRefreshTimeout
  | barrierRelease (group : Nat)
  | ceSnapshot
  | followingErrorTimeout (loop : Nat)
  | loopModeOff (h : ReqHead) (loop : Nat)
  | loopModeOpen (h : ReqHead) (loop : Nat)
  | loopModeClosed (h : ReqHead) (loop : Nat)
  | rcClear (h : ReqHead) (rc : Nat)
  | rcPhaseNudge (h : ReqHead) (rc : Nat) (arg : Nat)
  | rcSetIndex (h : ReqHead) (rc : Nat) (arg : Nat)
  | rcPeriodWrite (h : ReqHead) (rc : Nat) (arg : Nat)
  | ceEntersService
  | linkCodeLock (link : Nat)
  | linkCrossingLock (link : Nat)
  | linkUp (link : Nat) (roundTrip : Nat)
  | linkTrainingTimeout (link : Nat)
  | linkDown (link : Nat) (cause : Nat)
  | downstreamCrossingStart (link : Nat)
  | crossingRelease (link : Nat) (corrected uncorrectable : Nat) (windows : List Window)
  | attach (link berth : Nat) (payload : Blob)
  | detach (link berth : Nat) (payload : Blob)
  | attachmentChangeEffect
  | peerAggregateReceive (link : Nat) (payload : Blob)
  | configurationReceive (link : Nat) (payload : Blob)
  | dictionaryRead (r : Req)
  | dictionaryWrite (r : Req)
  | mailboxBadOp
  | dapSegment (port mac tag offset : Nat) (data : Blob) (dataLen : Nat)
  | dapAbort (port mac tag : Nat)
  | dapTransferTimeout (port mac tag : Nat)
  | dapFrameDrop (port : Nat)
  | mirrorRead (offset width : Nat)
  | irregularBar0Access (offset width : Nat) (write : Bool)
  | loRegisterRead (r : LoReg)
  | intStatusClear (mask : Nat)
  | intEnableWrite (value : Nat)
  | registerWrite (offset width : Nat) (value : Nat)
  | controllerReset (kind : CtlReset)
  | d3hotTransition
  | fnLinkStatusChange (port : Nat) (up : Bool)
  | periodicPublication
  | changePublication
  | hold (h : ReqHead)
  | release (h : ReqHead)
  | describe (h : ReqHead) (arg : Nat)
  | logCursorWrite (h : ReqHead) (client : Nat) (value : Nat)
  | sweepSample
  | sweepRead
  | cellAnswerTimeout (port : Nat)
  | helloAck (port : Nat) (f : CellFrame)
  | configureAck (port : Nat) (f : CellFrame)
  | cellData (port : Nat) (f : CellFrame)
  | sweepClose
  | portRetry (port : Nat)
  | chargeTrimTick
  | csLost (ch : Nat)
  | csReturn (ch : Nat)
  | fullDetect (ch : Nat)
  | limitUpdate
  | resetLearnedValues (h : ReqHead) (mask : Nat)
  | seRecordWrite
  | railOverVoltage (rail : Nat) (m : RailMeas)
  | softStartShort (rail : Nat) (m : RailMeas)
  | railOvercurrent (rail : Nat) (m : RailMeas)
  | railUnderVoltage (rail : Nat) (m : RailMeas)
  | softStartRetry (rail : Nat) (inp : CdStartInputs)
  | latchRelease (h : ReqHead) (arg : Nat)
  | phaseShedEvaluation
  | phaseRotation (rail : Nat)
  | shedAbort (byHint : Bool)
  | shedHoldoffEnd
  | mpcHintReceive (unit : Nat)
  | hintWindowStart
  | powerSlotBoundary (r : SlotReadings)
  | calibrationUpdate (measuredMicrojoule : Nat)
  | inputPowerSample (millivolt milliamp : Nat)
  | thermalControllerUpdate
  | opportunisticRaise
  | sensorRead (readings : List Int)
  | flowLost
  | leaseRenewSend
  | leasePulseReceive (microseconds : Nat)
  | leaseRenewReceive (number state slot checkpoint : Nat)
  | leaseAckSend
  | leaseAckReceive (number paths state : Nat)
  | leaseClaim
  | leaseExpiry (b : BootInputs)
  | takeoverLimitExpiry (b : BootInputs)
  | checkpointReadComplete (slot0 slot1 : Option Blob)
  | storeReadTimeout
  | rcTableRestore (rc : Nat) (table : Blob)
  | checkpointTake
  | checkpointVerified
  | checkpointTimeout
  | manualSwitchOver (h : ReqHead) (arg : Nat)
  | handoverReceive (number checkpoint : Nat)
  | peerStateSend
  | peerStateReceive (state flags : Nat)
  | flowReturned
  | currentSenseBit (ch : Nat) (bit : Bool)
  | serdesPllRelock
  | stackManagementFatal (stack : Nat)
  | vaonPowerGoodLost
  | mpWatchdogKick
  | linkSignalDetected (link : Nat)
  | d0Return
  deriving DecidableEq, Repr

end Sys2Proof
end

