-- ==== Sys2Proof/Decode.lean ====
section
/-! DEFINITION. The decoder over the rows of the opcode table that give bits: no row does, so no word spells a
command. -/

namespace Sys2Proof

/-- The command that a word of `nbits` bits spells: the opcode table gives no row any bits. -/
def decodeTableWord (_nbits _w : Nat) : Option Instr := none

end Sys2Proof
end

