-- ==== Sys2Proof/Config.lean ====
section
/-! DEFINITION. What an implementation fixes and the specification leaves open: constants without a body.  Nothing in
Lean can evaluate them, so a statement about one holds whatever it is. -/

namespace Sys2Proof.Config

/-- The SHA-512 hash of the root key, held in the ROM (R85). -/
opaque rootKeyHash : Nat

/-- The PCI Express vendor ID (R349). -/
opaque vendorId : Nat

/-- Shelf position of the module at the far end of a link of mode 2, which the shelf's wiring fixes (R344; log entry 1). -/
opaque farShelf : Nat → Nat

/-- The `n`-th free value drawn: every value the specification leaves undefined or random takes the next one (log
entry 1). -/
opaque freeValue : Nat → Nat

/-- The correction of the root oscillator that a crystal temperature calls for, in 0.001 ppm (R72): the argument is the
temperature in 0.01 °C. -/
opaque rootCorrection : Int → Int

/-- The ratio of a charge to a span of zero, which the specification does not state (R449, R459): the arguments are the
charge and the span (log entry 12). -/
opaque openShare : Rat → Rat → Rat

/-- The error of a vector-unit function as a part of its largest error (R112): the arguments are the SUBOP of VECTOR and
the FP32 bits of the operand; used between −1 and 1 (log entry 14). -/
opaque vecError : Nat → Nat → Rat

/-- The FP32 bits of a vector-unit function where the specification states no result, such as the logarithm of 0: SUBOP
and FP32 bits of the operand (log entry 14). -/
opaque vecOpen : Nat → Nat → Nat

/-- The flipped bits, against a word of zeros, of the codeword in a word that no write has touched, met where its valid bit
is lost to a majority of struck copies (R207): the argument is the word's address (log entry 1). -/
opaque strayWord : Nat → Nat

/-- Measured voltage and current of a rail that no row measures, within the bounds of its state (R469, R503; log entry 93):
which of the two, rail and module time. -/
opaque railReading : Nat → Nat → Nat → Nat

/-- Rounding mode, seed and overflow mode of a host program or a ripening program, which no object of the specification
sets (R127, R129, R130; log entry 98): stochastic rounding, seed, overflow to infinity. -/
opaque programStochastic : Bool
opaque programSeed : Nat
opaque programToInf : Bool

end Sys2Proof.Config
end

