-- ==== Sys2Proof/Machine/Bits.lean ====
section
/-! DEFINITION. Sparse tables, bit and byte fields, two's complement, saturation and rounding: the helpers every
later file uses. -/

namespace Sys2Proof.Machine

open Sys2Proof

/-! ## Sparse tables -/

/-- The value a table holds for a key: the default where it lists none. -/
def tabGet {α : Type} (d : α) : Tab α → Nat → α
  | [], _ => d
  | (k, v) :: t, i => if i = k then v else tabGet d t i

/-- Put a pair into a table, keeping the keys strictly rising. -/
def tabInsert {α : Type} : Tab α → Nat → α → Tab α
  | [], i, v => [(i, v)]
  | (k, w) :: t, i, v =>
    if i < k then (i, v) :: (k, w) :: t
    else if i = k then (i, v) :: t
    else (k, w) :: tabInsert t i v

/-- Remove a key from a table. -/
def tabErase {α : Type} : Tab α → Nat → Tab α
  | [], _ => []
  | (k, w) :: t, i => if i = k then tabErase t i else (k, w) :: tabErase t i

/-- Write a table entry, keeping the canonical form: the default value removes the entry. -/
def tabPut {α : Type} [DecidableEq α] (d : α) (t : Tab α) (i : Nat) (v : α) : Tab α :=
  if v = d then tabErase t i else tabInsert t i v

/-- Change one table entry. -/
def tabMod {α : Type} [DecidableEq α] (d : α) (t : Tab α) (i : Nat) (f : α → α) : Tab α :=
  tabPut d t i (f (tabGet d t i))

/-- The canonical form of a table: keys strictly rising, no entry equal to the default. -/
def tabWf {α : Type} [DecidableEq α] (d : α) : Tab α → Bool
  | [] => true
  | [(_, v)] => decide (v ≠ d)
  | (k, v) :: (k', v') :: t => decide (v ≠ d) && decide (k < k') && tabWf d ((k', v') :: t)

/-- Add to an ordered list of numbers. -/
def ordInsert : List Nat → Nat → List Nat
  | [], i => [i]
  | k :: t, i => if i < k then i :: k :: t else if i = k then k :: t else k :: ordInsert t i

/-! ## Spans -/

/-- An address lies in one of some spans, each its first byte and its end. -/
def spanHas (l : List (Nat × Nat)) (a : Nat) : Bool := l.any (fun p => decide (p.1 ≤ a ∧ a < p.2))

/-- Spans without the bytes of another. -/
def spanCut (l : List (Nat × Nat)) (x : Nat × Nat) : List (Nat × Nat) :=
  l.flatMap (fun p =>
    (if p.1 < min p.2 x.1 then [(p.1, min p.2 x.1)] else []) ++ (if max p.1 x.2 < p.2 then [(max p.1 x.2, p.2)] else []))

/-- Spans with another. -/
def spanAdd (l : List (Nat × Nat)) (x : Nat × Nat) : List (Nat × Nat) :=
  if x.2 ≤ x.1 ∨ l.any (fun p => decide (p.1 ≤ x.1 ∧ x.2 ≤ p.2)) = true then l else x :: spanCut l x

/-- The runs of a rising list of numbers, each its first number and its end. -/
def spansOf : List Nat → List (Nat × Nat)
  | [] => []
  | w :: t =>
    match spansOf t with
    | (lo, hi) :: r => if w + 1 = lo then (w, hi) :: r else (w, w + 1) :: (lo, hi) :: r
    | [] => [(w, w + 1)]

/-- The numbers of two rising lists, rising. -/
def ordMerge : List Nat → List Nat → List Nat
  | [], l => l
  | a :: t, l => l.takeWhile (· < a) ++ a :: ordMerge t (l.dropWhile (· ≤ a))

/-! ## Fields -/

/-- The `n` bits of `v` from bit `lo` upwards. -/
def fld (v lo n : Nat) : Nat := (v >>> lo) % 2 ^ n

/-- Bit `i` of `v`. -/
def bitAt (v i : Nat) : Bool := v.testBit i

/-- The `n` bytes of a little-endian byte string from offset `off` (R7). -/
def bytesAt (v : Blob) (off n : Nat) : Nat := fld v (8 * off) (8 * n)

/-- Replace the `n` bytes of a byte string from offset `off`. -/
def setBytes (v : Blob) (off n x : Nat) : Blob :=
  v - (bytesAt v off n) <<< (8 * off) + (x % 2 ^ (8 * n)) <<< (8 * off)

/-- Set or clear one bit. -/
def setBit (v i : Nat) (b : Bool) : Nat :=
  if bitAt v i = b then v else if b then v + 2 ^ i else v - 2 ^ i

/-- 1 for true, 0 for false. -/
def b2n (b : Bool) : Nat := if b then 1 else 0

/-- The `n` bits of `v` read in two's complement. -/
def signed (n v : Nat) : Int :=
  let u := v % 2 ^ n
  if u < 2 ^ (n - 1) then (u : Int) else (u : Int) - 2 ^ n

/-- An integer written in two's complement of `n` bits. -/
def unsigned (n : Nat) (v : Int) : Nat := (v % (2 ^ n : Int)).toNat

/-- Lay out fields one after another, least significant first: each field is `(bits, value)`. -/
def pack : List (Nat × Nat) → Nat
  | [] => 0
  | (n, v) :: t => v % 2 ^ n + (pack t) <<< n

/-- Lay out byte fields one after another, lowest address first: each field is `(bytes, value)`. -/
def packBytes : List (Nat × Nat) → Blob
  | [] => 0
  | (n, v) :: t => v % 2 ^ (8 * n) + (packBytes t) <<< (8 * n)

/-- The numbers `0, 1, …, n − 1`. -/
def upTo (n : Nat) : List Nat := List.range n

/-- The set bits of `v` below `n`, rising. -/
def bitsOf (n v : Nat) : List Nat := (upTo n).filter (bitAt v)

/-- The number whose set bits are those that satisfy `p`, below `n`. -/
def maskOf (n : Nat) (p : Nat → Bool) : Nat :=
  (upTo n).foldl (fun m i => if p i then m + 2 ^ i else m) 0

/-- Number of set bits below `n`. -/
def popCount (n v : Nat) : Nat := (bitsOf n v).length

/-- Reverse the lowest `n` bits. -/
def revBits : Nat → Nat → Nat
  | 0, _ => 0
  | n + 1, v => (v % 2) * 2 ^ n + revBits n (v / 2)

/-! ## Saturation and counters -/

/-- Clamp to an interval. -/
def clampI (x lo hi : Int) : Int := if x < lo then lo else if hi < x then hi else x

/-- Absolute values. -/
def absR (x : Rat) : Rat := if x < 0 then -x else x

def absI (x : Int) : Int := x.natAbs

/-- Clamp a rational to an interval. -/
def clampR (x lo hi : Rat) : Rat := if x < lo then lo else if hi < x then hi else x

/-- The largest value of a U32. -/
def u32Max : Nat := 2 ^ 32 - 1

/-- The largest value of a U64. -/
def u64Max : Nat := 2 ^ 64 - 1

/-- Add to a saturating U32 counter. -/
def sat32 (a b : Nat) : Nat := min (a + b) u32Max

/-- Add to a saturating U64 counter. -/
def sat64 (a b : Nat) : Nat := min (a + b) u64Max

/-- Next value of a 16-bit epoch that wraps from 0xFFFF to 1 (R187, R331). -/
def nextEpoch (e : Nat) : Nat := if e = 0xFFFF then 1 else e + 1

/-- Next value of a 32-bit sequence that wraps from 0xFFFF_FFFF to 1 (R461, R505). -/
def nextSeq (q : Nat) : Nat := if q = u32Max then 1 else q + 1

/-- Serial comparison of sequences (R461). -/
def newerSeq (a b : Nat) : Bool :=
  let d := (a + 2 ^ 32 - b) % 2 ^ 32
  decide (1 ≤ d ∧ d ≤ 2 ^ 31 - 1)

/-! ## Rounding -/

/-- `n / d` rounded to the nearest integer, ties to even. -/
def rneDiv (n : Int) (d : Nat) : Int :=
  let q := n / (d : Int)
  let r := n % (d : Int)
  if 2 * r < d then q else if (d : Int) < 2 * r then q + 1 else if q % 2 = 0 then q else q + 1

/-- An arithmetic right shift rounded to nearest even. -/
def rneShift (v : Int) (k : Nat) : Int := rneDiv v (2 ^ k)

/-- A rational rounded to the nearest integer, ties to even. -/
def rneRat (x : Rat) : Int := rneDiv x.num x.den

/-- A rational rounded to the nearest natural number, negative values giving 0. -/
def natRat (x : Rat) : Nat := (rneRat x).toNat

/-- The greatest integer not above a rational. -/
def floorRat (x : Rat) : Int := x.num / (x.den : Int)

/-- The least integer not below a rational. -/
def ceilRat (x : Rat) : Int := -((-x.num) / (x.den : Int))

/-- The least natural number not below `a / b`. -/
def ceilDiv (a b : Nat) : Nat := (a + b - 1) / b

/-! ## Q32 (R12, R119) -/

/-- Read the 8 bytes of a Q32. -/
def q32Of (raw : Nat) : Q32 := ⟨signed 32 raw, fld raw 32 5⟩

/-- Write a Q32 as 8 bytes, bits [63:37] zero. -/
def q32Raw (q : Q32) : Nat := unsigned 32 q.v + q.s <<< 32

/-- The value of a Q32. -/
def q32Val (q : Q32) : Rat := (q.v : Rat) / (2 ^ q.s : Rat)

/-- A rational as a Q32 of shift `s`, rounded to nearest even and saturated. -/
def q32Mk (x : Rat) (s : Nat) : Q32 :=
  ⟨clampI (rneRat (x * (2 ^ s : Rat))) (-(2 ^ 31)) (2 ^ 31 - 1), s⟩

/-- The smallest and the largest signal (R279). -/
def sigMin : Int := -(2 ^ 31)
def sigMax : Int := 2 ^ 31 - 1

/-- Saturate to a signal of 32 bits. -/
def satSig (x : Int) : Int := clampI x sigMin sigMax

/-- Conversion of a Q32 to shift 30 before saturation (R280). -/
def toShift30 (q : Q32) : Int :=
  if 30 < q.s then rneShift q.v (q.s - 30) else q.v * 2 ^ (30 - q.s)

/-- Conversion of a Q32 to a signal at shift 30, saturated (R280). -/
def toSignal (q : Q32) : Int := satSig (toShift30 q)

/-- The conversion of R280 saturates. -/
def signalSat (q : Q32) : Bool := decide (toShift30 q ≠ toSignal q)

/-- The Q32 that publishes a signal (R279). -/
def sigQ (x : Int) : Q32 := ⟨x, 30⟩

/-- A signal's value in its base. -/
def sigVal (x : Int) : Rat := (x : Rat) / (2 ^ 30 : Rat)

/-- A rational in per-unit as a signal, rounded to nearest even and saturated. -/
def ratSig (x : Rat) : Int := satSig (rneRat (x * (2 ^ 30 : Rat)))

end Sys2Proof.Machine
end

