-- ==== Sys2Proof/Machine/Crypto.lean ====
section
/-! DEFINITION. The checks and digests the specification names by their standards: CRC-8 (R375), CRC-16 (R423),
CRC-32 (R326, R461), SHA-512 (R85, R103) and Ed25519 (R84, R356).

PRESUMED: SHA-512 is that of FIPS 180-4 and Ed25519 verification that of RFC 8032 (log entry 3). -/

namespace Sys2Proof.Machine

open Sys2Proof

/-! ## Cyclic redundancy checks -/

/-- One bit of a reflected CRC. -/
def crcBit (poly crc : Nat) : Nat := if crc % 2 = 1 then (crc / 2) ^^^ poly else crc / 2

/-- One byte of a reflected CRC. -/
def crcByte (poly crc byte : Nat) : Nat :=
  (upTo 8).foldl (fun c _ => crcBit poly c) (crc ^^^ byte)

/-- `f n`, with `n` worked out to a number before `f` looks at it (for the kernel's evaluation alone). -/
def worked (n : Nat) (f : Nat → Nat) : Nat :=
  match n with
  | 0 => f 0
  | k + 1 => f (k + 1)

/-- A reflected CRC over the first `n` bytes of `v`. -/
def crcBytes (poly : Nat) : Nat → Blob → Nat → Nat
  | 0, _, crc => crc
  | n + 1, v, crc => worked (crcByte poly crc (v % 256)) (fun crc => crcBytes poly n (v / 256) crc)

/-- CRC-32 of the IEEE 802.3 frame check sequence (R326, R461). -/
def crc32 (n : Nat) (v : Blob) : Nat := (crcBytes 0xEDB88320 n v 0xFFFFFFFF) ^^^ 0xFFFFFFFF

/-- CRC-16 of the cell port link: x^16 + x^12 + x^5 + 1, reflected, initial value 0xFFFF, no final XOR (R423). -/
def crc16 (n : Nat) (v : Blob) : Nat := crcBytes 0x8408 n v 0xFFFF

/-- CRC-8 of the Gangway, x^8 + x^2 + x + 1, initial value 0xFF, over bits in the order sent (R375). -/
def crc8 (bits : List Bool) : Nat :=
  bits.foldl (fun c b =>
    let top := bitAt c 7 != b
    let s := (c * 2) % 256
    if top then s ^^^ 0x07 else s) 0xFF

/-! ## SHA-512

A state of eight words is one number of 512 bits, word 0 lowest; the next sixteen message words are one of 1,024 bits. -/

/-- Word `i` of a number made of 64-bit words, the first one lowest. -/
def lane (v i : Nat) : Nat := fld v (64 * i) 64

/-- The round constants, word 0 to word 79: the first 64 fractional bits of the cube roots of the first 80 primes. -/
def shaConstants : Nat :=
  0xc19bf174cf6926949bdc06a725c7123580deb1fe3b1696b172be5d74f27b896f550c7dc3d5ffb4e2243185be4ee4b28c12835b0145706fbed807aa98a3030242ab1c5ed5da6d8118923f82a4af194f9b59f111f1b605d0193956c25bf348b538e9b5dba58189dbbcb5c0fbcfec4d3b2f7137449123ef65cd428a2f98d728ae22 +
  0x142929670a0e6e7006ca6351e003826fd5a79147930aa725c6e00bf33da88fc2bf597fc7beef0ee4b00327c898fb213fa831c66d2db43210983e5152ee66dfab76f988da831153b55cb0a9dcbd41fbd44a7484aa6ea6e4832de92c6f592b0275240ca1cc77ac9c650fc19dc68b8cd5b5efbe4786384f25e3e49b69c19ef14ad2 <<< 1024 +
  0x106aa07032bbd1b8f40e35855771202ad69906245565a910d192e819d6ef5218c76c51a30654be30c24b8b70d0f89791a81a664bbc423001a2bfe8a14cf1036492722c851482353b81c2c92e47edaee6766a0abb3c77b2a8650a73548baf63de53380d139d95b3df4d2c6dfc5ac42aed2e1b21385c26c92627b70a8546d22ffc <<< 2048 +
  0xc67178f2e372532bbef9a3f7b2c67915a4506cebde82bde990befffa23631e288cc702081a6439ec84c87814a1f0ab7278a5636f43172f60748f82ee5defb2fc682e6ff3d6b2b8a35b9cca4f7763e3734ed8aa4ae3418acb391c0cb3c5c95a6334b0bcb5e19b48a82748774cdf8eeb991e376c085141ab5319a4c116b8d2d0c8 <<< 3072 +
  0x6c44198c4a4758175fcb6fab3ad6faec597f299cfc657e2a4cc5d4becb3e42b6431d67c49c100d4c3c9ebe0a15c9bebc32caab7b40c7249328db77f523047d841b710b35131c471b113f9804bef90dae0a637dc5a2c898a606f067aa72176fbaf57d4f7fee6ed178eada7dd6cde0eb1ed186b8c721c0c207ca273eceea26619c <<< 4096

/-- The eight words that hashing starts from. -/
def shaStart : Nat :=
  0x5be0cd19137e21791f83d9abfb41bd6b9b05688c2b3e6c1f510e527fade682d1a54ff53a5f1d36f13c6ef372fe94f82bbb67ae8584caa73b6a09e667f3bcc908

/-- A 64-bit word turned right by `n`, bit by bit the low part on top of the high part. -/
def turn (x n : Nat) : Nat := x / 2 ^ n + x % 2 ^ n * 2 ^ (64 - n)

/-- The exclusive OR of a word's turns. -/
def turns (x : Nat) (l : List Nat) : Nat := l.foldl (fun y n => y ^^^ turn x n) 0

/-- One round with the sum `x` of the round constant and the message word: words 0 to 2 and 4 to 6 move up by one, word 4
is the old word 3 plus `t`, and word 0 is `t` plus the mix of the old words 0 to 2. -/
def shaRound (v x : Nat) : Nat :=
  let chosen := lane v 6 ^^^ (lane v 4 &&& (lane v 5 ^^^ lane v 6))
  let t := lane v 7 + turns (lane v 4) [14, 18, 41] + chosen + x
  let mix := turns (lane v 0) [28, 34, 39] + ((lane v 0 &&& lane v 1) ||| (lane v 2 &&& (lane v 0 ||| lane v 1)))
  packBytes [(8, (t + mix) % 2 ^ 64), (24, v % 2 ^ 192), (8, (lane v 3 + t) % 2 ^ 64), (24, fld v 256 192)]

/-- The message word that follows the sixteen of `win`. -/
def shaNext (win : Nat) : Nat :=
  let early := turns (lane win 1) [1, 8] ^^^ lane win 1 / 2 ^ 7
  let late := turns (lane win 14) [19, 61] ^^^ lane win 14 / 2 ^ 6
  (lane win 0 + early + lane win 9 + late) % 2 ^ 64

/-- `n` rounds from the first of `constants`: the message words slide by one at each. -/
def shaRounds : Nat → Nat → Nat → Nat → Nat
  | 0, _, _, v => v
  | n + 1, constants, win, v =>
    worked (shaRound v (lane constants 0 + lane win 0)) (fun v =>
      worked (win / 2 ^ 64 + shaNext win * 2 ^ 960) (fun win =>
        worked (constants / 2 ^ 64) (fun constants => shaRounds n constants win v)))

/-- The bytes of each word of a block in the other order: message words are big-endian. -/
def shaWords (block : Blob) : Nat :=
  (upTo 128).foldl (fun x i => x + bytesAt block (8 * (i / 8) + 7 - i % 8) 1 <<< (8 * i)) 0

/-- One 128-byte block: what its rounds leave is added to the state word by word. -/
def shaBlock (v : Nat) (block : Blob) : Nat :=
  let w := shaRounds 80 shaConstants (shaWords block) v
  packBytes ((upTo 8).map (fun i => (8, (lane v i + lane w i) % 2 ^ 64)))

/-- `n` blocks. -/
def shaBlocks : Nat → Blob → Nat → Nat
  | 0, _, v => v
  | n + 1, m, v => worked (shaBlock v (m % 2 ^ 1024)) (fun v => shaBlocks n (m / 2 ^ 1024) v)

/-- Reverse the order of `n` bytes. -/
def revBytes : Nat → Blob → Blob
  | 0, _ => 0
  | n + 1, v => (v % 256) <<< (8 * n) + revBytes n (v / 256)

/-- SHA-512 of the first `n` bytes of `v`: 64 bytes, the first digest byte at the lowest address (R12).  The message, one
bit, zeros, and the message's length in bits as a big-endian number of 16 bytes fill whole blocks. -/
def sha512 (n : Nat) (v : Blob) : Blob :=
  let blocks := ceilDiv (n + 17) 128
  let message := packBytes [(n, v), (1, 0x80), (128 * blocks - n - 17, 0), (16, revBytes 16 (8 * n))]
  packBytes ((upTo 8).map (fun i => (8, revBytes 8 (lane (shaBlocks blocks message shaStart) i))))

/-! ## Ed25519 -/

/-- The field prime 2^255 − 19. -/
def edP : Nat := 2 ^ 255 - 19

/-- The order of the base point. -/
def edL : Nat := 2 ^ 252 + 27742317777372353535851937790883648493

/-- Modular power, over the bits of a 256-bit exponent. -/
def powMod (m : Nat) : Nat → Nat → Nat → Nat → Nat
  | 0, _, _, acc => acc
  | n + 1, b, e, acc =>
    powMod m n (b * b % m) (e / 2) (if e % 2 = 1 then acc * b % m else acc)

/-- Inverse in the field. -/
def edInv (x : Nat) : Nat := powMod edP 256 (x % edP) (edP - 2) 1

/-- The curve constant d = −121665 / 121666. -/
def edD : Nat := (edP - 121665) * edInv 121666 % edP

/-- A point in extended coordinates. -/
structure EdPoint where
  x : Nat
  y : Nat
  z : Nat
  t : Nat
  deriving DecidableEq, Repr

/-- Addition of two points. -/
def edAdd (p q : EdPoint) : EdPoint :=
  let a := (p.y + edP - p.x) * (q.y + edP - q.x) % edP
  let b := (p.y + p.x) * (q.y + q.x) % edP
  let c := 2 * p.t * q.t % edP * edD % edP
  let d := 2 * p.z * q.z % edP
  let e := b + edP - a
  let f := d + edP - c
  let g := d + c
  let h := b + a
  ⟨e * f % edP, g * h % edP, f * g % edP, e * h % edP⟩

/-- Scalar multiplication over 256 bits. -/
def edMul : Nat → Nat → EdPoint → EdPoint → EdPoint
  | 0, _, _, acc => acc
  | n + 1, k, p, acc =>
    edMul n (k / 2) (edAdd p p) (if k % 2 = 1 then edAdd acc p else acc)

/-- The neutral point. -/
def edZero : EdPoint := ⟨0, 1, 1, 0⟩

/-- Recover the x coordinate with the given lowest bit, if the point is on the curve. -/
def edRecover (y sign : Nat) : Option Nat :=
  if edP ≤ y then none else
  let x2 := (y * y + edP - 1) % edP * edInv (edD * y % edP * y + 1) % edP
  if x2 = 0 then (if sign = 1 then none else some 0) else
  let r := powMod edP 256 x2 ((edP + 3) / 8) 1
  let r := if r * r % edP = x2 then r else r * powMod edP 256 2 ((edP - 1) / 4) 1 % edP
  if r * r % edP ≠ x2 then none
  else if r % 2 = sign then some r else some (edP - r)

/-- Decode a 32-byte point. -/
def edDecode (v : Blob) : Option EdPoint :=
  let y := v % 2 ^ 255
  (edRecover y (fld v 255 1)).map (fun x => ⟨x, y, 1, x * y % edP⟩)

/-- The base point. -/
def edBase : EdPoint :=
  let y := 4 * edInv 5 % edP
  let x := (edRecover y 0).getD 0
  ⟨x, y, 1, x * y % edP⟩

/-- Two points are equal. -/
def edEq (p q : EdPoint) : Bool :=
  decide (p.x * q.z % edP = q.x * p.z % edP ∧ p.y * q.z % edP = q.y * p.z % edP)

/-- Verify an Ed25519 signature by `key` over the first `n` bytes of `msg`. -/
def edVerify (key : Blob) (n : Nat) (msg sig : Blob) : Bool :=
  let r := bytesAt sig 0 32
  let k := bytesAt sig 32 32
  if edL ≤ k then false else
  match edDecode (key % 2 ^ 256), edDecode r with
  | some a, some rp =>
    let h := sha512 (64 + n) (r + (key % 2 ^ 256) <<< 256 + (msg % 2 ^ (8 * n)) <<< 512) % edL
    edEq (edMul 256 k edBase edZero) (edAdd rp (edMul 256 h a edZero))
  | _, _ => false

end Sys2Proof.Machine
end

