-- ==== Sys2Proof/Machine/OdTable.lean ====
section
/-! DEFINITION. The entries of the object dictionary: type, access, default, limits and flags of every entry that a
table of a home chapter lists (R392), written from those tables, and the static limits of values. -/

namespace Sys2Proof.Machine

open Sys2Proof

/-- The dictionary types of R12; a BLOB carries its defined size (R393). -/
inductive Ty where
  | u8 | u16 | u32 | u64 | i32 | q32 | bool | digest | blob (n : Nat)
  deriving DecidableEq, Repr

/-- The access codes of R13. -/
inductive Acc where
  | ro | rw | wo | rws | cmd
  deriving DecidableEq, Repr

/-- Size in bytes under R12. -/
def Ty.bytes : Ty → Nat
  | .u8 => 1 | .u16 => 2 | .u32 => 4 | .u64 => 8 | .i32 => 4 | .q32 => 8 | .bool => 1 | .digest => 64 | .blob n => n

/-- Type code of the entry description (R394). -/
def Ty.code : Ty → Nat
  | .u8 => 1 | .u16 => 2 | .u32 => 3 | .u64 => 4 | .i32 => 5 | .q32 => 6 | .bool => 7 | .digest => 8 | .blob _ => 9

/-- Access code of the entry description (R394). -/
def Acc.code : Acc → Nat
  | .ro => 1 | .rw => 2 | .wo => 3 | .rws => 4 | .cmd => 5

/-- One entry: type, access, default, least and greatest value (in two's complement for I32, of the value field for a
Q32), and whether it is a configuration object (R398) or a counter. -/
structure Entry where
  ty : Ty
  acc : Acc
  dflt : Nat := 0
  lo : Int := 0
  hi : Int := 0
  config : Bool := false
  counter : Bool := false
  deriving DecidableEq, Repr

/-- An object (R391): a single value, or a record of subindices. -/
inductive Obj where
  | single (e : Entry)
  | record (es : List (Nat × Entry))
  deriving DecidableEq, Repr

/-! ## Short forms of entries -/

def roE (t : Ty) (d : Nat := 0) : Entry := { ty := t, acc := .ro, dflt := d }
def ctrE : Entry := { ty := .u32, acc := .ro, counter := true }
def cmdE (t : Ty) : Entry := { ty := t, acc := .cmd }
def rwE (t : Ty) (d : Nat) (lo hi : Int) : Entry := { ty := t, acc := .rw, dflt := d, lo := lo, hi := hi }
def cfgE (t : Ty) (d : Nat) (lo hi : Int) : Entry :=
  { ty := t, acc := .rw, dflt := d, lo := lo, hi := hi, config := true }
def secE (t : Ty) (d : Nat) (lo hi : Int) : Entry :=
  { ty := t, acc := .rws, dflt := d, lo := lo, hi := hi, config := true }

/-- A BLOB or digest whose inner limits are checked elsewhere. -/
def cfgB (n d : Nat) : Entry := { ty := .blob n, acc := .rw, dflt := d, config := true }
def secB (n d : Nat) : Entry := { ty := .blob n, acc := .rws, dflt := d, config := true }

/-- The same entry at consecutive subindices. -/
def subs (a n : Nat) (e : Entry) : List (Nat × Entry) := (upTo n).map (fun i => (a + i, e))

/-- `n` copies of a `size`-byte value, one after another. -/
def repBytes (n size v : Nat) : Blob := v * ((2 ^ (8 * size * n) - 1) / (2 ^ (8 * size) - 1))

/-- Little-endian items of `size` bytes. -/
def itemBytes (size : Nat) (l : List Nat) : Blob := packBytes (l.map (fun v => (size, v)))

/-- A Q32 default written as its value at shift 30 (R314; log entry 5). -/
def q30 (v : Nat) : Nat := v + 30 <<< 32

/-- The greatest value of a U32 as a limit. -/
def u32H : Int := 2 ^ 32 - 1

/-- The limits of a Q32 value field. -/
def q32L : Int := -(2 ^ 31)
def q32H : Int := 2 ^ 31 - 1

/-! ## Defaults of BLOBs -/

/-- Default BAR2 window table (R199): segment i maps to region 12 × floor(i / 8) + (i mod 8). -/
def bar2Default : Blob := itemBytes 1 ((upTo 64).map (fun i => 12 * (i / 8) + i % 8))

/-- Default activity weights (R484). -/
def weightsDefault : Blob :=
  itemBytes 4 (((upTo 8).map (fun _ => [7800, 6200, 1500, 900, 400])).flatten ++
    [2400, 2800, 3000, 3300, 1200, 3000, 2000, 1800])

/-- Default OCV table, mV (R468). -/
def ocvDefault : Blob :=
  itemBytes 2 [2900, 3100, 3200, 3228, 3250, 3262, 3274, 3284, 3292, 3298, 3304, 3310, 3316, 3322, 3328, 3334,
    3342, 3352, 3366, 3390, 3450]

/-- Default temperature limits, 0.01 °C (R468). -/
def tempLimitsDefault : Blob := itemBytes 2 [unsigned 16 0, 4500, unsigned 16 (-1000), 5500]

/-- Default SRAM region worlds: the 16 CE bits 768 to 783 set (R93, R104). -/
def sramWorldsDefault : Blob := (2 ^ 16 - 1) <<< 768

/-! ## Objects by range -/

/-- R389. -/
def obj1 (i : Nat) : Option Obj :=
  if i = 0x1001 then some (.record [(1, roE .u16), (2, roE .u16 0x0960), (3, roE .u8), (4, roE .u8), (5, ctrE),
    (6, ctrE), (7, ctrE)])
  else if i = 0x1010 then some (.single (cfgE .u16 0x88B5 0 65535))
  else if i = 0x1011 then some (.record [(1, roE (.blob 6)), (2, cfgB 6 (revBytesLit [0x03, 0x00, 0x44, 0x58, 0x43, 0x01]))])
  else if i = 0x1012 then some (.record [(1, cfgE .bool 1 0 1), (2, cfgE .bool 1 0 1), (3, roE .u8)])
  else if i = 0x1020 then some (.record (subs 1 4 ctrE ++ [(5, roE .u8)]))
  else if i = 0x1040 then some (.record [(1, ctrE)])
  else if i = 0x1041 then some (.single (roE (.blob 3528)))
  else if i = 0x1300 then some (.record [(1, cfgE .u32 0 0 0xFFFFFF), (2, roE .u32),
    (3, { roE .u64 with counter := true }), (4, ctrE)])
  else if i = 0x1320 then some (.single (cmdE .u16))
  else if i = 0x1330 then some (.single (roE (.blob 768)))
  else if 0x1340 ≤ i ∧ i < 0x1340 + 24 then some (.record [(1, cfgE .u16 0 0 65535), (2, cfgE .u8 0xFF 0 255),
    (3, cfgE .u16 0 0 65535), (4, cfgE .u8 2 0 255), (5, roE .u8), (6, ctrE), (7, roE .u8), (8, ctrE)])
  else none
where
  /-- bytes in the order of a MAC address, first byte at the lowest address -/
  revBytesLit (l : List Nat) : Blob := itemBytes 1 l

/-- R314. -/
def obj2 (i : Nat) : Option Obj :=
  if i = 0x2001 then some (.record ([(1, roE .bool)] ++ subs 2 4 ctrE ++ [(6, roE .q32 (q30 0)), (7, ctrE)]))
  else if i = 0x2002 then some (.single (cfgE .u32 20000 1000 1000000))
  else if i = 0x2003 then some (.record [(1, cfgE .q32 (0x00068DB9 + 31 <<< 32) q32L q32H),
    (2, cfgE .u8 4 0 255)])
  else if i = 0x2008 then some (.record (subs 1 16 (cfgE .q32 (q30 0) q32L q32H)))
  else if 0x2100 ≤ i ∧ i < 0x2140 then
    some (.record ([(1, cfgE .u16 0 0 65535), (2, cfgE .u16 0 0 65535), (3, cfgE .q32 (q30 0) q32L q32H),
      (4, cfgE .u16 0 0 65535)] ++ subs 5 7 (cfgE .q32 (q30 0) q32L q32H) ++
      [(12, cfgE .q32 (q30 0x0010624E) q32L q32H), (13, cfgE .q32 (q30 0x0010624E) q32L q32H),
       (14, cfgE .u16 1 1 1000), (15, cfgE .u16 0 0 65535), (16, cfgE .u8 0xFF 0 255), (17, cfgE .u8 0xFF 0 255),
       (18, cfgE .q32 (q30 0) 0 q32H), (19, cfgE .u32 0 0 u32H), (20, cfgE .u8 0 0 1), (21, cfgE .u8 0 0 2)]))
  else if 0x2200 ≤ i ∧ i < 0x2240 then
    some (.record ([(1, cmdE .u8), (2, rwE .q32 (q30 0) q32L q32H), (3, roE .u8)] ++ subs 4 4 (roE .q32 (q30 0)) ++
      [(8, roE .u16)] ++ subs 9 4 ctrE))
  else if 0x2300 ≤ i ∧ i < 0x2310 then some (.record [(1, roE .u8 0xFF), (2, roE .q32 (q30 0))])
  else if 0x2400 ≤ i ∧ i < 0x2402 then some (.record [(1, cfgE .u16 0xFFFF 0 65535), (2, roE .q32 (q30 0)),
    (3, ctrE), (4, roE .u8)])
  else if 0x2600 ≤ i ∧ i < 0x2604 then
    some (.record [(1, cfgE .u32 2 2 1048576), (2, cfgE .u16 1 0 255), (3, cfgE .q32 (q30 0) q32L q32H),
      (4, cfgE .q32 (q30 (2 ^ 30)) 0 q32H), (5, cfgE .u8 15 0 31), (6, cfgE .bool 0 0 1), (7, cmdE .u8),
      (8, cmdE .u16), (9, cmdE .u32), (10, roE .u32), (11, roE .u8 3), (12, roE .u8 0xFF)])
  else none

/-- R145, R193, R250. -/
def obj3 (i : Nat) : Option Obj :=
  if i = 0x3000 then some (.single (cfgE .u8 1 0 3))
  else if i = 0x3001 then some (.single (roE .u8 3))
  else if i = 0x3002 then some (.single (cfgB 12288 0))
  else if i = 0x3003 then some (.record [(1, cfgE .u8 100 0 100), (2, cfgE .u8 60 20 90)])
  else if i = 0x3010 then some (.record [(1, cfgE .u32 2000000 2 2000000), (2, cfgE .u32 2000 1000 1000000),
    (3, cfgE .u32 1000 0 50000)])
  else if i = 0x3011 then some (.record [(1, cfgE .u32 200000 2 2000000), (2, cfgE .u32 20000 1000 1000000),
    (3, cfgE .u32 4000 0 50000)])
  else if i = 0x3012 then some (.record [(1, cfgE .u32 5000 2 2000000), (2, cfgE .u32 200000 1000 1000000),
    (3, cfgE .u32 10000 0 50000)])
  else if i = 0x3020 then some (.record [(1, cfgE .bool 1 0 1), (2, cfgE .u32 60 10 86400), (3, cfgE .u16 20 0 500)])
  else if i = 0x3022 then some (.single (cmdE (.blob 16)))
  else if i = 0x3030 then some (.record (subs 1 14 ctrE))
  else if i = 0x3100 then some (.record [(1, roE .u8), (2, roE .u16), (3, roE .u16)])
  else if i = 0x3101 then some (.single (roE (.blob 12)))
  else if i = 0x3102 then some (.single (cmdE .u16))
  else if i = 0x3103 then some (.record (subs 1 96 (roE .u8)))
  else if i = 0x3104 then some (.single (cmdE .u8))
  else if i = 0x3200 then some (.single (cmdE (.blob 16)))
  else if i = 0x3201 then some (.record [(1, roE .u16), (2, roE .u16), (3, roE .u8), (4, roE .u32), (5, roE .i32),
    (6, roE .u16), (7, roE .bool)])
  else if i = 0x3202 then some (.single (cmdE .u32))
  else if i = 0x3203 then some (.single (cmdE (.blob 32)))
  else if i = 0x3210 then some (.record (subs 1 6 ctrE))
  else if i = 0x3211 then some (.single ctrE)
  else if 0x3400 ≤ i ∧ i < 0x3700 then
    some (.record ([(1, cfgE .u8 0 0 1), (2, cfgE .u64 0 0 (2 ^ 64 - 1)), (3, cfgE .u8 0 0 1)] ++ subs 4 4 ctrE ++
      [(8, roE .u16 0xFFFF)]))
  else if 0x3700 ≤ i ∧ i < 0x3A00 then
    some (.record [(1, roE .u16), (2, roE .u32), (3, roE .u8 0xFF), (4, roE .u32), (5, ctrE), (6, ctrE),
      (7, roE .u8)])
  else if 0x3A00 ≤ i ∧ i < 0x3D00 then
    some (.record [(1, roE .u8), (2, ctrE), (3, ctrE), (4, ctrE), (5, roE .u16), (6, ctrE)])
  else none

/-- R275. -/
def obj4 (i : Nat) : Option Obj :=
  if i = 0x4001 then some (.record [(1, rwE .u32 1000000 0 1000000), (2, cfgE .u32 1000000 0 1000000),
    (3, cfgE .u32 3000 0 20000), (4, cfgE .u32 0 0 3600000), (5, roE .u32), (6, roE .u8)])
  else if i = 0x4002 then some (.single (cfgB 6144 (repBytes 6144 1 0xFF)))
  else if i = 0x4003 then some (.single (cfgE .u8 50 0 200))
  else if i = 0x4004 then some (.single (cfgE .u8 8 0 96))
  else if i = 0x4010 then some (.record [(1, roE .u32), (2, roE .u32), (3, roE .u32), (4, roE .u32), (5, roE .u64),
    (6, roE .u8), (7, ctrE)])
  else if i = 0x4020 then some (.record [(1, roE .bool), (2, roE .u32), (3, { roE .u64 with counter := true }),
    (4, ctrE), (5, roE .bool)])
  else if i = 0x4030 then some (.record ([(1, roE .u8 0xFF), (2, roE .u8)] ++
    subs 3 6 { roE .u64 with counter := true } ++
    [(9, roE .bool), (10, { roE .u64 with counter := true }), (11, roE .u8)]))
  else if 0x4100 ≤ i ∧ i < 0x4140 then
    some (.record [(1, cfgE .u16 900 0 65535), (2, cfgE .u16 1600 0 65535), (3, cfgE .u16 1800 0 65535),
      (4, cfgE .u8 25 1 100), (5, cfgE .u32 400 0 u32H), (6, cfgE .u32 1000 0 u32H), (7, cfgE .bool 0 0 1),
      (8, cfgE .u8 0 0 3), (9, cfgE .u16 0 0 65535)])
  else if 0x4200 ≤ i ∧ i < 0x4240 then
    some (.record ([(1, roE .u16), (2, roE .u16), (3, roE .q32 (2 ^ 29 + 29 <<< 32)), (4, roE .u32),
      (5, roE .u8 0xFF), (6, roE .u8)] ++ subs 7 6 { roE .u64 with counter := true } ++ [(13, ctrE)]))
  else if i = 0x4400 then some (.single { roE (.blob 49152) with counter := true })
  else if i = 0x4401 then some (.single { roE (.blob 24576) with counter := true })
  else none

/-- R442. -/
def obj5 (i : Nat) : Option Obj :=
  if i = 0x5001 then some (.record [(1, ctrE), (2, roE .u8), (3, ctrE), (4, roE .u64), (5, roE .u32)])
  else if i = 0x5002 then some (.single (cfgE .u32 0 0 u32H))
  else if i = 0x5003 then some (.record [(1, cfgE .u16 50 10 500), (2, cfgE .u16 3 1 50), (3, cfgE .u32 60 10 3600),
    (4, cfgE .u16 5 1 50)])
  else if 0x5100 ≤ i ∧ i < 0x5120 then
    some (.record ([(1, cfgE .u8 0 0 1), (2, cfgE .u32 1000 64 16000), (3, roE .u8), (4, cfgE .u8 0xFF 0 255),
      (5, cfgE .u16 0 0 65535), (6, cfgE .u8 16 1 18), (7, cfgE .u8 1 1 2), (8, cfgE .u8 8 0 8),
      (9, cfgE .u8 0xFF 0 255), (10, cfgE .u16 0 0 65535)] ++ subs 11 6 ctrE ++
      [(17, roE .u16), (18, roE .u16), (19, roE .u16)]))
  else if 0x5200 ≤ i ∧ i < 0x5220 then
    some (.record [(1, roE (.blob 36)), (2, roE (.blob 36)), (3, roE (.blob 18)), (4, roE .u32), (5, roE (.blob 16)),
      (6, roE .u64), (7, roE .u32), (8, roE .u32), (9, roE .u8)])
  else if 0x5400 ≤ i ∧ i < 0x5408 then
    some (.record [(1, roE .u32), (2, roE .u32), (3, roE .bool), (4, ctrE)])
  else none

/-- R468. -/
def obj6 (i : Nat) : Option Obj :=
  if i = 0x6001 then some (.record [(1, roE .q32 (q30 0)), (2, roE .u32), (3, roE .u32), (4, roE .u32), (5, ctrE),
    (6, ctrE), (7, roE .u32)])
  else if i = 0x6002 then some (.single (cmdE .u8))
  else if 0x6100 ≤ i ∧ i < 0x6108 then
    some (.record [(1, cfgE .u8 0 0 2), (2, roE .q32 (q30 0)), (3, roE .bool), (4, cfgE .u16 0 0 400),
      (5, cfgE .u16 200 1 1000), (6, cfgE .u32 3600000 1000 2000000000), (7, cfgE .u32 1000 1 1000000),
      (8, cfgE .u16 2800 0 65535), (9, cfgE .u16 3650 0 65535), (10, cfgE .u16 3550 0 65535),
      (11, cfgE .u32 0x012C0032 0 u32H), (13, cfgE .u16 200 0 65535), (14, cfgE .u16 750 0 65535),
      (15, cfgE .u16 375 0 65535), (16, cfgE .u32 30000 10 3600000), (17, cfgE .u32 600000 10000 36000000),
      (18, cfgE .u16 0 0 900), (19, cfgB 8 tempLimitsDefault), (20, cfgB 42 ocvDefault), (21, cfgE .u16 20 0 65535),
      (22, cfgE .u16 150 0 65535), (23, cfgE .u16 50 0 65535), (24, cfgE .i32 0 (-(2 ^ 31)) (2 ^ 31 - 1)),
      (25, cfgE .bool 0 0 1), (26, cfgE .u16 50 0 65535)])
  else if 0x6200 ≤ i ∧ i < 0x6208 then
    some (.record [(1, roE .u64), (2, roE .i32), (3, roE .u32), (4, roE .u32), (5, roE .u32), (6, roE .u16),
      (7, roE .q32 (q30 0)), (8, roE .q32 (q30 0)), (9, roE .q32 (q30 0)), (10, roE .u32), (11, roE .u32),
      (12, { roE .u64 with counter := true }), (13, roE .u32), (14, roE .u8)])
  else none

/-- R503. -/
def obj7 (i : Nat) : Option Obj :=
  if i = 0x7001 then some (.record [(1, roE .u16), (2, roE .u32), (3, roE .u32), (4, roE .u32), (5, roE .u32),
    (6, roE .q32 (q30 (2 ^ 30))), (7, roE .u16), (8, roE .u16), (9, roE .u32), (10, roE .u8), (11, roE .u8),
    (12, roE .u8 16), (13, roE .i32), (14, roE .i32), (15, roE .i32)])
  else if i = 0x7010 then some (.single (cfgE .u32 1000 100 1200))
  else if i = 0x7011 then some (.single (cfgE .u16 50 0 200))
  else if i = 0x7012 then some (.record (subs 1 3 (roE .u8)))
  else if i = 0x7020 then some (.record [(1, cfgE .u16 0 0 1666), (2, roE .u8), (3, roE .u16)])
  else if i = 0x7030 then some (.record [(1, secE .i32 10000 8000 11000), (2, secE .i32 9500 8000 10000),
    (3, secE .i32 10500 8000 11000), (4, secE .u32 10 1 600), (5, secE .u16 1200 600 1250)])
  else if i = 0x7031 then some (.record [(1, cfgE .bool 1 0 1), (2, cfgE .u16 25 10 40), (3, cfgE .u8 8 4 32)])
  else if i = 0x7032 then some (.single (secE .u8 0 0 50))
  else if i = 0x7040 then some (.single (roE (.blob 256)))
  else if i = 0x7041 then some (.single (cmdE .u8))
  else if i = 0x7042 then some (.record (subs 1 8 ctrE))
  else if i = 0x7050 then some (.single (secB 192 weightsDefault))
  else if i = 0x7051 then some (.single (secE .u32 60 0 400))
  else if 0x7100 ≤ i ∧ i < 0x7100 + 95 then some (.record [(1, roE .i32), (2, roE .i32), (3, roE .u8), (4, ctrE)])
  else if 0x7200 ≤ i ∧ i < 0x7200 + 13 then some (.record [(1, roE .u8), (2, roE .u16), (3, roE .u32), (4, roE .u16)])
  else none

/-- The objects of Active and Standby Modules. -/
def obj8 (i : Nat) : Option Obj :=
  if i = 0x8001 then some (.record [(1, roE .bool), (2, roE .u8), (3, roE .u32), (4, roE .u8), (5, roE .u32)])
  else if i = 0x8002 then some (.single (cfgE .bool 1 0 1))
  else if i = 0x8010 then some (.single (cmdE .u8))
  else if i = 0x8020 then some (.single (roE .u32))
  else if i = 0x8021 then some (.record (subs 1 3 ctrE))
  else if i = 0x8030 then some (.record [(1, ctrE), (2, roE .u32), (3, roE .u32), (4, roE .u8), (5, ctrE), (6, ctrE),
    (7, roE .u8 0xFF)])
  else none

/-- R348. -/
def obj9 (i : Nat) : Option Obj :=
  if i = 0x9001 then some (.single (cfgB 48 (repBytes 48 1 1)))
  else if i = 0x9010 then some (.single (cfgB 49152 (repBytes 6144 8 0x0000FFFFFFFFFFFF)))
  else if i = 0x9020 then some (.record (subs 1 4 ctrE ++ [(5, roE .u16)]))
  else if 0x9100 ≤ i ∧ i < 0x9131 then
    some (.record ([(1, roE .u8), (2, roE .u32), (3, roE .u16)] ++ subs 4 9 ctrE ++ [(13, roE .u8), (15, ctrE)]))
  else if i = 0x9200 then some (.single (roE (.blob 24576)))
  else if 0x9400 ≤ i ∧ i < 0x9431 then some (.single (roE (.blob 132)))
  else none

/-- R221. -/
def objA (i : Nat) : Option Obj :=
  if i = 0xA001 then some (.record (subs 1 12 (roE .u8)))
  else if i = 0xA010 then some (.single (cfgE .u8 4 1 12))
  else if i = 0xA020 then some (.single (cfgB 64 bar2Default))
  else if i = 0xA040 then some (.single ctrE)
  else if i = 0xA050 then some (.record (subs 1 3 ctrE))
  else if 0xA100 ≤ i ∧ i < 0xA10C then
    some (.record (subs 1 3 ctrE ++ [(4, roE .u32), (5, ctrE), (6, ctrE), (7, roE .u64), (8, roE .u32), (9, roE .u8),
      (10, roE .u8 16)]))
  else if 0xA200 ≤ i ∧ i < 0xA20C then some (.record (subs 1 2 ctrE))
  else if 0xA300 ≤ i ∧ i < 0xA300 + 801 then some (.record (subs 1 3 ctrE))
  else none

/-- R104. -/
def objB (i : Nat) : Option Obj :=
  if i = 0xB001 then some (.record [(1, roE .u8), (2, roE .u8), (3, roE .u8), (4, roE .u8), (5, roE .u8),
    (6, roE .u16), (7, roE .u32)])
  else if i = 0xB010 then some (.record (subs 1 4 (roE (.blob 32)) ++ [(5, roE .u32)]))
  else if i = 0xB011 then some (.single (cmdE (.blob 144)))
  else if i = 0xB013 then some (.record (subs 1 3 (roE .u32) ++ [(4, cmdE (.blob 136))]))
  else if i = 0xB020 then some (.single { ty := .digest, acc := .rws, config := true })
  else if i = 0xB021 then some (.single (roE .digest))
  else if i = 0xB022 then some (.record [(1, roE .u32), (2, roE .bool)])
  else if i = 0xB030 then some (.single (secB 18 0))
  else if i = 0xB031 then some (.single (secB 98 sramWorldsDefault))
  else if i = 0xB040 then some (.single ctrE)
  else if i = 0xB041 then some (.single (roE .u64))
  else if i = 0xB060 then some (.single (roE .u8))
  else if i = 0xB061 then some (.single (cfgE .bool 0 0 1))
  else if i = 0xB062 then some (.single (cfgE .u8 6 0 6))
  else if i = 0xB063 then some (.single (roE .i32))
  else if i = 0xB064 then some (.single (roE .u8))
  else if i = 0xB070 then some (.single (cmdE (.blob 256)))
  else if i = 0xB071 then some (.single (cmdE (.blob 32776)))
  else if i = 0xB072 then some (.single (cmdE .u8))
  else if i = 0xB073 then some (.record [(1, roE .u8), (2, roE .u64), (3, roE .u8)])
  else if i = 0xB080 then some (.single (cmdE (.blob 65535)))
  else none

/-- R418. -/
def objC (i : Nat) : Option Obj :=
  if i = 0xC000 then some (.record [(1, roE .u16 1), (2, roE .u8 3)])
  else if i = 0xC001 then some (.record [(1, roE .u8 1), (2, roE .u8), (3, roE .u64), (4, roE .u64), (5, roE .u8)])
  else if i = 0xC002 then some (.single (cmdE .u8))
  else if i = 0xC010 then some (.record (subs 1 13 ctrE))
  else if i = 0xC020 then some (.single (cmdE .u32))
  else if i = 0xC021 then some (.single (roE (.blob 16)))
  else if i = 0xC100 then some (.record [(1, roE .u64 1), (2, roE .u64 1), (3, ctrE), (4, ctrE),
    (5, cfgE .u16 1024 1 2048)])
  else if i = 0xC102 then some (.record (subs 1 3 (rwE .u64 1 1 (2 ^ 64 - 1))))
  else if i = 0xC103 then some (.record (subs 1 3 (roE (.blob 2048))))
  else none

/-- The object at an index, if a table of its home chapter lists it (R392, R396). -/
def objectOf (i : Nat) : Option Obj :=
  match i / 0x1000 with
  | 1 => obj1 i | 2 => obj2 i | 3 => obj3 i | 4 => obj4 i | 5 => obj5 i | 6 => obj6 i | 7 => obj7 i | 8 => obj8 i
  | 9 => obj9 i | 10 => objA i | 11 => objB i | 12 => objC i
  | _ => none

/-- The highest subindex of a record (R11). -/
def topSub (es : List (Nat × Entry)) : Nat := es.foldl (fun m e => max m e.1) 0

/-- Look up a subindex in a record. -/
def findSub : List (Nat × Entry) → Nat → Option Entry
  | [], _ => none
  | (k, e) :: t, s => if k = s then some e else findSub t s

/-- The entry at an index and subindex; subindex 0 of a record is its highest subindex, U8 and RO (R11). -/
def entryOf (i s : Nat) : Option Entry :=
  match objectOf i with
  | none => none
  | some (.single e) => if s = 0 then some e else none
  | some (.record es) => if s = 0 then some (roE .u8 (topSub es)) else findSub es s

/-- Number of instances of the family an index belongs to; 0 where it belongs to none (R391, R394). -/
def familyOf (i : Nat) : Nat :=
  if 0x1340 ≤ i ∧ i < 0x1358 then 24
  else if (0x2100 ≤ i ∧ i < 0x2140) ∨ (0x2200 ≤ i ∧ i < 0x2240) then 64
  else if 0x2300 ≤ i ∧ i < 0x2310 then 16
  else if 0x2400 ≤ i ∧ i < 0x2402 then 2
  else if 0x2600 ≤ i ∧ i < 0x2604 then 4
  else if 0x3010 ≤ i ∧ i < 0x3013 then 0
  else if 0x3400 ≤ i ∧ i < 0x3D00 then 768
  else if (0x4100 ≤ i ∧ i < 0x4140) ∨ (0x4200 ≤ i ∧ i < 0x4240) then 64
  else if (0x5100 ≤ i ∧ i < 0x5120) ∨ (0x5200 ≤ i ∧ i < 0x5220) then 32
  else if (0x5400 ≤ i ∧ i < 0x5408) ∨ (0x6100 ≤ i ∧ i < 0x6108) ∨ (0x6200 ≤ i ∧ i < 0x6208) then 8
  else if 0x7100 ≤ i ∧ i < 0x715F then 95
  else if 0x7200 ≤ i ∧ i < 0x720D then 13
  else if (0x9100 ≤ i ∧ i < 0x9131) ∨ (0x9400 ≤ i ∧ i < 0x9431) then 49
  else if (0xA100 ≤ i ∧ i < 0xA10C) ∨ (0xA200 ≤ i ∧ i < 0xA20C) then 12
  else if 0xA300 ≤ i ∧ i < 0xA621 then 801
  else 0

/-- The key of an entry in the dictionary store. -/
def okey (i s : Nat) : Nat := i * 256 + s

/-- The default of an entry. -/
def odDefault (k : Nat) : Nat :=
  match entryOf (k / 256) (k % 256) with
  | some e => e.dflt
  | none => 0

/-! ## Lists of indices -/

/-- The index blocks of the tables, as (first, number), ascending (R396). -/
def indexBlocks : List (Nat × Nat) :=
  [(0x1001, 1), (0x1010, 3), (0x1020, 1), (0x1040, 2), (0x1300, 1), (0x1320, 1), (0x1330, 1), (0x1340, 24),
   (0x2001, 3), (0x2008, 1), (0x2100, 64), (0x2200, 64), (0x2300, 16), (0x2400, 2), (0x2600, 4),
   (0x3000, 4), (0x3010, 3), (0x3020, 1), (0x3022, 1), (0x3030, 1), (0x3100, 5), (0x3200, 4), (0x3210, 2),
   (0x3400, 768), (0x3700, 768), (0x3A00, 768)] ++
  [(0x4001, 4), (0x4010, 1), (0x4020, 1), (0x4030, 1), (0x4100, 64), (0x4200, 64), (0x4400, 2),
   (0x5001, 3), (0x5100, 32), (0x5200, 32), (0x5400, 8), (0x6001, 2), (0x6100, 8), (0x6200, 8),
   (0x7001, 1), (0x7010, 3), (0x7020, 1), (0x7030, 3), (0x7040, 3), (0x7050, 2), (0x7100, 95), (0x7200, 13),
   (0x8001, 2), (0x8010, 1), (0x8020, 2), (0x8030, 1)] ++
  [(0x9001, 1), (0x9010, 1), (0x9020, 1), (0x9100, 49), (0x9200, 1), (0x9400, 49), (0xA001, 1), (0xA010, 1),
   (0xA020, 1), (0xA040, 1), (0xA050, 1), (0xA100, 12), (0xA200, 12), (0xA300, 801), (0xB001, 1), (0xB010, 2),
   (0xB013, 1), (0xB020, 3), (0xB030, 2), (0xB040, 2), (0xB060, 5), (0xB070, 4), (0xB080, 1), (0xC000, 3),
   (0xC010, 1), (0xC020, 2), (0xC100, 1), (0xC102, 2)]

/-- The configuration entries of one object, without subindex 0x00 of a record (R399). -/
def configSubs (i : Nat) : List (Nat × Entry) :=
  match objectOf i with
  | some (.single e) => if e.config then [(0, e)] else []
  | some (.record es) => es.filter (fun p => p.2.config)
  | none => []

/-- Every configuration entry, ascending (R398, R399): index, subindex, entry. -/
def configEntries : List (Nat × Nat × Entry) :=
  (indexBlocks.map (fun b => ((upTo b.2).map (fun j =>
    (configSubs (b.1 + j)).map (fun p => (b.1 + j, p.1, p.2)))).flatten)).flatten

/-! ## When a write takes effect -/

/-- The boundary at which the written value of an entry takes effect. -/
inductive When where
  | now | frame | intake | period
  deriving DecidableEq, Repr

/-- Gangway frame: R35, R95, R200, R240, R389.  Intake frame: R148, R223.  Budget period: R252, R255, R256, R489.
Every other entry: at once. -/
def effectOf (k : Nat) : When :=
  let i := k / 256
  if i = 0x1300 ∨ (0x1340 ≤ i ∧ i < 0x1358) ∨ i = 0x3000 ∨ (0x3010 ≤ i ∧ i < 0x3013) ∨ i = 0xA020 ∨ i = 0xB030 ∨
    i = 0xB031 then .frame
  else if i = 0x3002 ∨ (0x3400 ≤ i ∧ i < 0x3700) then .intake
  else if k = okey 0x4001 1 ∨ k = okey 0x4001 3 ∨ i = 0x4002 ∨ (0x4100 ≤ i ∧ i < 0x4140) ∨ i = 0x7010 then .period
  else .now

/-! ## Limits of one value -/

/-- The value obeys the type (R8, R12). -/
def typeOk (t : Ty) (v : Nat) : Bool :=
  match t with
  | .q32 => decide (v < 2 ^ 37)
  | .bool => decide (v ≤ 1)
  | t => decide (v < 2 ^ (8 * t.bytes))

/-- The value as a number for the limits of its entry. -/
def valueInt (t : Ty) (v : Nat) : Int :=
  match t with
  | .i32 => signed 32 v
  | .q32 => (q32Of v).v
  | _ => (v : Int)

/-- Item `j` of `size` bytes in a BLOB. -/
def item (size : Nat) (v : Blob) (j : Nat) : Nat := bytesAt v (size * j) size

/-- No two mapped landings share a stream and row, and no reserved bit is set (R223). -/
def landingMapOk (v : Blob) : Bool :=
  let es := (upTo 6144).map (item 2 v)
  let mapped := (es.filter (fun e => bitAt e 15)).map (fun e => fld e 0 13)
  es.all (fun e => decide (fld e 13 2 = 0)) && mapped.all (fun e => decide (fld e 0 10 < 768)) && nodupFast mapped
where
  /-- no repeats, by marking bits of a number -/
  nodupFast (l : List Nat) : Bool :=
    (l.foldl (fun (p : Bool × Nat) e => (p.1 && !bitAt p.2 e, p.2 ||| 2 ^ e)) (true, 0)).1

/-- The static limits of an entry's value. -/
def limitsOk (i s : Nat) (e : Entry) (v : Nat) : Bool :=
  typeOk e.ty v &&
  (match e.ty with
   | .blob _ | .digest => true
   | t => decide (e.lo ≤ valueInt t v ∧ valueInt t v ≤ e.hi)) &&
  (if i = 0x1010 then decide (0x0600 ≤ v ∧ v ≠ 0x8100 ∧ v ≠ 0x88A8)
   else if i = 0x1011 then bitAt v 0
   else if 0x1340 ≤ i ∧ i < 0x1358 ∧ s = 2 then decide (v = 0xFF ∨ (0x1350 ≤ i ∧ v < 8))
   else if i = 0x2003 ∧ s = 1 then decide (0 < (q32Of v).v ∧ (q32Of v).v ≤ 2 ^ (q32Of v).s)
   else if 0x2100 ≤ i ∧ i < 0x2140 then
     (if s = 1 ∨ s = 2 ∨ s = 4 then sourceOk v (decide (s = 4))
      else if s = 12 ∨ s = 13 then decide (0 < (q32Of v).v)
      else if s = 16 then decide (v < 16 ∨ v = 0xFF)
      else if s = 17 then decide (v < 4 ∨ v = 0xFF)
      else true)
   else if 0x2400 ≤ i ∧ i < 0x2402 then decide (v < 64 ∨ (0x100 ≤ v ∧ v < 0x110) ∨ v = 0xFFFF)
   else if 0x2600 ≤ i ∧ i < 0x2604 ∧ s = 4 then decide ((q32Of v).v ≤ 2 ^ (q32Of v).s)
   else if i = 0x3002 then landingMapOk v
   else if i = 0x4001 ∧ s = 4 then decide (v = 0 ∨ 100 ≤ v)
   else if i = 0x4002 then (upTo 6144).all (fun j => decide (item 1 v j < 64 ∨ item 1 v j = 0xFF))
   else if 0x5100 ≤ i ∧ i < 0x5120 ∧ s = 2 then decide (v % 4 = 0)
   else if 0x5100 ≤ i ∧ i < 0x5120 ∧ s = 4 then decide (v < 8 ∨ v = 0xFF)
   else if 0x5100 ≤ i ∧ i < 0x5120 ∧ s = 9 then decide (v < 24 ∨ v = 0xFF)
   else if 0x6100 ≤ i ∧ i < 0x6108 ∧ s = 11 then decide (10 ≤ v / 65536 ∧ v / 65536 ≤ 7200)
   else if i = 0x9001 then (upTo 48).all (fun j => decide (item 1 v j ≤ 2))
   else if i = 0x9010 then (upTo 6144).all (fun j => decide (fld (item 8 v j) 48 16 = 0))
   else if i = 0xA020 then (upTo 64).all (fun j => decide (item 1 v j < 144 ∨ item 1 v j = 0xFF))
   else true)
where
  /-- A source code of R286; 0x2004 feeds forward only. -/
  sourceOk (v : Nat) (ff : Bool) : Bool :=
    decide (v = 0 ∨ (0x1000 ≤ v ∧ v < 0x1180) ∨ (0x2000 ≤ v ∧ v ≤ 0x2003) ∨ (v = 0x2004 ∧ ff) ∨ v = 0x2005 ∨
      (0x3000 ≤ v ∧ v < 0x3040 ∧ v % 8 < 6) ∨ (0x4000 ≤ v ∧ v < 0x4040) ∨ (0x4100 ≤ v ∧ v < 0x4110) ∨
      (0x5000 ≤ v ∧ v < 0x5010))

end Sys2Proof.Machine
end

