-- ==== Sys2Proof/Machine/State.lean ====
section
/-! DEFINITION. The state of the DXC-960: every register, buffer, queue, counter, mode and pin the specification gives
the module, as plain data, with the queue of waiting commands.

Dictionary objects that software writes, and the counters, stand in one store `State.od`, keyed by
index × 256 + subindex; every other status object of the dictionary is computed from the typed fields below. -/

namespace Sys2Proof.Machine

open Sys2Proof

/-! ## Why a step can stop -/

/-- No command of the specification stops the module's model: every command's effect is a next state.  The type has
no constructor. -/
inductive Fault where
  deriving DecidableEq, Repr

/-- Why a command has no meaning. -/
inductive Refusal where
  /-- Raised by the dispatch alone, for a command whose meaning is not written yet.  Safe: the model stops. -/
  | notModelled (mnemonic : String)
  deriving DecidableEq, Repr

/-! ## Memory -/

/-- A memory under the code of R202.  `cells` are the data bytes as `(address, byte)` in canonical form (addresses
strictly rising, no zero byte listed: an unlisted byte is zero, R207, R208).  `errs` gives, for the byte address of a
word, the bits of its stored codeword that differ from a good codeword.  `valid` lists the units whose valid bit is
set, rising: 4 KiB blocks of HBM (R208), words of SRAM (R207).  `votes` gives, for a unit, which of the three stored
copies of its valid bit differ from it. -/
structure Mem where
  cells : List Host.Cell := []
  errs : Tab Nat := []
  valid : List Nat := []
  votes : Tab Nat := []
  deriving DecidableEq, Repr

/-! ## Operating state -/

/-- The module operating states of R26. -/
inductive Mode where
  | off | boot | standbyCold | takeover | active | degraded | safeHold | shutdownLatched
  deriving DecidableEq, Repr

/-- What the module sends out in answer to one command (the block's output pins; the model's own record of them). -/
inductive Output where
  /-- the outcome of a mailbox request (R355): status, and for a read the size and value -/
  | answer (via : Via) (status len : Nat) (value : Blob)
  /-- a frame on a field network port: destination and source address, EtherType, length of the payload, and the payload,
  the 20-byte DAP header and its data (R360, R361) -/
  | dap (port dest src ether len : Nat) (payload : Blob)
  /-- data of a BAR0 read -/
  | bar0 (value : Nat)
  /-- completion of a BAR2 read: the EP bit and the data (R213) -/
  | bar2 (poisoned : Bool) (len : Nat) (data : Blob)
  /-- an MSI-X message: vector, message address, message data (R359) -/
  | msix (vector addr data : Nat)
  /-- a Gangway broadcast section, bit 0 first (R376) -/
  | broadcast (bits : Nat)
  /-- a Gangway management request section (R376, R380) -/
  | mgmtRequest (bits : Nat)
  /-- one berth's downstream window: 76-byte record slot and 22-byte message slot (R319) -/
  | window (link berth : Nat) (record msg : Blob)
  /-- the start of a downstream crossing: marker and crossing number (R319) -/
  | crossing (link : Nat) (header : Blob)
  /-- a frame on a cell monitor port: type, sequence, payload length, payload, CRC-16 (R423) -/
  | cellFrame (port typ seq len : Nat) (payload : Blob) (crc : Nat)
  /-- a frame queued on a peer link: type, length in bytes, payload (R372) -/
  | peer (link typ len : Nat) (payload : Blob)
  /-- a pulse on the module's own lease line (R53) -/
  | leasePulse
  /-- SS_RESET_N driven low for 10 µs (R58) -/
  | storeReset
  /-- a write to the shelf state store (R514) -/
  | storeWrite (addr len : Nat) (data : Blob)
  deriving DecidableEq, Repr

/-! ## The module log -/

/-- A log entry (R403): the 12 parameter bytes as one number. -/
structure LogEntry where
  seq : Nat
  frame : Nat
  event : Nat
  state : Nat
  params : Blob
  deriving DecidableEq, Repr

/-- The module log (R402 to R408, R531). -/
structure Log where
  /-- entries of the ring, newest first, at most 2,048 of 32 bytes. R402 -/
  ring : List LogEntry := []
  /-- sequence of the next entry, 64 bits. R402 -/
  next : Nat := 1
  /-- entries written in the present budget period. R406 -/
  inPeriod : Nat := 0
  /-- entries written in the present second per limited source (code × 4096 + source). R531 -/
  perSecond : Tab Nat := []
  /-- the second the limits count in. R531 -/
  second : Nat := 0
  deriving DecidableEq, Repr

/-! ## Input, straps, boot and non-volatile records -/

/-- An image in one stage area of a bank of the image store (R84, R88). -/
structure Image where
  /-- the 256-byte header. R84 -/
  header : Blob := 0
  /-- the body bytes written -/
  body : Blob := 0
  /-- opened by a transfer and not marked for trial: never run. R88 -/
  unmarked : Bool := false
  deriving DecidableEq, Repr

/-- A record written to one of two alternating NVR slots (R461): its sequence number and contents. -/
structure NvrSlot where
  /-- something has been written here and the slot's magic matches. R461 -/
  present : Bool := false
  seq : Nat := 0
  data : Blob := 0
  /-- CRC-32 of the slot. R90, R461 -/
  crc : Nat := 0
  deriving DecidableEq, Repr

/-- The records kept in two alternating NVR slots. -/
inductive NvrKind where
  | keys | floors | bundle | se | fault
  deriving DecidableEq, Repr

/-- An NVR slot write in progress or waiting: which record, its sequence number, its contents. -/
structure NvrWrite where
  kind : NvrKind
  seq : Nat
  data : Blob
  deriving DecidableEq, Repr

/-- The non-volatile record memory and the image store. -/
structure Nvr where
  /-- key table slots: 4 key records of 144 bytes, slot order, zeros when empty. R90 -/
  keys0 : NvrSlot := {}
  keys1 : NvrSlot := {}
  /-- security-version floors, 3 × U32. R86, R89 -/
  floors0 : NvrSlot := {}
  floors1 : NvrSlot := {}
  /-- stored configuration bundles, 65,535 bytes. R100 -/
  bundle0 : NvrSlot := {}
  bundle1 : NvrSlot := {}
  /-- SE learned-value records, 512 bytes. R462 -/
  se0 : NvrSlot := {}
  se1 : NvrSlot := {}
  /-- fault records, 256 bytes. R482 -/
  fault0 : NvrSlot := {}
  fault1 : NvrSlot := {}
  /-- the slot write in progress. R45, R461 -/
  writing : Option NvrWrite := none
  /-- slot writes accepted and not started. R45, R482 -/
  waiting : List NvrWrite := []
  /-- the last-state byte. R31 -/
  lastState : Nat := 0
  /-- image store, keyed bank × 4 + stage, bank 0 is A. R88 -/
  images : Tab Image := []
  /-- active bank of stages 1, 2, 3: bit stage − 1 set for bank B. R86 -/
  activeBank : Nat := 0
  /-- stages marked for trial, bit stage − 1. R87 -/
  trial : Nat := 0
  deriving DecidableEq, Repr

/-- 56 V input, slot signals, boot and identity. -/
structure Power where
  /-- hot-swap switch closed. R41 -/
  hotSwap : Bool := false
  /-- MATE_N high acted on. R42 -/
  mateHigh : Bool := false
  /-- the input lies in its operating range. R44 -/
  inRange : Bool := false
  /-- INPUT_LOW. R44 -/
  inputLow : Bool := false
  /-- 10 µs ticks the input has stayed below 48 V. R44 -/
  lowTicks : Nat := 0
  /-- the input has left its range and OFF waits for an NVR write. R45 -/
  leaving : Bool := false
  /-- last input voltage, mV. R486 -/
  vin : Nat := 0
  /-- last input current, mA. R486 -/
  iin : Nat := 0
  /-- sums of the 2 µs products of this millisecond, µW·slots, and their count. R486 -/
  powerAcc : Nat := 0
  powerCount : Nat := 0
  /-- 1 ms mean input power, W. R486 -/
  powerMean : Nat := 0
  /-- energy below 1 µJ carried to the module energy counter. R272 -/
  energyFrac : Nat := 0
  /-- output gate open. R49 -/
  gate : Bool := false
  /-- PEER_OK. R54 -/
  peerOk : Bool := false
  /-- filtered FLOW_OK. R56 -/
  flowOk : Bool := false
  /-- FLOW_LOST. R499 -/
  flowLost : Bool := false
  /-- module time, µs, of the last rising edge of FLOW_OK or its first sample. R500 -/
  flowSince : Nat := 0
  /-- SLOT_ID sampled at boot. R50 -/
  slotId : Nat := 0
  /-- SLOT_ID present on the straps. R51 -/
  straps : Nat := 0
  /-- the lease-line watch has ended without a driver. R52 -/
  watchDone : Bool := false
  /-- steps 1 to 8 of start-up are complete. R81 -/
  servicesUp : Bool := false
  /-- a module restart after an image activation is due at the next frame boundary, with its strap samples. R30, R88 -/
  restart : Option (List Nat) := none
  /-- stopped in BOOT. R29 -/
  bootStopped : Bool := false
  /-- boot stage reached, OD 0xB001.01. R104 -/
  bootStage : Nat := 0
  /-- boot result, OD 0xB001.02. R104 -/
  bootResult : Nat := 0
  /-- banks used, OD 0xB001.03. R104 -/
  banksUsed : Nat := 0
  /-- first failed condition of R85, OD 0xB001.04. R104 -/
  failedCond : Nat := 0
  /-- last state, OD 0xB001.05. R31 -/
  lastState : Nat := 0
  /-- last fault cause, OD 0xB001.06. R482 -/
  lastFault : Nat := 0
  /-- boot time, µs, OD 0xB001.07. R104 -/
  bootTime : Nat := 0
  /-- frame number at the start of the ROM. R80 -/
  romFrame : Nat := 0
  /-- boot watchdog expiries within this power-on. R80 -/
  bootExpiries : Nat := 0
  /-- module time, µs, at which the management-processor watchdog's count last restarted. R80 -/
  kickAt : Nat := 0
  /-- a stage-3 image was marked for trial when this boot began. R87 -/
  trial3 : Bool := false
  /-- the key table entries verified at this boot, bit slot − 1. R90 -/
  keysVerified : Nat := 0
  /-- bundle accepted and its NVR write not yet complete, or complete and not yet applied. R100 -/
  bundleWaiting : Option Blob := none
  /-- the accepted bundle's NVR write has completed. R100 -/
  bundleStored : Bool := false
  /-- image transfer: stage open, 0 for none. R88 -/
  imageStage : Nat := 0
  /-- image transfer: body bytes accepted. R88 -/
  imageBytes : Nat := 0
  /-- random number drawn as the present challenge, 64 bits. R96 -/
  challenge : Nat := 0
  /-- lease-line pulses discarded. R53 -/
  pulsesDiscarded : Nat := 0
  /-- SRAM macros of the SIOD that have been written since power-on, bit m − 768. R207, R210 -/
  siodWritten : Nat := 0
  deriving DecidableEq, Repr

/-- Clock tree and compute operating point. -/
structure Clk where
  /-- RC oscillator running. R71 -/
  rc : Bool := false
  /-- root oscillator valid. R73 -/
  root : Bool := false
  /-- compute, HBM, SerDes and I/O PLL locked. R71 -/
  compute : Bool := false
  hbm : Bool := false
  serdes : Bool := false
  io : Bool := false
  /-- applied root compensation, 0.001 ppm. R72 -/
  rootComp : Int := 0
  /-- present operating point, 0 to 7. R75 -/
  point : Nat := 6
  /-- operating point being slewed to. R76 -/
  target : Option Nat := none
  /-- a target that waits for the slew in progress. R76 -/
  nextTarget : Option Nat := none
  /-- compute PLL feedback divider, units of 6.25 MHz. R76 -/
  divider : Nat := 256
  /-- core rail setpoint voltage of the point in effect, mV, before trim. R75 -/
  vddC : Nat := 800
  /-- SYNC_IN valid. R55 -/
  syncIn : Bool := false
  /-- SYNC_IN edge position in its frame, ns. R471 -/
  syncPos : Nat := 0
  deriving DecidableEq, Repr

/-! ## Host port and field network -/

/-- The PCI Express endpoint's registers. -/
structure HostPort where
  /-- link rate and width, OD 0x1001.03 and .04. R389 -/
  linkRate : Nat := 0
  linkWidth : Nat := 0
  /-- function in D3hot. R353 -/
  d3hot : Bool := false
  /-- MBX_CTRL BUSY, DONE and STATUS. R355 -/
  busy : Bool := false
  done : Bool := false
  status : Nat := 0
  /-- MBX_REQ: OP and SIGNED. R355 -/
  op : Nat := 0
  sign : Bool := false
  /-- MBX_ADDR: INDEX and SUBINDEX. R355 -/
  index : Nat := 0
  sub : Nat := 0
  /-- MBX_LENGTH, 32 bits. R355 -/
  length : Nat := 0
  /-- mailbox data area, 64 KiB. R355 -/
  area : Blob := 0
  /-- signed-request trailer, 104 bytes. R409 -/
  trailer : Blob := 0
  /-- INT_STATUS and INT_ENABLE, 16 bits each. R359 -/
  intStatus : Nat := 0
  intEnable : Nat := 0
  /-- INT_MAP_n as difference from its reset value n: vector of cause n. R359 -/
  intMap : Tab Nat := []
  /-- MSI-X table, 4 KiB; all vectors masked at reset. R359 -/
  msix : List Host.Cell := []
  /-- MSI-X pending bits, 256. R359 -/
  pba : Nat := 0
  /-- latched upper halves of FRAME, LOG_NEXT and LOG_OLDEST. R411 -/
  latchFrame : Option Nat := none
  latchNext : Option Nat := none
  latchOldest : Option Nat := none
  /-- LOG_LOST of MODULE_STATUS. R412 -/
  logLost : Bool := false
  deriving DecidableEq, Repr

/-- An open DAP write transfer (R364). -/
structure Transfer where
  port : Nat
  mac : Nat
  tag : Nat
  signed : Bool
  index : Nat
  sub : Nat
  len : Nat
  data : Blob
  got : Nat
  deriving DecidableEq, Repr

/-- The kept final answer of a client's last transfer (R366). -/
structure Kept where
  port : Nat
  mac : Nat
  tag : Nat
  /-- true for the answer of a write -/
  write : Bool
  status : Nat
  len : Nat
  value : Blob
  /-- what its header echoes: index, subindex, SIGNED, the declared length, and for a write the stream bytes accepted. R361 -/
  index : Nat
  sub : Nat
  signed : Bool
  declared : Nat
  accepted : Nat
  /-- module time, µs, at which it was given -/
  at_ : Nat
  deriving DecidableEq, Repr

/-- The field network. -/
structure FieldNet where
  /-- open write transfers, at most 8. R367 -/
  open_ : List Transfer := []
  /-- kept answers. R366 -/
  kept : List Kept := []
  /-- link status of FN-A and FN-B. R358 -/
  linkA : Bool := false
  linkB : Bool := false
  /-- digest and generation as last compared, and a change that has not been published. R370 -/
  pubDigest : Blob := 0
  pubGeneration : Nat := 0
  pubDue : Bool := false
  /-- module time, µs, of the last change-driven publication. R370 -/
  pubTime : Nat := 0
  deriving DecidableEq, Repr

/-! ## Gangway -/

/-- A management operation waiting for a node (R380). -/
structure MgmtOp where
  op : Nat
  data : Nat
  deriving DecidableEq, Repr

/-- A Gangway node as the module knows it. -/
structure Node where
  /-- in service. R382 -/
  inService : Bool := false
  /-- has left service since it was last in it. R382, R389 -/
  left : Bool := false
  /-- enabled. R382 -/
  enabled : Bool := false
  /-- read-back of words 10, 11: not read since the last event of R382, and differing -/
  readBack10 : Bool := false
  readBack11 : Bool := false
  differs : Bool := false
  /-- consecutive missing due replies. R379 -/
  missRun : Nat := 0
  /-- a reply has been received in this frame. R300 -/
  fresh : Bool := false
  /-- measurement words as received, 16 × U16, and word 0 as the signal it became when it arrived. R381 -/
  words : Blob := 0
  power : Int := 0
  /-- consecutive failed READs of indices 0 to 3. R379 -/
  failRun : Tab Nat := []
  /-- word 0 has been used: the node was admitted with a measurement. R388 -/
  word0 : Bool := false
  /-- status bits of the last reply, OD .07. R389 -/
  lastStatus : Nat := 0
  /-- operations waiting, oldest first. R380 -/
  ops : List MgmtOp := []
  /-- index of the next READ. R380 -/
  nextIndex : Nat := 0
  deriving DecidableEq, Repr

/-- The Gangway. -/
structure Gangway where
  /-- broadcasts are being sent, DRIVING. R385 -/
  driving : Bool := false
  /-- HOLD of the broadcast. R376 -/
  hold : Bool := false
  /-- nodes 0 to 23. R374 -/
  nodes : Tab Node := []
  /-- position in the reply rotation. R378 -/
  position : Nat := 0
  /-- reply group of the present frame. R387 -/
  group : Nat := 0
  /-- node addressed in the present frame, and the operation and index sent. R387 -/
  mgmtNode : Option Nat := none
  mgmtOp : MgmtOp := ⟨0, 0⟩
  mgmtIndex : Nat := 0
  /-- the five ratios of the last broadcast. R377 -/
  ratios : List Int := [0, 0, 0, 0, 0]
  /-- frames in a row with a read-back difference. R386 -/
  contention : Nat := 0
  /-- a driven bit of the present frame reads back otherwise. R386 -/
  readBack : Bool := false
  /-- GANGWAY_STATUS [19:16]: MISS, CONTENTION, NODE_CHANGE, MGMT_FAIL seen. R387 -/
  missSeen : Bool := false
  contentionSeen : Bool := false
  changeSeen : Bool := false
  mgmtFailSeen : Bool := false
  /-- storage converters in service when this frame began: the swing limits rest on them. R22 -/
  convs : Nat := 0
  deriving DecidableEq, Repr

/-! ## Forecast records -/

/-- A step event (R228, R233): time in ns after the close of the record's frame, change in per-unit. -/
structure Event where
  ident : Nat
  state : Nat
  time : Nat
  change : Q32
  deriving DecidableEq, Repr

/-- A stream result record (R228). -/
structure Result where
  stream : Nat
  epoch : Nat
  frame : Nat
  /-- 21 bins -/
  bins : List Q32
  events : List Event
  whey : Q32
  /-- the EMIT byte count, and whether a reserved bit, a state or a time breaks R229 -/
  malformed : Bool
  deriving DecidableEq, Repr

/-- A merged forecast record (R235). -/
structure Merged where
  frame : Nat
  profile : Nat
  flags : Nat
  contributing : Nat
  missing : Nat
  g : Q32
  t : Q32
  s0 : Q32
  s1 : Q32
  step : Nat
  stepTime : Nat
  residual : Q32
  f : List Q32
  y0 : Q32
  events : List Event
  /-- whey entry of stream s: level, start -/
  whey : Tab (Nat × Nat)
  deriving DecidableEq, Repr

/-! ## Control engine -/

/-- The terms of a loop's output beside its integrator, at the accumulator shift (R285, R293). -/
structure Terms where
  p : Int := 0
  f : Int := 0
  rc : Int := 0
  deriving DecidableEq, Repr

/-- A loop slot. -/
structure Loop where
  /-- 0 OFF, 1 OPEN, 2 CLOSED. R283 -/
  mode : Nat := 0
  /-- mode command waiting for the run frame: 0 to 2 as `mode`, 3 the opening by a following error. R291, R308 -/
  command : Option Nat := none
  /-- the loop counts as closed. R290 -/
  counted : Bool := false
  /-- integrator, 72 bits at shift 61. R285 -/
  integ : Int := 0
  /-- own output of the last run, after the limiter. R285 -/
  out : Int := 0
  /-- last delivered output, own or tracked. R289, R293, R314 -/
  delivered : Int := 0
  /-- ramped set-point. R287 -/
  sp : Int := 0
  /-- the ramp starts at the measured value at the next closed run. R287 -/
  fresh : Bool := false
  /-- sp − m of the last run. R285 -/
  err : Int := 0
  /-- input of the last run. R285, R308 -/
  meas : Int := 0
  /-- Kp e, Kff ff and rc of the last run, at shift 61. R293 -/
  terms : Terms := {}
  /-- transition limiter active; active in the last run. R288 -/
  limiter : Bool := false
  limited : Bool := false
  /-- the set-point ramp is moving. R287 -/
  ramping : Bool := false
  /-- frozen under R309, INPUT_STALE -/
  stale : Bool := false
  /-- FOLLOW_ERR. R308 -/
  followErr : Bool := false
  /-- following-error timer, µs, and whether its event has been taken. R308 -/
  timer : Nat := 0
  fired : Bool := false
  /-- winner of its group. R293 -/
  winner : Bool := false
  /-- integrator at a limit, output at a limit, in the last run. R314 -/
  intLimit : Bool := false
  outLimit : Bool := false
  /-- value to track at the next run. R293 -/
  track : Option Int := none
  /-- manual output used at the last open run. R288 -/
  manual : Int := 0
  /-- manual output that an OPEN command sets, until the frame is kept. R291 -/
  newManual : Option Int := none
  /-- runs saturated, at an integrator limit, at an output limit; following errors; U32 each. R282, R308 -/
  satRuns : Nat := 0
  intRuns : Nat := 0
  outRuns : Nat := 0
  followCount : Nat := 0
  deriving DecidableEq, Repr

/-- An arbitration group (R293, R294). -/
structure Group where
  winner : Nat := 0xFF
  out : Int := 0
  deriving DecidableEq, Repr

/-- An output channel (R295). -/
structure Channel where
  value : Int := 0
  hold : Bool := false
  clamps : Nat := 0
  lastClamp : Nat := 0
  deriving DecidableEq, Repr

/-- A repetitive controller (R304 to R307). -/
structure Rc where
  /-- table entries other than zero, 2^20 of 16 bits. R304 -/
  table : Tab Int := []
  /-- present index. R306 -/
  index : Nat := 0
  aligned : Bool := false
  learning : Bool := false
  /-- phase nudge and set index waiting for the next run. R307 -/
  nudge : Option Int := none
  setIndex : Option Nat := none
  /-- table generation, U32. R516 -/
  generation : Nat := 0
  /-- slices copied under the generation. R516 -/
  mask : Nat := 0
  /-- words of the table's 2 MiB that have been written since SIOD power-on. R207, R210 -/
  valid : List Nat := []
  deriving DecidableEq, Repr

/-- The part of the CE that a frame changes and a branch copies (R301). -/
structure CeDyn where
  loops : Tab Loop := []
  groups : Tab Group := []
  grid : Channel := {}
  storage : Channel := {}
  /-- filter of the slow part. R296 -/
  ys : Int := 0
  rcs : Tab Rc := []
  /-- per-node references, per-unit at shift 30. R297 -/
  refs : Tab Int := []
  /-- the part of the storage value given to each storage channel. R297 -/
  parts : Tab Int := []
  /-- G or G_sub used in the frame before. R299 -/
  gLast : Int := 0
  /-- the frame ran plain regulation. R299 -/
  plain : Bool := false
  /-- sticky bits raised by the frame: 0 FOLLOW, 1 STALE, 2 CLAMP, 3 SAT. R313 -/
  seen : Nat := 0
  /-- INPUT_STALE entries raised by the frame: loop, source. R309 -/
  staleLog : List (Nat × Nat) := []
  deriving DecidableEq, Repr

/-- The control engine. -/
structure Ce where
  /-- loops run or hold under R278 -/
  inService : Bool := false
  /-- references repeated under R310 -/
  holding : Bool := false
  /-- state kept at the last boundary. R303 -/
  kept : CeDyn := {}
  /-- branches waiting for selection. R301 -/
  branchA : Option CeDyn := none
  branchB : Option CeDyn := none
  /-- the last selection kept branch B. R313 -/
  lastB : Bool := false
  /-- sticky bits of CE_FRAME_STATUS [19:16]. R313 -/
  followSeen : Bool := false
  staleSeen : Bool := false
  clampSeen : Bool := false
  satSeen : Bool := false
  /-- the record committed for this frame. R298 -/
  record : Option Merged := none
  /-- the newest record taken since SIOD power-on. R298 -/
  newest : Option Merged := none
  /-- the step named: identifier, module time, ns, and change. R302 -/
  stepId : Nat := 0
  stepAt : Nat := 0
  stepChange : Int := 0
  /-- steps that have been named and are not yet past: module time, ns, and confirmed since first named. R302 -/
  named : Tab (Nat × Bool) := []
  /-- L_meas at the last snapshot before the step time, and how far it had moved from there at the last snapshot, if the step
  time had passed. R302 -/
  lBefore : Option Int := none
  stepMove : Option Int := none
  /-- L_meas at the last snapshot, and its staleness. R300 -/
  lMeas : Int := 0
  lStale : Bool := true
  /-- L_meas of the frame last kept. R303 -/
  lKept : Int := 0
  /-- frame and L_meas of the last eight snapshots, newest first. R302 -/
  lPast : List (Nat × Int) := []
  /-- the load passed to the merge, and frames since the last. R232 -/
  toMerge : Option Int := none
  /-- a change of effective profile waits for the change between forecast use and plain regulation. R288 -/
  profileChanged : Bool := false
  /-- restored loops hold until a node returns a measurement. R311 -/
  awaitMeas : Bool := false
  /-- a CE restart is restored and waits for its frame boundary. R311 -/
  restored : Bool := false
  deriving DecidableEq, Repr

/-! ## Tensor engine -/

/-- A core (R105, R137, R144, R192). -/
structure Core where
  /-- 0 off, 1 self-test, 2 running, 3 fenced. R144 -/
  st : Nat := 0
  /-- fencing causes, first first. R137 -/
  causes : List Nat := []
  /-- SAT_SEEN, NAN_SEEN, ACC_SAT_SEEN, B4_EXC_SEEN, BOUNDS_SEEN. R144, R192 -/
  satSeen : Bool := false
  nanSeen : Bool := false
  accSeen : Bool := false
  b4Seen : Bool := false
  boundsSeen : Bool := false
  /-- a lower-class command is suspended at a tile boundary. R133 -/
  yielded : Bool := false
  /-- suspended under R267 -/
  suspended : Bool := false
  /-- fence whose effect waits for the intake boundary. R138 -/
  newlyFenced : Bool := false
  /-- program whose command the core has issued last. R192 -/
  issuing : Option ProgRef := none
  /-- commands that each batch of the core has run in a run frame: model key to the frame and a bit for each index. R150 -/
  batchAt : Tab (Nat × Nat) := []
  /-- damaged weights words that a command of a batch has read already: model, frame, index, offset in the section. R150 -/
  batchSeen : List (Nat × Nat × Nat × Nat) := []
  /-- what a batch's streams have read of the shared words: model, frame, index, first byte and bytes; no bytes for the
  command itself. R150 -/
  batchRead : List (Nat × Nat × Nat × Nat × Nat) := []
  /-- module time, µs, of the newest fault that fenced the core. R140 -/
  fencedAt : Nat := 0
  /-- the sequencer has written its reserve. R176, R207 -/
  reserveOn : Bool := false
  /-- errors in the vat-mode weights of the core's copies, key model × 2^32 + offset in the section. R213 -/
  vatErrs : Tab Nat := []
  /-- blocks of those weights whose valid bit is lost: model, block of the section. R208 -/
  vatGone : List (Nat × Nat) := []
  deriving DecidableEq, Repr

/-- The place of one model copy on a core (R176, R177). -/
structure Copy where
  model : Nat
  secure : Bool
  /-- bytes of the weights section in local SRAM, cluster SRAM and HBM -/
  loc : Nat
  clus : Nat
  hbm : Nat
  /-- whole cluster regions that hold the cluster part, in the order of the section -/
  regions : List Nat
  level : Nat
  /-- every part has found room -/
  ok : Bool
  deriving DecidableEq, Repr

/-- What the loader has laid out on a core: its model copies in batch order, and the 1 MiB regions of local SRAM that
held each world when it did so (R176, R177). -/
structure Layout where
  copies : List Copy := []
  openRooms : List Nat := []
  secureRooms : List Nat := []
  deriving DecidableEq, Repr

/-- A buffer-table entry (R175). -/
structure Buf where
  kind : Nat
  write : Bool
  offset : Nat
  len : Nat
  deriving DecidableEq, Repr

/-- A loaded, host or ripening image, parsed (R174). -/
structure Model where
  ident : Nat := 0
  deadline : Nat := 0
  weightsLen : Nat := 0
  progLen : Nat := 0
  stateLen : Nat := 0
  scratchLen : Nat := 0
  rows : Nat := 1
  bufs : List Buf := []
  /-- the program, 32 bytes per command. R152 -/
  prog : Blob := 0
  /-- the weights section -/
  weights : Blob := 0
  /-- the whole image and its length, as recorded. R184 -/
  image : Blob := 0
  imageLen : Nat := 0
  /-- the 16-byte load request. R181 -/
  request : Blob := 0
  /-- world of the load's regions. R177 -/
  secure : Bool := false
  /-- clusters whose stacks hold the master copies, and those found bad. R183, R213 -/
  masters : List Nat := []
  badMasters : List Nat := []
  /-- errors in the master copies, key stack × 2^32 + offset in the image. R213 -/
  masterErrs : Tab Nat := []
  /-- blocks of the master copies whose valid bit is clear: stack, block of the image. R208, R210 -/
  masterGone : List (Nat × Nat) := []
  /-- recorded in the model area; commit order of its entry. R184, R518 -/
  recorded : Bool := false
  order : Nat := 0
  deriving DecidableEq, Repr

/-- A program in execution (R149, R151). -/
structure Run where
  /-- module of the program: key of its model in `Te.models`, or its own image -/
  image : Model := {}
  core : Nat := 0
  /-- run frame f of R130 -/
  frame : Nat := 0
  /-- placement epoch carried. R188 -/
  epoch : Nat := 0
  /-- index of the next command. R150 -/
  index : Nat := 0
  /-- scalar registers S0 to S15, 32 bits. R151 -/
  regs : Tab Nat := []
  /-- SCRATCH area, with the free-value key of its undefined contents. R158 -/
  scratch : Mem := {}
  scratchKey : Nat := 0
  /-- 0 running, 1 ended, 2 CMD_BOUNDS, 3 STATE, 4 discarded -/
  status : Nat := 0
  /-- commands completed. R191 -/
  completed : Nat := 0
  /-- waiting in FENCE, in a BARRIER identifier, for a toll credit, in a HINT hold. R192 -/
  fenceWait : Bool := false
  barrier : Option Nat := none
  tollWait : Bool := false
  hintHold : Nat := 0
  /-- the items of its next command, or of its record, have been counted as waiting. R163 -/
  counted : Bool := false
  /-- arrivals at each barrier identifier. R166 -/
  arrivals : Tab Nat := []
  /-- identifiers whose barrier has broken. R167 -/
  broken : List Nat := []
  /-- a result has been emitted in this run. R229 -/
  emitted : Bool := false
  /-- submission group. R166 -/
  group : Nat := 0
  secure : Bool := false
  /-- BAR2 offset of the completion record. R190 -/
  completion : Nat := 0
  /-- command held over while a lower class yields. R133 -/
  yielded : Bool := false
  /-- ended with this status and cycle count; the closing FENCE waits for its toll items. R191 -/
  closing : Option (Nat × Nat) := none
  /-- identifier of the model whose ripening job this is, 0 for none. R245 -/
  job : Nat := 0
  /-- participants of the group that have ended: core and arrivals. R167 -/
  gone : List (Nat × Tab Nat) := []
  deriving DecidableEq, Repr

/-- A forecast stream (R132, R187). -/
structure Stream where
  loaded : Bool := false
  /-- key of its model in `Te.models` -/
  model : Nat := 0
  slot : Option Nat := none
  /-- placement epoch, 16 bits. R187 -/
  epoch : Nat := 0
  /-- cluster whose core it last had a slot on: its stack holds the history. R243 -/
  home : Nat := 0
  secure : Bool := false
  /-- waits for the copy of its model before it resumes. R140 -/
  copying : Bool := false
  /-- module time, µs, at which that copy is complete; 0 where a master copy restores it. R140, R213 -/
  resumeAt : Nat := 0
  /-- module time, µs, 250 µs after the fault for which the stream was placed anew. R140 -/
  resumeBy : Nat := 0
  /-- intake frame of the last epoch increment. R187 -/
  bumpedAt : Nat := 0
  /-- unplaced because both master copies are bad. R213 -/
  damaged : Bool := false
  /-- stopped for a replacement. R183 -/
  stopped : Bool := false
  /-- settings in effect: rounding mode, seed, overflow mode. R148 -/
  rounding : Nat := 0
  seed : Nat := 0
  overflow : Nat := 0
  /-- settings written and waiting for the intake boundary. R148 -/
  newSettings : Bool := false
  /-- cause of an epoch increment waiting for the intake boundary. R187 -/
  bump : Bool := false
  /-- unload waiting for the intake boundary. R185 -/
  unloading : Bool := false
  /-- the present run -/
  run : Option Run := none
  /-- STATE, OUTPUT and HISTORY areas. R158 -/
  stateMem : Mem := {}
  outMem : Mem := {}
  history : Mem := {}
  /-- words of the SCRATCH area whose valid bit is set; their contents are a frame's own. R158, R207 -/
  scratchValid : List Nat := []
  /-- run frame of the last run, and stride. R226 -/
  lastRun : Option Nat := none
  stride : Nat := 0
  /-- whey level of the newest merged record. R237 -/
  whey : Nat := 0
  deriving DecidableEq, Repr

/-- One stream's intake area in a bank (R225). -/
structure Intake where
  frame : Nat := 0
  /-- the header written at the frame's boundary stands: no world change has cleared it. R95 -/
  header : Bool := true
  mask : Nat := 0
  rows : Nat := 0
  /-- rows 0 to 7, 64 bytes each -/
  data : Blob := 0
  deriving DecidableEq, Repr

/-- A load in progress (R182, R183). -/
structure Load where
  op : Nat
  first : Nat
  count : Nat
  /-- key of its model in `Te.models`: the loader holds its master copies already. R183 -/
  key : Nat
  secure : Bool
  /-- stream, core, slot, level, finish -/
  plan : List (Nat × Nat × Nat × Nat × Nat)
  /-- the destination cores as the load will lay them out: what it places there is taken. R177, R180 -/
  layout : Tab Layout
  /-- run by the loader itself for a replay or a ripening commit: no status is reported -/
  replay : Bool
  /-- a ripening commit: the model key replaced. R246 -/
  ripens : Option Nat
  framesLost : Nat
  /-- the old copy leaves no room for the new: the streams stop first. R183 -/
  noRoom : Bool
  /-- words that a master copy delivered with other data bits to a destination: core, offset in the image, bits. R204 -/
  altered : List (Nat × Nat × Nat) := []
  deriving DecidableEq, Repr

/-- A ripening job (R245). -/
structure Job where
  model : Nat
  began : Nat
  participants : List Nat
  /-- candidate area, shared. R245 -/
  candidate : Mem
  failed : Bool
  /-- participants that have reached END, and S14 and S15 of the lowest. R246 -/
  ended : List Nat
  errors : Option (Nat × Nat)
  /-- accepted, waiting for the loader. R246 -/
  accepted : Bool
  deriving DecidableEq, Repr

/-- A hint message (R171): source, level, lead, duration; with the module time of issue, ns, and the program that issued
it (the module's own bookkeeping for FENCE, R165). -/
structure HintMsg where
  source : Nat
  level : Nat
  lead : Nat
  duration : Nat
  issued : Nat
  owner : Option ProgRef := none
  deriving DecidableEq, Repr

/-- A hint record in the INTAKE toll: its cluster, the place it is mapped to, and the frame it is stamped with (R162, R223,
R224). -/
structure IntakeItem where
  cluster : Nat
  stream : Nat
  row : Nat
  frame : Nat
  record : Blob
  deriving DecidableEq, Repr

/-- A copy that the loader makes through the LOAD toll of a cluster (R162, R183): its core, whether the load in progress
makes it, and its 4 KiB units that wait for a credit and that are on their way. -/
structure CopyItem where
  core : Nat
  load : Bool
  waits : Nat
  sent : Nat
  deriving DecidableEq, Repr

/-- Beats of a program that wait for a credit of its core's HBM_WR toll (R162, R163). -/
structure BeatItem where
  core : Nat
  owner : ProgRef
  waits : Nat
  deriving DecidableEq, Repr

/-- The tensor engine, the loader, the forecast merge and ripening. -/
structure Te where
  /-- cores 0 to 95. R105 -/
  cores : Tab Core := []
  /-- fenced clusters with their cause. R139 -/
  clusters : Tab Nat := []
  /-- gated clusters, bit n. R135 -/
  gated : Nat := 0
  /-- streams 0 to 767. R132 -/
  streams : Tab Stream := []
  /-- models by load number, and the next load number -/
  models : Tab Model := []
  nextModel : Nat := 0
  /-- intake areas, key stream × 8 + bank. R225 -/
  intake : Tab Intake := []
  /-- hint records in the INTAKE tolls, oldest first. R162 -/
  intakeQ : List IntakeItem := []
  /-- newest frame whose bank is sealed, plus one. R224 -/
  sealedTo : Nat := 0
  /-- host and ripening programs by core. R190, R245 -/
  host : Tab Run := []
  ripen : Tab Run := []
  nextGroup : Nat := 1
  /-- ripening programs that wait for another job's program on their core, oldest first. R245 -/
  ripenQ : List (Nat × Run) := []
  /-- what the loader has laid out on each core. R176, R177 -/
  layout : Tab Layout := []
  /-- forecast-area regions of each world, index in the stack, that the present contents of a stack were laid in: non-secure,
  secure. R93, R196 -/
  hbmRooms : Tab (List Nat × List Nat) := []
  /-- spans of TE SRAM, first byte and end, that a world change has cleared and no write has filled since, and parts of
  vat-mode weights: core, model, HBM region. R95, R210 -/
  cleared : List (Nat × Nat) := []
  hbmCleared : List (Nat × Nat × Nat) := []
  /-- spans of TE SRAM whose words an area that has gone, or has moved, left valid. R207, R210 -/
  stale : List (Nat × Nat) := []
  /-- master copies that wait for a slot in which the loader may write them: stack and bytes. R488 -/
  fills : List (Nat × Nat) := []
  /-- the load in progress. R182 -/
  load : Option Load := none
  /-- registered ripening images, each with the stack that holds it as its master, and jobs, by model identifier. R244, R245 -/
  ripening : Tab Model := []
  jobs : Tab Job := []
  /-- module time, µs, at which the previous job of a model began. R245 -/
  lastJob : Tab Nat := []
  /-- credits out, key toll × 128 + unit. R162 -/
  credits : Tab Nat := []
  /-- result records in the EMIT_M tolls, oldest first: core, record. R162 -/
  emitQ : List (Nat × Result) := []
  /-- hint messages in the HINT tolls, oldest first: cluster, message. R162 -/
  hintQ : List (Nat × HintMsg) := []
  /-- copies in the LOAD tolls, oldest first. R162 -/
  copyQ : List CopyItem := []
  /-- beats that wait for a credit of an HBM_WR toll, oldest first. R162, R163 -/
  beatsWait : List BeatItem := []
  /-- merged records in the MERGE_CE toll, oldest first. R162 -/
  mergeQ : List Merged := []
  /-- merge store: newest accepted result of each stream. R230 -/
  store : Tab Result := []
  /-- codewords and valid bits of the merge store: flipped bits, copies struck, words whose valid bit is lost, at
  (0 for program and state, stream + 1) × 2^20 + offset. R248 -/
  mergeMem : Mem := {}
  mergeLost : List Nat := []
  /-- next merge frame, and the newest merge frame started plus one. R230 -/
  mergeNext : Nat := 0
  mergeStarted : Nat := 0
  /-- G of the previous merge frame. R236 -/
  gPrev : Option Rat := none
  /-- residual base: load measured by the CE, held. R232 -/
  residual : Rat := 0
  /-- frames since a measurement arrived. R232 -/
  noMeas : Nat := 0
  /-- shelf events already classified, with the module time, ns, of each. R242 -/
  classified : Tab Nat := []
  /-- slots and models of each cluster's batches at the last boundary. R170 -/
  hinted : Tab (List (Nat × Nat)) := []
  /-- a slot has become free since the last boundary. R141 -/
  slotFreed : Bool := false
  /-- cores suspended under R267, last suspended first -/
  suspended : List Nat := []
  /-- complete periods since CAP_UNMET cleared. R268 -/
  calm : Nat := 0
  /-- fixed outcome objects OD 0x3201.01 to .07. R193 -/
  loadStatus : Nat := 0
  loadCommitted : Nat := 0
  loadLevel : Nat := 0
  loadFinish : Nat := 0
  loadMargin : Int := 0
  loadLost : Nat := 0
  loadRecorded : Bool := false
  /-- catalogue of the model area as the module knows it: commit order, offset in 4 KiB units, length, and the image's
  CRC-32 below the load request. R518 -/
  catalogue : List (Nat × Nat × Nat × Blob) := []
  catalogueSeq : Nat := 0
  /-- the slot of the newest catalogue, and a catalogue that waits for its image to be written. R461, R518, R528 -/
  catalogueSlot : Nat := 1
  catalogueDue : Bool := false
  /-- final status of the last execution of each CMD object, key index × 256 + subindex. R13 -/
  lastStatus : Tab Nat := []
  deriving DecidableEq, Repr

/-- Compute Die power state, HBM and SRAM. -/
structure Cd where
  /-- the CD is running -/
  running : Bool := false
  /-- a CD start is due. R82 -/
  due : Bool := false
  /-- no further CD start until the next TAKEOVER or power-on. R83 -/
  stage3Failed : Bool := false
  /-- host-stop cause. R147 -/
  hostStop : Bool := false
  /-- CD PLL latch. R73 -/
  pllLatch : Bool := false
  /-- CD thermal latch. R497 -/
  thermalLatch : Bool := false
  /-- a CD rail waits for its retry. R479 -/
  retry : Bool := false
  /-- HBM by PA, 576 GiB. R195 -/
  hbm : Mem := {}
  /-- SRAM by macro × 1 MiB + offset: its errors and valid-bit copies; what a word holds stands with its owner. R221 -/
  sram : Mem := {}
  /-- SRAM words whose valid bit a majority of struck copies has inverted. R207 -/
  sramFlips : List Nat := []
  /-- condition of stacks 0 to 11, OD 0xA001. R221 -/
  stackCond : Tab Nat := []
  /-- words found uncorrectable per stack in the last second: (stack, address, µs). R214 -/
  badWords : List (Nat × Nat × Nat) := []
  /-- next block of the HBM scrub per stack. R215 -/
  scrubAt : Tab Nat := []
  /-- hard words found in the present pass. R216 -/
  passHard : Tab Nat := []
  /-- next word of the SRAM scrub per macro. R215 -/
  sramAt : Tab Nat := []
  /-- consecutive good readouts, and 1 ms updates below the band. R220 -/
  goodRuns : Tab Nat := []
  bandWait : Tab Nat := []
  /-- last uncorrectable address of a stack, OD .07. R221 -/
  lastBad : Tab Nat := []
  /-- scrub progress, OD .08. R221 -/
  progress : Tab Nat := []
  /-- refresh mode, OD .09; multiplier as its difference from 16, OD .0A. R219, R220 -/
  refreshMode : Tab Nat := []
  refresh : Tab Nat := []
  /-- activity counters of the clusters, key cluster × 48 + counter. R484 -/
  activity : Tab Nat := []
  deriving DecidableEq, Repr

/-! ## Budget manager -/

/-- A job group's state (R257 to R270). -/
structure JobGroup where
  /-- run grant f_g, MHz. R258 -/
  grant : Nat := 0
  /-- landings in service n_g at the last period boundary. R257 -/
  inService : Nat := 0
  /-- correction factor c_g. R257 -/
  factor : Rat := 1
  /-- reported and modelled power of counted periods, newest first, at most 100. R257 -/
  history : List (Rat × Rat) := []
  /-- a landing of the group has reported a barrier wait in this period. R257 -/
  waited : Bool := false
  /-- allocated power, W. R275 -/
  power : Rat := 0
  /-- binding reason and reason mask. R269 -/
  binding : Nat := 0xFF
  mask : Nat := 0
  /-- a landing reports computing again after a wait that no release covers. R265 -/
  resumed : Bool := false
  /-- the release in force: t_e in ns, the shelf event it follows (0 for none), its end, the barriers it ends. R265,
  R266 -/
  relAt : Option Nat := none
  relEvent : Nat := 0
  relEnd : Nat := 0
  relIds : List Nat := []
  deriving DecidableEq, Repr

/-- The rack budget manager. -/
structure Bm where
  /-- job groups 0 to 63. R255 -/
  groups : Tab JobGroup := []
  /-- planned draw P, grid limit, storage share s, unmanaged power U, deficit d, W. R259, R260 -/
  planned : Rat := 0
  /-- none before the first period. R260 -/
  gridLimit : Option Rat := none
  share : Rat := 0
  unmanaged : Rat := 0
  deficit : Rat := 0
  /-- BUDGET_DEFICIT, and periods since d was above zero. R260 -/
  inDeficit : Bool := false
  quiet : Nat := 0
  /-- DEVICE_LIMIT. R259 -/
  deviceLimit : Bool := false
  /-- budget source. R253 -/
  source : Nat := 0
  /-- the refresh timeout has passed and waits for the period boundary. R253 -/
  refreshDue : Bool := false
  /-- groups' total of the last period, W. R258 -/
  total : Rat := 0
  /-- no period has run since the run grants were taken over, so the total is that of those grants. R273 -/
  fresh : Bool := false
  /-- die reasons reported by the MPC. R493 -/
  dieBinding : Nat := 0xFF
  dieMask : Nat := 0
  /-- CAP_UNMET. R490 -/
  capUnmet : Bool := false
  deriving DecidableEq, Repr

/-! ## Ferry links -/

/-- A Ferry link or the peer lane (R322). -/
structure Link where
  /-- 0 OFF, 1 DOWN, 2 CODE_LOCK, 3 CROSSING_LOCK, 4 UP. R322 -/
  st : Nat := 0
  /-- signal detected and the training limit running. R322 -/
  training : Bool := false
  /-- round trip, ns, and phase φ. R318, R324 -/
  roundTrip : Nat := 0
  phase : Nat := 0
  /-- number of the last crossing that it has answered as the other end of a peer connection. R319 -/
  peerNo : Option Nat := none
  /-- attachments from before the link went DOWN end at the next boundary. R334 -/
  endOld : Bool := false
  /-- DROP_SEEN, STALE_SEEN, UNCORR_SEEN, DOWN_SEEN, NONCOMP_SEEN. R347 -/
  dropSeen : Bool := false
  staleSeen : Bool := false
  uncorrSeen : Bool := false
  downSeen : Bool := false
  nonCompSeen : Bool := false
  deriving DecidableEq, Repr

/-- A frame in assembly or being sent (R328): its bytes, their number, and the next fragment index. -/
structure Assembly where
  data : Blob
  len : Nat
  next : Nat
  deriving DecidableEq, Repr

/-- A berth's message slots, both directions (R328, R371). -/
structure Berth where
  rx : Option Assembly := none
  tx : Option Assembly := none
  /-- ATTACH_ACK frames waiting: landing, status, epoch. R331 -/
  acks : List (Nat × Nat × Nat) := []
  /-- TIME waiting; crossings since the last. R340 -/
  time : Bool := false
  sinceTime : Nat := 0
  /-- CONFIGURATION waiting. R371 -/
  config : Option Blob := none
  deriving DecidableEq, Repr

/-- A landing (R330 to R343, R272). -/
structure Landing where
  /-- link and berth of its attachment. R330 -/
  place : Option (Nat × Nat) := none
  /-- landing epoch, 16 bits. R331 -/
  epoch : Nat := 0
  /-- intake frame of the newest accepted record, and of the newest under the present attachment, each plus one. R330,
  R342 -/
  lastAcc : Nat := 0
  hereAcc : Nat := 0
  /-- newest accepted hint record. R336 -/
  status : Nat := 0
  power : Nat := 0
  frequency : Nat := 0
  ceiling : Nat := 0xFFFF
  ceilCause : Nat := 0
  wheyCap : Nat := 0
  wheyPower : Nat := 0
  barrier : Nat := 0
  /-- energy, µJ, U64; consecutive frames without a record; unreported frames, U32. R272 -/
  energy : Nat := 0
  missed : Nat := 0
  unreported : Nat := 0
  /-- reported power summed over this period's records, W, and their number. R254, R257 -/
  powerSum : Nat := 0
  powerCount : Nat := 0
  /-- consecutive records over and within the permitted frequency; NONCOMPLIANT. R343 -/
  overRun : Nat := 0
  withinRun : Nat := 0
  nonCompliant : Bool := false
  /-- grants sent: start of the crossing, ns, and highest grant. R343 -/
  sent : List (Nat × Nat) := []
  /-- the barrier it is held at with the wait grant; the barrier it has been released from. R264 -/
  held : Option Nat := none
  freed : Option Nat := none
  /-- start time of its coming grant, ns. R266 -/
  comingAt : Option Nat := none
  /-- whey level in effect; coming level and its start, ns. R237 -/
  whey : Nat := 0
  comingWhey : Option (Nat × Nat) := none
  /-- content committed for its grant records (R338): flags, sequence, present and coming grant, present and coming
  whey, starts, group, profile -/
  committed : Bool := false
  cFlags : Nat := 0
  cSeq : Nat := 0
  cGrant : Nat := 0
  cComing : Nat := 0
  cWhey : Nat := 0
  cComingWhey : Nat := 0
  cStart : Nat := 0xFFFFFFFFFFFFFFFF
  cWheyStart : Nat := 0xFFFFFFFFFFFFFFFF
  cGroup : Nat := 0xFF
  cProfile : Nat := 0
  /-- content before the boundary of the newest commit: module time of that boundary, ns, committed, fields, sequence. R338 -/
  cOld : Nat × Bool × List Nat × Nat := (0, false, [], 0)
  deriving DecidableEq, Repr

/-- An accepted attach or detach waiting for the intake boundary (R330, R334). -/
structure AttachChange where
  /-- true for an attach -/
  attach : Bool
  landing : Nat
  link : Nat
  berth : Nat
  deriving DecidableEq, Repr

/-- The Ferry links and landings. -/
structure Ferry where
  links : Tab Link := []
  landings : Tab Landing := []
  /-- berths with message state, key link × 128 + berth -/
  berths : Tab Berth := []
  /-- accepted attaches and detaches, oldest first. R330 -/
  changes : List AttachChange := []
  /-- frames waiting on peer links: link, type, bytes, payload. R372 -/
  peerQ : List (Nat × Nat × Nat × Blob) := []
  /-- module time of the Gangway frame boundary of the last commit of grant content, ns. R338 -/
  commitTime : Nat := 0
  /-- effective profile at entry to the hold. R339 -/
  holdProfile : Nat := 3
  deriving DecidableEq, Repr

/-! ## Cell monitoring -/

/-- The configuration of a port that one sweep uses from SAMPLE to close (R440). -/
structure PortCfg where
  /-- cells N and temperature inputs T -/
  n : Nat := 16
  t : Nat := 8
  /-- mode and averaging window, µs -/
  mode : Nat := 0
  window : Nat := 0
  /-- storage channel and first cell -/
  chan : Nat := 255
  first : Nat := 0
  /-- δ and the sum tolerance per cell, mV -/
  delta : Nat := 50
  tol : Nat := 3
  deriving DecidableEq, Repr

/-- A cell monitoring port (R419 to R442). -/
structure Port where
  /-- 0 UNPOPULATED, 1 STARTING, 2 RUNNING, 3 MISMATCH, 4 FAILED. R442 -/
  st : Nat := 0
  /-- sequence of the next command, 8 bits. R423 -/
  seq : Nat := 0
  /-- command waiting for an answer: type and sequence. R426 -/
  waiting : Option (Nat × Nat) := none
  /-- a good HELLO_ACK has been received since STARTING. R430 -/
  greeted : Bool := false
  /-- CONFIGURE is due before the next SAMPLE. R430 -/
  configure : Bool := false
  /-- sequence and tap of the SAMPLE of this sweep; none when no SAMPLE was sent. R428 -/
  sample : Option (Nat × Nat) := none
  /-- READ attempts in this sweep. R428 -/
  reads : Nat := 0
  /-- DATA accepted for this sweep: its payload. R428 -/
  data : Option Blob := none
  /-- configuration under which SAMPLE was sent, which the close uses. R440 -/
  cfg : PortCfg := {}
  /-- sweeps in STARTING without a good HELLO_ACK; consecutive STALE sweeps. R430, R432 -/
  silent : Nat := 0
  staleRun : Nat := 0
  /-- cause of the last failure to deliver, 1 to 4. R441 -/
  cause : Nat := 1
  /-- board status, one-way delay, firmware version. R442 -/
  status : Nat := 0
  delay : Nat := 0
  firmware : Nat := 0
  /-- type, N and T that the board gave in its last HELLO_ACK. R441 -/
  boardType : Nat := 0
  boardN : Nat := 0
  boardT : Nat := 0
  /-- DUAL_MASTER in the last status received, and as the last close published it. R440, R442 -/
  dual : Bool := false
  dualShown : Bool := false
  /-- published data of the last delivery. R429 -/
  values : List Int := []
  raw : List Int := []
  flags : List Nat := []
  block : Nat := 0
  temps : List Int := []
  sweep : Nat := 0
  /-- confirmed open and suspect taps, bit k. R442 -/
  openTaps : Nat := 0
  suspects : Nat := 0
  blockSense : Bool := false
  unusable : Bool := false
  /-- med of the last delivering sweep without a test load. R436 -/
  med : Option Rat := none
  /-- the last test was void: no load is applied until a sweep without one has delivered. R436 -/
  voided : Bool := false
  /-- sweep number plus one at which tap k was last tested. R435 -/
  tested : Tab Nat := []
  /-- sweep number plus one at which tap k, then SUSPECT, last tested intact. R436 -/
  spared : Tab Nat := []
  /-- sweep number plus one at which tap k was last tested by the routine cycle. R435 -/
  nextRoutine : Nat := 0
  lastRoutine : Nat := 0
  /-- closes without a pattern that an open tap which has tested intact still needs. R436 -/
  clearing : Tab Nat := []
  /-- raw readings of the sweep that `med` belongs to. R436, R441 -/
  refRaw : List Int := []
  /-- SAMPLE of this sweep waits for an exchange of HELLO or CONFIGURE. R430 -/
  sampleDue : Bool := false
  /-- state before STARTING, for PORT_RUNNING. R432 -/
  prev : Nat := 0
  /-- module time, µs, of the last CONFIGURE sent. R430 -/
  configuredAt : Nat := 0
  deriving DecidableEq, Repr

/-- Cell monitoring. -/
structure Cells where
  ports : Tab Port := []
  /-- a sweep is between SAMPLE and close. R428 -/
  inSweep : Bool := false
  /-- number of the present sweep. R428 -/
  sweep : Nat := 0
  lastResult : Nat := 0
  /-- population and string tolerance under which the present sweep runs. R440 -/
  swept : Nat := 0
  stringTol : Nat := 5
  /-- string check per channel: sum, converter voltage, STRING_SUM, consecutive over, consecutive within. R439 -/
  sums : Tab Nat := []
  convs : Tab Nat := []
  stringSum : Nat := 0
  overRun : Tab Nat := []
  okRun : Tab Nat := []
  deriving DecidableEq, Repr

/-! ## Storage state estimation -/

/-- A storage channel (R443 to R468). -/
structure SeChan where
  /-- charge integrator, 64 bits, µC. R445 -/
  integ : Int := 0
  /-- change by the bitstream, µC, and its values at the last 64 snapshots, newest first. R446 -/
  bits : Int := 0
  bitHist : List Int := []
  /-- channel current, A. R446 -/
  current : Rat := 0
  /-- remaining charge Q, µC. R448 -/
  q : Int := 0
  /-- learned capacity C, 0.1 C; none until nominal is used. R460 -/
  cap : Option Nat := none
  /-- learned resistance r, µΩ per cell. R453 -/
  res : Option Rat := none
  full : Bool := false
  cutoff : Bool := false
  disagree : Bool := false
  countEst : Bool := false
  learnPend : Bool := false
  csLost : Bool := false
  unseen : Bool := false
  tempBlind : Bool := false
  reserve : Bool := false
  bridge : Bool := false
  /-- full anchor, and whether neither CS_LOST nor a takeover came since. R452 -/
  anchor : Option Int := none
  clean : Bool := false
  /-- a full anchor recorded since the previous cutoff. R452 -/
  anchored : Bool := false
  /-- module time, µs, since which the conditions of FULL hold without interruption. R450 -/
  fullSince : Option Nat := none
  /-- rest time, ms, and whether the rest has had its first complete close after 30 min. R455 -/
  rest : Nat := 0
  restDone : Bool := false
  /-- current of the last close, A, and mean cell value, mV. R453 -/
  closeCurrent : Option Rat := none
  closeMean : Option Rat := none
  /-- lowest and highest cell value, mV, and V_ch, V. R451, R456 -/
  vLow : Option Rat := none
  vHigh : Option Rat := none
  volts : Rat := 0
  /-- highest temperature with blind boards counted, highest and lowest valid temperature, 0.01 °C. R456, R458 -/
  hot : Option Int := none
  hotValid : Option Int := none
  cold : Option Int := none
  /-- sweeps without a value per cell. R458 -/
  noValue : Tab Nat := []
  /-- limits, W. R456 -/
  disLimit : Nat := 0
  chgLimit : Nat := 0
  contLimit : Nat := 0
  /-- estimated time, µs; present loss, µs; current held. R447 -/
  estTime : Nat := 0
  lossTime : Nat := 0
  held : Rat := 0
  /-- a reset of learned values sets Q at the next close. R460 -/
  resetQ : Bool := false
  /-- class in effect: that of the configuration at boot, takeover or the last close. R466 -/
  cls : Nat := 0
  deriving DecidableEq, Repr

/-- State estimation. -/
structure Se where
  chans : Tab SeChan := []
  /-- soc_bulk as a ratio, total limits and L, W. R459 -/
  socBulk : Rat := 0
  disTotal : Nat := 0
  contTotal : Nat := 0
  chgTotal : Nat := 0
  /-- a record write is pending; module time, µs, of the last write. R462 -/
  pending : Bool := false
  lastWrite : Option Nat := none
  seqUsed : Nat := 0
  deriving DecidableEq, Repr

/-! ## Module power controller -/

/-- A rail (R469, R477). -/
structure Rail where
  /-- 0 off, 1 ramping, 2 power-good, 3 retry pending, 4 latched. R503 -/
  st : Nat := 0
  mv : Nat := 0
  deciAmp : Nat := 0
  cause : Nat := 0
  retried : Bool := false
  /-- rotation of phases over the slots. R472 -/
  rotation : Nat := 0
  deriving DecidableEq, Repr

/-- A temperature sensor (R494, R495). -/
structure Sensor where
  reading : Int := 0
  used : Int := 0
  /-- 0 good, 1 broken, 2 unchecked -/
  st : Nat := 0
  /-- consecutive reads away from, and near, the median. R495 -/
  away : Nat := 0
  near : Nat := 0
  /-- the previous read reached a trip. R497 -/
  trip : Bool := false
  /-- the previous two reads reached it, so that the trip has acted. R497 -/
  tripped : Bool := false
  declarations : Nat := 0
  deriving DecidableEq, Repr

/-- The module power controller. -/
structure Mpc where
  /-- rails 0 to 12. R469 -/
  rails : Tab Rail := []
  /-- groups of rails still to rise, one after the other: the first one ramps since `rampAt`, µs of module time. R470 -/
  rising : List (List Nat) := []
  rampAt : Nat := 0
  /-- values of the activity counters at the last slot boundary. R484 -/
  activityRead : Tab Nat := []
  /-- sensors 0 to 94. R494 -/
  sensors : Tab Sensor := []
  /-- levels λ_cap, λ_I, λ_T. R489 -/
  lCap : Nat := 0
  lI : Nat := 0
  lT : Nat := 0
  /-- consecutive quiet boundaries, slots below, milliseconds below. R489 -/
  capQuiet : Nat := 0
  iQuiet : Nat := 0
  tQuiet : Nat := 0
  /-- P_CD of the slots of this period, mW, newest first. R489 -/
  slotPower : List Nat := []
  /-- P_avg of the last period, mW. R489 -/
  pAvg : Nat := 0
  /-- calibration factor k. R485 -/
  k : Rat := 1
  nextK : Option Rat := none
  /-- estimate without k accumulated this millisecond, µJ. R485 -/
  estEnergy : Rat := 0
  /-- slot means of VDD_C current in the last millisecond, 0.1 A, newest first, at most 500. R474 -/
  slotAmps : List Nat := []
  /-- active VDD_C phases, periods below target, periods since a shed, hold-off. R474, R475 -/
  phases : Nat := 32
  below : Nat := 0
  sinceShed : Nat := 64
  holdoff : Bool := false
  shedding : Bool := false
  periods : Nat := 0
  /-- hint windows: message, begun. R476 -/
  windows : List (HintMsg × Bool) := []
  /-- feed-forward duty added at the last window start, mA per active phase. R476 -/
  feedForward : Nat := 0
  /-- slots, milliseconds and periods over which the headroom criterion has held. R491 -/
  headroom : Nat := 0
  /-- position of the present 2 µs slot in its group of 16, and the duty that gates its work. R488, R489 -/
  slot : Nat := 0
  duty : Nat := 16
  /-- SIOD_WARM sensor flag. R498 -/
  warm : Bool := false
  /-- throttle flag of THERMAL_THROTTLE. R502 -/
  throttling : Bool := false
  /-- last fault record, OD 0x7040. R482 -/
  faultRecord : Blob := 0
  deriving DecidableEq, Repr

/-! ## Redundancy -/

/-- A renewal the waiting module has not answered yet (R511). -/
structure AckDue where
  number : Nat
  line : Bool
  lane : Bool
  at_ : Nat
  /-- the µs at which the pulse proves valid. R511 -/
  lineAt : Nat := 0
  deriving DecidableEq, Repr

/-- A checkpoint write in progress (R513). -/
structure CpWrite where
  seq : Nat
  handover : Bool
  /-- table slice that goes before it, 0 to 31; none for a handover checkpoint. R516, R525 -/
  slice : Option Nat
  data : Blob
  /-- both slots are being read again before it; its sequence is the newest valid one there plus 1. R513 -/
  reread : Bool := false
  deriving DecidableEq, Repr

/-- The mooring lease, checkpoints and switch-over. -/
structure Red where
  /-- lease held, OD 0x8001.01. R504 -/
  held : Bool := false
  /-- renewals armed. R506 -/
  armed : Bool := false
  /-- the lease timer has not expired since the last renewal sent. R506 -/
  timer : Bool := false
  /-- newest renewal number sent; received; last of either. R505 -/
  sentNo : Nat := 0
  recvNo : Option Nat := none
  lastNo : Nat := 0
  /-- frame of the claim and µs of the last renewal sent. R505 -/
  claimFrame : Nat := 0
  /-- µs of the latest renewal sent: the lease lasts 200 ms from it. R504, R506 -/
  renewedAt : Nat := 0
  /-- µs at which the lease-free timer last restarted. R507 -/
  freeSince : Nat := 0
  /-- µs of the last renewal received, and of the last HANDOVER. R522 -/
  lastRecv : Option Nat := none
  lastHandover : Option Nat := none
  /-- a HANDOVER has freed the lease for this module. R525 -/
  handover : Bool := false
  /-- yielded under R510: 100 ms are added to the guard. R509 -/
  yielded : Bool := false
  /-- LINE_FAULT, LANE_FAULT, CHECKPOINT_STALE. R511, R517 -/
  lineFault : Bool := false
  laneFault : Bool := false
  cpStale : Bool := false
  /-- runs of renewals on one path only, acknowledgements without line, renewals unacknowledged, good ones. R511 -/
  noLine : Nat := 0
  noLane : Nat := 0
  unacked : Nat := 0
  goodBoth : Nat := 0
  ackDue : Option AckDue := none
  /-- integrators latched at the last pulse: µs and values. R465 -/
  latched : Option (Nat × Tab Int) := none
  /-- ring of the last 16 renewals: number and integrators, newest first. R465 -/
  ring : List (Nat × Tab Int) := []
  /-- Q of each channel at the latest renewal sent, µC. R465 -/
  qSent : Tab Int := []
  /-- sequence of the latest verified checkpoint. R513 -/
  cpSeq : Nat := 0
  /-- the module knows the newest sequence in the store. R513 -/
  cpKnown : Bool := false
  /-- the slot the newest valid checkpoint stands in. R513 -/
  cpSlot : Nat := 1
  writing : Option CpWrite := none
  /-- consecutive failed checkpoint writes. R517 -/
  cpFails : Nat := 0
  /-- sequence of the latest checkpoint this module has verified, OD 0x8020. R513 -/
  verified : Nat := 0
  /-- controllers whose complete table copy waits to be read, bit r. R519 -/
  tables : Nat := 0
  /-- latest verified checkpoint written under the present lease. R311, R532 -/
  own : Option Blob := none
  /-- table slice next in the rotation, 0 to 31. R516 -/
  slice : Nat := 0
  /-- last step of R519 completed -/
  step : Nat := 0
  /-- a handover checkpoint is requested, or its close is due at the next boundary. R525 -/
  switching : Bool := false
  closeDue : Bool := false
  /-- a HANDOVER was sent and its outcome is open. R525 -/
  gaveUp : Bool := false
  /-- newest PEER_STATE: state code and flags, and the module time, µs, of its receipt. R512 -/
  peerState : Nat := 0
  peerFlags : Nat := 0
  peerAt : Nat := 0
  /-- the lease has been lost and STANDBY_COLD follows at the next frame boundary. R29, R30 -/
  lost : Bool := false
  /-- last claim to CE service and silence, µs; last case; outcome. R530 -/
  toService : Nat := 0
  silence : Nat := 0
  cpCase : Nat := 0
  outcome : Nat := 0xFF
  deriving DecidableEq, Repr

/-! ## The module -/

/-- Causes of SAFE_HOLD and what the hold returns to (R29, R532). -/
structure Hold where
  /-- CE state damaged; measurements lost; host hold command; lease conflict -/
  damage : Bool := false
  noMeas : Bool := false
  host : Bool := false
  conflict : Bool := false
  /-- the hold limit has closed the gate -/
  limit : Bool := false
  /-- release accepted, waiting for the boundary. R401 -/
  release : Bool := false
  /-- the host hold command accepted, waiting for the boundary. R401 -/
  hostDue : Bool := false
  /-- an uncorrectable error in CE state, waiting for the boundary. R213 -/
  damageDue : Bool := false
  deriving DecidableEq, Repr

/-- The whole module. -/
structure State where
  /-- commands waiting, first in first out (the model's own queue) -/
  pending : List Instr := []
  /-- what the last command sent out (the model's own record of the output pins) -/
  out : List Output := []
  /-- number of free values drawn so far (the model's own field) -/
  free : Nat := 0
  /-- operating state. R26 -/
  mode : Mode := .off
  /-- degradation causes in force, 8 bits. R28 -/
  causes : Nat := 0
  /-- FORECAST_NOT_RUNNING set by a start-up or a fault and not yet cleared. R28 -/
  notRunning : Bool := false
  /-- Gangway frame number, 64 bits. R71 -/
  frame : Nat := 0
  /-- intake frame number, 64 bits. R222 -/
  intake : Nat := 0
  /-- frame of the last transition and its trigger. R400 -/
  lastTransition : Nat := 0
  lastTrigger : Nat := 0
  /-- effective profile, OD 0x3001. R34 -/
  profile : Nat := 3
  hold : Hold := {}
  /-- dictionary store: values that differ from their defaults, key index × 256 + subindex. R390 -/
  od : Tab Nat := []
  /-- values in effect that differ from the dictionary's, for entries whose writes take effect at a boundary -/
  eff : Tab Nat := []
  /-- configuration digest, OD 0xB021. R103 -/
  digest : Blob := 0
  /-- a configuration object has changed since the digest was computed. R103 -/
  digestDue : Bool := false
  /-- generation, OD 0xB022.01. R102 -/
  generation : Nat := 0
  mismatch : Bool := false
  /-- description of the last describe command, OD 0xC021. R394 -/
  description : Blob := 0
  /-- publications received on peer links, 72 bytes each, OD 0x1041. R373 -/
  peerPubs : Tab Blob := []
  /-- newest aggregates received, 132 bytes each, OD 0x9400 + l. R345 -/
  aggregates : Tab Blob := []
  log : Log := {}
  nvr : Nvr := {}
  power : Power := {}
  clk : Clk := {}
  host : HostPort := {}
  net : FieldNet := {}
  gw : Gangway := {}
  ce : Ce := {}
  te : Te := {}
  cd : Cd := {}
  bm : Bm := {}
  ferry : Ferry := {}
  cells : Cells := {}
  se : Se := {}
  mpc : Mpc := {}
  red : Red := {}
  deriving DecidableEq, Repr

/-- The module before its input first enters its operating range: OFF, nothing driven, nothing stored (R26, R48). -/
def State.reset : State := {}

end Sys2Proof.Machine
end

