-- ==== Sys2Proof/Machine/Ops.lean ====
section
/-! DEFINITION. The named operations over the state that every block shares: outputs, free values, the dictionary
store, counters, interrupts, the module log, and the change of operating state. -/

namespace Sys2Proof.Machine

open Sys2Proof

/-- The outcome of a command that acted. -/
abbrev Out := Host.Outcome State Fault Refusal

/-- Run a command: its record of outputs starts empty, and its effect is a next state. -/
def State.act (s : State) (f : State → State) : Out := .next (f { s with out := [] })

/-! ## Modes -/

/-- State code of R26; 0x00 stands for OFF in log entries (R403). -/
def modeCode : Mode → Nat
  | .off => 0 | .boot => 1 | .standbyCold => 2 | .takeover => 3 | .active => 4 | .degraded => 5 | .safeHold => 6
  | .shutdownLatched => 7

/-- The SIOD is powered and its blocks run: every state but OFF and SHUTDOWN_LATCHED. -/
def State.up (s : State) : Bool := decide (s.mode ≠ .off ∧ s.mode ≠ .shutdownLatched)

/-- The SIOD services of step 8 of R81 run. -/
def State.services (s : State) : Bool := s.up && s.power.servicesUp

/-- States that hold the mooring lease (R26). -/
def holdsLeaseMode (m : Mode) : Bool :=
  decide (m = .takeover ∨ m = .active ∨ m = .degraded ∨ m = .safeHold)

/-! ## Outputs and free values -/

/-- An output leaves on J2, J3 or J6: all but the frames of Ferry links and of cell monitor ports (R41, R42). -/
def Output.rear : Output → Bool
  | .window link _ _ _ | .crossing link _ | .peer link _ _ _ => decide (link = 48)
  | .cellFrame _ _ _ _ _ _ => false
  | _ => true

/-- Record one output.  While MATE_N is high nothing is driven on J2, J3 or J6 (R41). -/
def State.emit (s : State) (o : Output) : State :=
  if s.power.mateHigh && o.rear then s else { s with out := s.out ++ [o] }

/-- Draw the next free value. -/
def State.draw (s : State) : Nat × State := (Config.freeValue s.free, { s with free := s.free + 1 })

/-! ## Time -/

/-- Module time of R318 in ns, at the last intake frame boundary. -/
def State.timeNs (s : State) : Nat := 1000 * s.intake

/-- The fixed second of module time (R531). -/
def State.second (s : State) : Nat := s.intake / 1000000

/-- The budget period (R258). -/
def State.period (s : State) : Nat := s.frame / 25

/-! ## The dictionary store -/

/-- A table lookup that tells absence apart. -/
def tabFind {α : Type} : Tab α → Nat → Option α
  | [], _ => none
  | (k, v) :: t, i => if i = k then some v else tabFind t i

/-- The stored value of an entry: its default where the store lists none. -/
def State.odk (s : State) (k : Nat) : Nat := tabGet (odDefault k) s.od k

/-- The stored value of an entry. -/
def State.odv (s : State) (i sub : Nat) : Nat := s.odk (okey i sub)

/-- Store a value, keeping the canonical form. -/
def State.odPut (s : State) (k v : Nat) : State := { s with od := tabPut (odDefault k) s.od k v }

/-- The value in effect of an entry whose writes take effect at a boundary. -/
def State.effk (s : State) (k : Nat) : Nat :=
  match tabFind s.eff k with
  | some v => v
  | none => s.odk k

/-- The value in effect. -/
def State.effv (s : State) (i sub : Nat) : Nat := s.effk (okey i sub)

/-- Store a written value: the value in effect stays until its boundary. -/
def State.odWrite (s : State) (k v : Nat) : State :=
  if effectOf k = .now then s.odPut k v
  else
    let s := match tabFind s.eff k with
      | some _ => s
      | none => { s with eff := tabInsert s.eff k (s.odk k) }
    s.odPut k v

/-- The keys of a boundary class whose values wait for it. -/
def State.waiting (s : State) (w : When) : List Nat :=
  (s.eff.filter (fun p => decide (effectOf p.1 = w))).map (·.1)

/-- Bring the waiting values of a class into effect. -/
def State.takeEffect (s : State) (w : When) : State :=
  { s with eff := s.eff.filter (fun p => decide (effectOf p.1 ≠ w)) }

/-- Increment a saturating U32 counter object by `n`. -/
def State.count (s : State) (i sub : Nat) (n : Nat := 1) : State :=
  s.odPut (okey i sub) (sat32 (s.odv i sub) n)

/-- Increment a saturating U64 counter object by `n`. -/
def State.count64 (s : State) (i sub : Nat) (n : Nat := 1) : State :=
  s.odPut (okey i sub) (sat64 (s.odv i sub) n)

/-- Reset a counter object. -/
def State.uncount (s : State) (i sub : Nat) : State := s.odPut (okey i sub) (odDefault (okey i sub))

/-! ## Bytes in tables -/

/-- Read `n` bytes of a byte table, lowest address first. -/
def cellsGet (d : Nat → BitVec 8) (m : List Host.Cell) (a : Nat) : Nat → Blob
  | 0 => 0
  | n + 1 => (tabGet (d a) m a).toNat + 256 * cellsGet d m (a + 1) n

/-- Write `n` bytes of a byte table, keeping the canonical form. -/
def cellsPut (d : Nat → BitVec 8) (m : List Host.Cell) (a : Nat) : Nat → Blob → List Host.Cell
  | 0, _ => m
  | n + 1, v => cellsPut d (tabPut (d a) m a (BitVec.ofNat 8 v)) (a + 1) n (v / 256)

/-- Reset contents of the MSI-X table: every vector masked (R359; PRESUMED from PCI Express, log entry 7). -/
def msixDefault (a : Nat) : BitVec 8 := if a % 16 = 12 then 1 else 0

/-! ## Interrupts (R358, R359) -/

/-- The vector of a cause. -/
def State.vectorOf (s : State) (cause : Nat) : Nat := tabGet cause s.host.intMap cause

/-- Send the message of a vector, or set its pending bit while it is masked. -/
def State.sendVector (s : State) (v : Nat) : State :=
  let ctl := cellsGet msixDefault s.host.msix (16 * v + 12) 4
  if bitAt ctl 0 then { s with host := { s.host with pba := s.host.pba ||| 2 ^ v } }
  else s.emit (.msix v (cellsGet msixDefault s.host.msix (16 * v) 8) (cellsGet msixDefault s.host.msix (16 * v + 8) 4))

/-- Set an interrupt cause, and send its message while it is enabled (R359). -/
def State.raise (s : State) (cause : Nat) : State :=
  let s := { s with host := { s.host with intStatus := s.host.intStatus ||| 2 ^ cause } }
  if bitAt s.host.intEnable cause then s.sendVector (s.vectorOf cause) else s

/-- Interrupt causes of R358. -/
def irqMailbox : Nat := 0
def irqState : Nat := 1
def irqConfig : Nat := 2
def irqMemory : Nat := 3
def irqTensor : Nat := 4
def irqBudget : Nat := 5
def irqControl : Nat := 6
def irqFerry : Nat := 7
def irqMpc : Nat := 8
def irqGangway : Nat := 9
def irqCell : Nat := 10
def irqStorage : Nat := 11
def irqRedundancy : Nat := 12
def irqSecurity : Nat := 13
def irqLog : Nat := 14
def irqField : Nat := 15

/-! ## The module log -/

/-- Sequence of the oldest entry still in the ring (R402, R412). -/
def Log.oldest (l : Log) : Nat := if l.next ≤ 2049 then 1 else l.next - 2048

/-- Distance of the next sequence from the host cursor reached the threshold by this entry (R408). -/
def logReached (next cursor threshold : Nat) : Bool :=
  decide ((next : Int) - cursor < threshold ∧ (threshold : Int) ≤ (next : Int) + 1 - cursor)

/-- Write an entry into the ring, whatever the limit of R406 (R402, R403, R408). -/
def State.logForce (s : State) (event : Nat) (params : Blob) : State :=
  let l := s.log
  let e : LogEntry := { seq := l.next, frame := s.frame, event := event, state := modeCode s.mode, params := params }
  let cursor := s.odv 0xC102 1
  let reached := logReached l.next cursor (s.odv 0xC100 5)
  let lost := decide (2048 < l.next ∧ cursor ≤ l.next - 2048)
  let s := { s with log := { l with ring := (e :: l.ring).take 2048, next := l.next + 1, inPeriod := l.inPeriod + 1 } }
  let s := if lost then (s.count 0xC100 3) else s
  let s := if lost then { s with host := { s.host with logLost := true } } else s
  let s := if lost then s.raise irqLog else s
  if reached then s.raise irqLog else s

/-- Write an entry, or suppress and count it when the period's 32 are used (R406). -/
def State.logEvent (s : State) (event : Nat) (params : Blob) : State :=
  if s.log.inPeriod < 32 then s.logForce event params else s.count 0xC100 4

/-- Write an entry unless its source has written `n` in this fixed second (R531). -/
def State.logLimited (s : State) (n source event : Nat) (params : Blob) : State :=
  let l := s.log
  let l := if l.second = s.second then l else { l with second := s.second, perSecond := [] }
  let key := event * 4096 + source
  let s := { s with log := l }
  if tabGet 0 l.perSecond key < n then
    let s := { s with log := { l with perSecond := tabMod 0 l.perSecond key (· + 1) } }
    s.logEvent event params
  else s

/-- Write a STATE_CHANGE entry (R404, R405): never suppressed. -/
def State.logState (s : State) (old new : Mode) (trigger causes : Nat) : State :=
  s.logForce 0xC002 (packBytes [(1, modeCode old), (1, modeCode new), (1, trigger), (1, causes)])

/-! ## Change of operating state -/

/-- A transition other than into OFF or SHUTDOWN_LATCHED (R31): log entry, state-change interrupt, last-state byte. -/
def State.transition (s : State) (new : Mode) (causes trigger : Nat) : State :=
  let old := s.mode
  let s := { s with mode := new, causes := causes, lastTransition := s.frame, lastTrigger := trigger,
                    nvr := { s.nvr with lastState := modeCode new } }
  (s.logState old new trigger causes).raise irqState

/-! ## Refusals -/

/-- The refusal counter of a status code (R16). -/
def refusalSub (status : Nat) : Nat :=
  if status = 0x0101 then 1 else if status = 0x0102 then 2 else if status = 0x0201 then 3
  else if status = 0x0202 then 4 else if status = 0x0301 then 5 else if status = 0x0302 then 6
  else if status = 0x0401 then 7 else if status = 0x0402 then 8 else if status = 0x0501 then 9
  else if status = 0x0601 then 10 else if status = 0x0701 then 11 else if status = 0x0702 then 12 else 13

/-- Status codes of R16. -/
def stOk : Nat := 0x0000
def stNoObject : Nat := 0x0101
def stNoSub : Nat := 0x0102
def stAccess : Nat := 0x0201
def stSecure : Nat := 0x0202
def stRange : Nat := 0x0301
def stLength : Nat := 0x0302
def stState : Nat := 0x0401
def stLoop : Nat := 0x0402
def stBusy : Nat := 0x0501
def stSignature : Nat := 0x0601
def stBounds : Nat := 0x0701
def stSize : Nat := 0x0702
def stDeadline : Nat := 0x0703

/-- Count and log a refusal (R16, R368); a refusal with 0x0601 SIGNATURE raises SECURITY (R358). -/
def State.refuse (s : State) (i sub status source : Nat) : State :=
  let s := s.count 0xC010 (refusalSub status)
  let s := s.logEvent 0xC001 (packBytes [(2, i), (1, sub), (1, source), (2, status)])
  if status = stSignature then s.raise irqSecurity else s

/-- An increment of the secure-access violation counter (R10, R94, R358). -/
def State.violation (s : State) : State := (s.count 0xB040 0).raise irqSecurity

end Sys2Proof.Machine
end

