-- ==== Sys2Proof/Machine/Power.lean ====
section
/-! DEFINITION. What every power and clock event shares: module power flags, the NVR slot writer, the fault record, the
stop of the Compute Die, and the ways into OFF and SHUTDOWN_LATCHED (R31, R45, R461, R470, R478, R482). -/

namespace Sys2Proof.Machine

open Sys2Proof

/-! ## Readings the MPC keeps -/

/-- A temperature sensor's state. -/
def State.sensor (s : State) (i : Nat) : Sensor := tabGet {} s.mpc.sensors i

/-- The highest used value of sensors `a` to `a + n − 1`. -/
def State.hottest (s : State) (a n : Nat) : Int :=
  (upTo n).foldl (fun m i => max m (s.sensor (a + i)).used) (s.sensor a).used

/-- Hottest used CD, SIOD and HBM values (R494). -/
def State.hotCd (s : State) : Int := s.hottest 0 64
def State.hotSiod (s : State) : Int := s.hottest 64 16
def State.hotHbm (s : State) : Int := s.hottest 80 12

/-- A rail's state. -/
def State.rail (s : State) (j : Nat) : Rail := tabGet {} s.mpc.rails j

/-- Some CD rail is latched (R478). -/
def State.cdRailLatched (s : State) : Bool := (upTo 8).any (fun j => decide ((s.rail (5 + j)).st = 4))

/-- The fixed operating point F (R77). -/
def State.fixedPoint (s : State) : Nat := s.odv 0xB062 0

/-- The applied restriction level (R489). -/
def State.lambda (s : State) : Nat := max s.mpc.lCap (max s.mpc.lI s.mpc.lT)

/-- Operating point of a restriction level (R487). -/
def lambdaPoint (f l : Nat) : Nat := if l ≤ f then f - l else 0

/-- Duty of a restriction level, sixteenths (R487). -/
def lambdaDuty (f l : Nat) : Nat := if l ≤ f then 16 else 16 - (l - f)

/-- A slot of a group of 16 is permitted at a duty (R488). -/
def slotPermitted (i d : Nat) : Bool := decide (i * d / 16 < (i + 1) * d / 16)

/-- Host work may issue in the present slot: at full duty always, otherwise one sixteenth below the duty (R488; log
entry 38). -/
def State.hostPermitted (s : State) : Bool := s.mpc.duty == 16 || slotPermitted s.mpc.slot (s.mpc.duty - 1)

/-- The voltage of an operating point, mV (R75). -/
def pointMv (p : Nat) : Nat := [650, 680, 700, 720, 750, 770, 800, 850].getD p 0

/-- The compute clock of an operating point, in steps of 6.25 MHz (R75, R76). -/
def pointSteps (p : Nat) : Nat := [144, 160, 176, 192, 208, 224, 256, 288].getD p 0

/-- VDD_C setpoint: the point's voltage plus the trim, at most 0.90 V (R469). -/
def State.vddSetpoint (s : State) : Nat := min (s.clk.vddC + s.odv 0x7032 0) 900

/-- Setpoint of a rail, mV (R469). -/
def State.railSetpoint (s : State) (j : Nat) : Nat :=
  if j = 6 then s.vddSetpoint else [800, 750, 1800, 3300, 850, 750, 0].getD j 1050

/-- A rail that ramps or is power-good. -/
def Rail.on (r : Rail) : Bool := decide (r.st = 1 ∨ r.st = 2)

/-- Voltage of a rail, mV: that of VDD_C as last measured; otherwise open within 5 % of the setpoint of a power-good rail and
below the setpoint of one that ramps (R470, R503; log entry 93). -/
def State.railMv (s : State) (j : Nat) : Nat :=
  let v := s.railSetpoint j
  if (s.rail j).st = 1 then Config.railReading 0 j s.intake % (v + 1)
  else if (s.rail j).st ≠ 2 then 0
  else if j = 6 then (s.rail j).mv
  else 19 * v / 20 + Config.railReading 0 j s.intake % (v / 10 + 1)

/-- Greatest current of a rail, 0.1 A: phases times the peak limit, and the foldback of VAON (R469). -/
def railLimit (j : Nat) : Nat := [15, 1680, 280, 140, 1260, 840, 17920].getD j 1400

/-- Current of a rail, 0.1 A: that of VDD_C as last measured, otherwise open up to its limit (R503; log entry 93). -/
def State.railDeciAmp (s : State) (j : Nat) : Nat :=
  if !(s.rail j).on then 0
  else if j = 6 ∧ (s.rail j).st = 2 then (s.rail j).deciAmp
  else Config.railReading 1 j s.intake % (railLimit j + 1)

/-- Module power flags, OD 0x7001.01 (R503). -/
def State.mpcFlags (s : State) : Nat :=
  b2n s.power.inputLow + 2 * b2n (!s.clk.syncIn) + 4 * b2n (decide (s.mpc.phases < 32)) +
  8 * b2n (decide (1 ≤ s.mpc.lCap)) + 16 * b2n (decide (1 ≤ s.mpc.lI)) + 32 * b2n (decide (1 ≤ s.mpc.lT)) +
  64 * b2n (decide (s.fixedPoint < s.clk.point)) + 128 * b2n s.cdRailLatched + 256 * b2n s.cd.thermalLatch +
  512 * b2n s.power.flowLost + 1024 * b2n ((upTo 95).any (fun i => decide ((s.sensor i).st = 1))) +
  2048 * b2n s.mpc.warm + 4096 * b2n s.cd.retry

/-- Log an event of the MPC outside the limit of R502, and raise MPC_EVENT.  DESIGN CHOICE (log entry 103): CD_STOP is the
one such event, since R147 logs each stop; the others that name no rail and no sensor share one source of `mpcLog`. -/
def State.mpcEvent (s : State) (event : Nat) (params : Blob) : State := (s.logEvent event params).raise irqMpc

/-- Log an event of the MPC, at most one of a code per rail or sensor and second, and raise MPC_EVENT (R502). -/
def State.mpcLog (s : State) (event source : Nat) (params : Blob) : State :=
  (s.logLimited 1 source event params).raise irqMpc

/-! ## Records in two alternating NVR slots (R461) -/

/-- The two slots of a record kind. -/
def Nvr.slots (n : Nvr) : NvrKind → NvrSlot × NvrSlot
  | .keys => (n.keys0, n.keys1)
  | .floors => (n.floors0, n.floors1)
  | .bundle => (n.bundle0, n.bundle1)
  | .se => (n.se0, n.se1)
  | .fault => (n.fault0, n.fault1)

/-- Bytes of a record in its slot, behind the sequence number. -/
def NvrKind.bytes : NvrKind → Nat
  | .keys => 576 | .floors => 12 | .bundle => 65535 | .se => 512 | .fault => 256

/-- The CRC-32 of a slot: over its sequence number and its record (R461). -/
def slotCrc (k : NvrKind) (seq : Nat) (data : Blob) : Nat := crc32 (4 + k.bytes) (packBytes [(4, seq), (k.bytes, data)])

/-- A record that carries its own magic, sequence and CRC-32 passes them: the SE record and the fault record (R462, R482). -/
def ownRecordGood (k : NvrKind) (seq : Nat) (v : Blob) : Bool :=
  match k with
  | .se => decide (bytesAt v 0 4 = 0x44585345 ∧ bytesAt v 4 4 = seq ∧ bytesAt v 0x190 4 = crc32 0x190 v)
  | .fault => decide (bytesAt v 0 4 = 0x44584652 ∧ bytesAt v 4 4 = seq ∧ bytesAt v 0xFC 4 = crc32 0xFC v)
  | _ => true

/-- A slot holds a record whose magic and CRC are right (R90, R461). -/
def NvrSlot.good (k : NvrKind) (s : NvrSlot) : Bool :=
  s.present && decide (s.crc = slotCrc k s.seq s.data) && ownRecordGood k s.seq s.data

/-- The second slot holds the newest good record. -/
def Nvr.newestIsSecond (n : Nvr) (k : NvrKind) : Bool :=
  let p := n.slots k
  p.2.good k && (!p.1.good k || newerSeq p.2.seq p.1.seq)

/-- The newest good record of a kind. -/
def Nvr.newest (n : Nvr) (k : NvrKind) : Option NvrSlot :=
  let p := n.slots k
  if n.newestIsSecond k then some p.2 else if p.1.good k then some p.1 else none

/-- Put a record into one slot of a kind. -/
def Nvr.putSlot (n : Nvr) (k : NvrKind) (second : Bool) (v : NvrSlot) : Nvr :=
  match k, second with
  | .keys, false => { n with keys0 := v }
  | .keys, true => { n with keys1 := v }
  | .floors, false => { n with floors0 := v }
  | .floors, true => { n with floors1 := v }
  | .bundle, false => { n with bundle0 := v }
  | .bundle, true => { n with bundle1 := v }
  | .se, false => { n with se0 := v }
  | .se, true => { n with se1 := v }
  | .fault, false => { n with fault0 := v }
  | .fault, true => { n with fault1 := v }

/-- Store a complete record in the next slot: the one that does not hold the newest good record. -/
def Nvr.store (n : Nvr) (w : NvrWrite) : Nvr :=
  n.putSlot w.kind (!n.newestIsSecond w.kind && (n.slots w.kind).1.good w.kind)
    { present := true, seq := w.seq, data := w.data, crc := slotCrc w.kind w.seq w.data }

/-- The sequence a new record of a kind takes (R461). -/
def Nvr.nextSeq (n : Nvr) (k : NvrKind) : Nat :=
  match n.newest k with
  | some r => Machine.nextSeq r.seq
  | none => 1

/-- A slot write that cannot start, since the input has left its range, is lost (R45, R463, R482). -/
def State.writeLost (s : State) (w : NvrWrite) : State :=
  match w.kind with
  | .se => s.count 0x6001 6
  | .fault => s.count 0x7042 8
  | _ => s

/-- Start a slot write, or let it wait for the one in progress: a fault record for that one alone (R461, R482).  None starts
once the input has left its range (R45; log entry 85). -/
def State.nvrWrite (s : State) (w : NvrWrite) : State :=
  if s.power.leaving then s.writeLost w
  else
    match s.nvr.writing with
    | none => { s with nvr := { s.nvr with writing := some w } }
    | some _ =>
      { s with nvr := { s.nvr with waiting := if w.kind = .fault then w :: s.nvr.waiting else s.nvr.waiting ++ [w] } }

/-- A slot write of this kind is in progress or waits. -/
def Nvr.busy (n : Nvr) (k : NvrKind) : Bool :=
  (match n.writing with | some w => decide (w.kind = k) | none => false) ||
  n.waiting.any (fun w => decide (w.kind = k))

/-! ## The fault record (R482, R483) -/

/-- What a fault record says of the place of the fault. -/
structure FaultAt where
  /-- rail or sensor; 0xFF none -/
  place : Nat := 0xFF
  mv : Nat := 0
  deciAmp : Nat := 0
  setpoint : Nat := 0
  limited : Nat := 0
  deriving DecidableEq, Repr

/-- An I16 of 0.01 °C, saturated. -/
def temp16 (t : Int) : Nat := unsigned 16 (clampI t (-32768) 32767)

/-- The 256 bytes of a fault record. -/
def State.faultBytes (s : State) (cause after seq : Nat) (p : FaultAt) : Blob :=
  let body := packBytes [(4, 0x44584652), (4, seq), (2, 1), (2, cause), (1, p.place), (1, modeCode s.mode), (1, after),
    (1, 0), (8, s.frame), (4, s.power.vin), (4, s.power.iin), (4, p.mv), (4, p.deciAmp), (4, p.setpoint),
    (1, s.lambda), (1, s.clk.point), (1, s.mpc.duty), (1, s.mpc.phases),
    (2, temp16 s.hotCd), (2, temp16 s.hotSiod), (2, temp16 s.hotHbm), (2, temp16 (s.sensor 93).used),
    (4, s.mpc.slotPower.headD 0 / 1000), (2, s.mpcFlags), (2, 0), (8, p.limited)]
  body + (crc32 252 body) <<< (8 * 252)

/-- Write the fault record of a cause; `after` is the state code at the first frame boundary after the fault.  On the way into
SHUTDOWN_LATCHED its writer sets the last-state byte, also where the record itself finds no slot free (R31). -/
def State.faultRecord (s : State) (cause after : Nat) (p : FaultAt) : State :=
  if !s.power.inRange || s.power.leaving then s.count 0x7042 8
  else
    let seq := s.nvr.nextSeq .fault
    let s := if s.nvr.busy .fault then s.count 0x7042 6 else s.nvrWrite ⟨.fault, seq, s.faultBytes cause after seq p⟩
    if after = 7 then { s with nvr := { s.nvr with lastState := 7 } } else s

/-- State code after a fault of the Compute Die's side (R482, offset 0x0E). -/
def State.afterCdFault (s : State) : Nat :=
  match s.mode with
  | .active | .degraded => 5
  | m => modeCode m

/-! ## Stopping the Compute Die -/

/-- A core after the CD has stopped: off, or fenced until the next CD start (R138). -/
def Core.stopped (c : Core) : Core := if c.st = 3 then { st := 3, causes := c.causes } else {}

/-- A stream after the CD has stopped: its epoch and settings stay; its model is gone (R184, R201). -/
def Stream.afterStop (t : Stream) : Stream :=
  { epoch := t.epoch, rounding := t.rounding, seed := t.seed, overflow := t.overflow, secure := t.secure }

/-- Map a table, keeping the canonical form. -/
def tabMap {α : Type} [DecidableEq α] (d : α) (f : α → α) (t : Tab α) : Tab α :=
  (t.map (fun p => (p.1, f p.2))).filter (fun p => decide (p.2 ≠ d))

/-- The blocks of the Compute Die after a stop (R131, R186, R247, R501). -/
def Te.stopped (t : Te) : Te :=
  { t with
    cores := tabMap {} Core.stopped t.cores, gated := 0, streams := tabMap {} Stream.afterStop t.streams,
    models := [], intake := [], host := [], ripen := [], load := none, ripening := [], jobs := [],
    credits := [], emitQ := [], hintQ := [], mergeQ := [], store := [], gPrev := none, residual := 0, noMeas := 0,
    classified := [], intakeQ := [], hinted := [], suspended := [], calm := 0, layout := [], hbmRooms := [], cleared := [], hbmCleared := [], stale := [], fills := [],
    ripenQ := [], lastJob := [], copyQ := [], beatsWait := [], mergeMem := {}, mergeLost := [] }

/-- A rail after it has been lowered: a latched one, and one that waits for its retry, keeps that state (R470, R478). -/
def Rail.lowered (r : Rail) : Rail := { r with st := if r.st = 3 ∨ r.st = 4 then r.st else 0, mv := 0, deciAmp := 0 }

/-- Lower the CD rails (R470): all of rails 5 to 12, a latched one among them. -/
def Mpc.lowerCd (m : Mpc) : Mpc :=
  { m with
    rails := (upTo 8).foldl (fun t j => tabMod {} t (5 + j) Rail.lowered) m.rails,
    rising := m.rising.filter (fun g => g.all (fun j => decide (j < 5))),
    windows := [], feedForward := 0, shedding := false }

/-- The credits of the LOAD tolls that some copies hold return, and what of them waits is dropped (R162). -/
def State.dropCopies (s : State) (gone : CopyItem → Bool) : State :=
  let out := s.te.copyQ.filter gone
  let credits := out.foldl (fun (t : Tab Nat) x => tabMod 0 t (5 * 128 + x.core / 8) (· - x.sent)) s.te.credits
  { s with te := { s.te with copyQ := s.te.copyQ.filter (fun x => !gone x), credits := credits } }

/-- The load in progress is no more: its copies end, its master copies leave the stacks, and streams that had stopped for it run
again with the model they keep (R182, R183).  DESIGN CHOICE (log entry 96): they do so from the next boundary on. -/
def State.dropLoad (s : State) (l : Load) : State :=
  let s := s.dropCopies (fun x => x.load)
  let streams := tabMap {} (fun (t : Stream) => { t with stopped := false }) s.te.streams
  { s with te := { s.te with load := none, models := tabErase s.te.models l.key, streams := streams } }

/-- A load of the host that ends after its start: 0x0401 STATE at a CD stop (R186), or another status, counted and logged (R17),
with its interrupt (R182).  DESIGN CHOICE (log entry 97): the source byte of that REFUSAL entry is 0, host, whatever path the
request came by, which no rule has the module keep. -/
def State.endLoad (s : State) (status : Nat) : State :=
  match s.te.load with
  | some l =>
    let s := s.dropLoad l
    if l.ripens.isSome then s.count 0x3030 14
    else if l.replay then s
    else
      let s := { s with te := { s.te with loadStatus := status, loadCommitted := 0, loadRecorded := false,
                                          lastStatus := tabPut 0 s.te.lastStatus (okey 0x3200 0) status } }
      let s := if status = 0 then s else s.refuse 0x3200 0 status 0
      s.raise irqTensor
  | none => s

/-- A ripening program that waited for its core starts there once the core has none (R245). -/
def State.promote (s : State) : State :=
  s.te.ripenQ.foldl (fun s x =>
    if (tabFind s.te.ripen x.1).isSome then s
    else { s with te := { s.te with ripen := tabInsert s.te.ripen x.1 { x.2 with frame := s.intake },
                                    ripenQ := s.te.ripenQ.erase x } }) s

/-- A job ends: it and its programs are gone. -/
def State.dropJob (s : State) (ident : Nat) : State :=
  { s with te := { s.te with jobs := tabErase s.te.jobs ident,
                             ripen := s.te.ripen.filter (fun p => decide (p.2.job ≠ ident)),
                             ripenQ := s.te.ripenQ.filter (fun p => decide (p.2.job ≠ ident)) } }.promote

/-- Count abandoned ripening jobs (R247). -/
def State.abandonJobs (s : State) (ids : List Nat) : State :=
  ids.foldl (fun s i =>
    match tabFind s.te.jobs i with
    | some _ => (s.count 0x3030 14).dropJob i
    | none => s) s

/-- The CD stops: its work is discarded and its rails are lowered; `cause` is the code of CD_STOP, 0 for a stop that is
none of the listed causes.  DESIGN CHOICE (log entry 96): a cause that only joins another one, the CD being stopped already,
is not logged as CD_STOP. -/
def State.cdStop (s : State) (cause : Nat) : State :=
  if s.cd.running then
    let s := s.endLoad stState
    let s := s.abandonJobs (s.te.jobs.map (·.1))
    let s := { s with
      te := s.te.stopped,
      cd := { s.cd with running := false, due := false, hbm := {}, stackCond := [] },
      clk := { s.clk with compute := false, hbm := false },
      mpc := s.mpc.lowerCd }
    if cause = 0 then s else s.mpcEvent 0x7107 cause
  else { s with cd := { s.cd with due := false } }

/-- A cause that keeps the CD stopped (R28, R147, R478, R479, R497, R499). -/
def State.cdBlocked (s : State) : Bool :=
  s.power.flowLost || s.cd.thermalLatch || s.cdRailLatched || s.cd.pllLatch || s.cd.hostStop || s.cd.retry

/-- CD_STOPPED of R28: a cause stops the CD, or a due start waits for the conditions of R500. -/
def State.cdStoppedNow (s : State) : Bool := !s.cd.running && (s.cdBlocked || s.cd.due)

/-- A CD start becomes due when the last cause that stopped the CD clears (R82). -/
def State.cdDue (s : State) : State :=
  if holdsLeaseMode s.mode && !s.power.leaving && !s.cd.running && !s.cd.stage3Failed && !s.cdBlocked
  then { s with cd := { s.cd with due := true } } else s

/-! ## OFF and SHUTDOWN_LATCHED -/

/-- What remains of a module whose SIOD rails are down: the NVR and the model's own fields. -/
def State.dark (s : State) (m : Mode) (p : Power) : State :=
  { pending := s.pending, out := s.out, free := s.free, mode := m, nvr := s.nvr, power := p }

/-- Enter OFF (R45): nothing runs, and nothing is written. -/
def State.enterOff (s : State) : State := s.dark .off {}

/-- The rails in SHUTDOWN_LATCHED (R73, R79, R470, R478): VAON stays up and holds the latches; a failed root, I/O PLL or
management processor latches every other rail, a latched SIOD rail itself, and the rest is off. -/
def Mpc.shutRails (m : Mpc) (cause place : Nat) : Tab Rail :=
  (upTo 13).foldl (fun t j =>
    let r := tabGet {} m.rails j
    tabPut {} t j (if j = 0 then { st := 2, mv := 800 }
      else if cause < 4 ∨ r.st = 4 ∨ (0x20 ≤ cause ∧ place = j) then { st := 4, cause := if r.st = 4 then r.cause else cause }
      else {})) []

/-- Enter SHUTDOWN_LATCHED at once (R30, R31, R478): the fault record stands in place of the log entry. -/
def State.enterShutdown (s : State) (cause : Nat) (p : FaultAt) : State :=
  if s.mode = .off ∨ s.mode = .shutdownLatched then s
  else
    let s := s.faultRecord cause 7 p
    let off := s.dark .shutdownLatched { hotSwap := s.power.hotSwap, mateHigh := s.power.mateHigh, inRange := s.power.inRange,
                                         leaving := s.power.leaving, inputLow := s.power.inputLow, lowTicks := s.power.lowTicks,
                                         vin := s.power.vin, straps := s.power.straps, slotId := s.power.slotId }
    -- the log survives every transition but the one into OFF (R402)
    { off with log := s.log, mpc := { rails := s.mpc.shutRails cause p.place } }

/-- Close the output gate (R49): the Gangway, the state store and the lease line fall silent. -/
def State.closeGate (s : State) : State :=
  { s with power := { s.power with gate := false }, gw := { s.gw with driving := false, hold := false } }

/-- Slot writes that were accepted and have not started are lost when the input leaves its range, and so is a write of the
SE record that is pending (R45, R100, R463, R482). -/
def State.dropWaiting (s : State) : State :=
  let s := s.nvr.waiting.foldl State.writeLost s
  let s := if s.se.pending then ({ s with se := { s.se with pending := false } }).count 0x6001 6 else s
  { s with nvr := { s.nvr with waiting := [] } }

/-- The input leaves its operating range (R45): the gate closes, the CD stops, no new NVR write starts, and OFF follows
when a write in progress completes, or at once. -/
def State.leaveRange (s : State) : State :=
  if s.mode = .off then s.enterOff
  else
    let s := (s.closeGate.cdStop 5).dropWaiting
    let s := { s with power := { s.power with inRange := false, leaving := true, inputLow := false } }
    match s.nvr.writing with
    | some _ => s
    | none => s.enterOff

/-- SELF_OK (R54). -/
def State.selfOk (s : State) : Bool :=
  (match s.mode with
   | .standbyCold | .takeover | .active | .degraded | .safeHold => true
   | _ => false) && !s.power.leaving && !s.cd.pllLatch && !(upTo 13).any (fun j => decide ((s.rail j).st = 4))

/-- Streams that are loaded and have no slot (R141). -/
def State.unplaced (s : State) : List Nat :=
  (s.te.streams.filter (fun p => decide (p.2.loaded = true ∧ p.2.slot = none))).map (·.1)

end Sys2Proof.Machine
end

