-- ==== Sys2Proof/Machine/Gangway.lean ====
section
/-! DEFINITION. The Gangway: nodes and their configuration, the frame's sections bit by bit, ratios, the reply rotation,
replies, management operations and admission to service (R374 to R388). -/

namespace Sys2Proof.Machine

open Sys2Proof

/-! ## Node configuration in effect (R374) -/

def State.population (s : State) : Nat := s.effv 0x1300 1
def State.present (s : State) (a : Nat) : Bool := decide (a < 24) && bitAt s.population a
def State.presentNodes (s : State) : List Nat := (upTo 24).filter s.present
def State.ratingW (s : State) (a : Nat) : Nat := 100 * s.effv (0x1340 + a) 1
def State.nodeChan (s : State) (a : Nat) : Nat := s.effv (0x1340 + a) 2

/-- Word 0 of node `a` as a signal at shift 30, with the rating in effect when it arrives (R381). -/
def State.powerSignal (s : State) (a word : Nat) : Int :=
  ratSig (((signed 16 word : Int) : Rat) * (s.ratingW a : Rat) / 16384 / 1000000)

/-- SET_CARRIER data and acknowledged carrier (R380, R381): [11:0] phase, [14:12] code. -/
def State.carrierWord (s : State) (a : Nat) : Nat :=
  s.effv (0x1340 + a) 3 % 4096 + (s.effv (0x1340 + a) 4 % 8) * 4096

def State.node (s : State) (a : Nat) : Node := tabGet {} s.gw.nodes a
def State.setNode (s : State) (a : Nat) (f : Node → Node) : State :=
  { s with gw := { s.gw with nodes := tabMod {} s.gw.nodes a f } }

def State.inServiceNodes (s : State) : List Nat := s.presentNodes.filter (fun a => (s.node a).inService)
def State.rectsIn (s : State) : List Nat := s.inServiceNodes.filter (fun a => decide (a < 16))
def State.convsIn (s : State) : List Nat := s.inServiceNodes.filter (fun a => decide (16 ≤ a))

/-- Sum of ratings, W. -/
def State.sumRating (s : State) (l : List Nat) : Nat := (l.map s.ratingW).sum

/-- A channel is converter-served while a present node names it (R443). -/
def State.served (s : State) (ch : Nat) : Bool :=
  s.presentNodes.any (fun a => decide (16 ≤ a ∧ s.nodeChan a = ch))

/-- Converter-served channels in ascending order; slots 1 to 4 serve them (R374). -/
def State.servedChans (s : State) : List Nat := (upTo 8).filter s.served

/-- Converters in service of a channel. -/
def State.convsOf (s : State) (ch : Nat) : List Nat := s.convsIn.filter (fun a => decide (s.nodeChan a = ch))

/-- Position in a list. -/
def posIn : List Nat → Nat → Nat
  | [], _ => 0
  | x :: t, y => if x = y then 0 else 1 + posIn t y

/-- Ratio slot of a node (R374). -/
def State.ratioSlot (s : State) (a : Nat) : Nat :=
  if a < 16 then 0 else 1 + posIn s.servedChans (s.nodeChan a)

/-! ## Ratios (R377) -/

/-- The ratio of a power signal over a summed rating: 2^13 × c / Σ, rounded and saturated; 0 when Σ is 0. -/
def ratioOf (c : Int) (sum : Nat) : Int :=
  if sum = 0 then 0 else clampI (rneRat ((2 ^ 13 : Rat) * (sigVal c * 1000000) / (sum : Rat))) (-8192) 8191

/-- The five ratios of the kept references. -/
def State.ratiosNow (s : State) : List Int :=
  let g := max 0 (ratioOf s.ce.kept.grid.value (s.sumRating s.rectsIn))
  let slot (j : Nat) : Int :=
    match s.servedChans[j]? with
    | some ch => ratioOf (tabGet 0 s.ce.kept.parts ch) (s.sumRating (s.convsOf ch))
    | none => 0
  [g, slot 0, slot 1, slot 2, slot 3]

/-! ## Line code (R375) -/

/-- The bits of a field, most significant first. -/
def fieldBits (n v : Nat) : List Bool := ((upTo n).map (fun i => bitAt v (n - 1 - i)))

/-- The value of bits sent most significant first. -/
def bitsVal (l : List Bool) : Nat := l.foldl (fun x b => 2 * x + b2n b) 0

/-- The scrambling sequence of x^7 + x^6 + 1 from a state of ones: the last stage is the output (log entry 8). -/
def lfsrBits : Nat → Nat → List Bool
  | 0, _ => []
  | n + 1, st => bitAt st 6 :: lfsrBits n ((st * 2) % 128 + b2n (bitAt st 6 != bitAt st 5))

/-- Scramble or descramble the bits after a preamble. -/
def scramble (l : List Bool) : List Bool := l.zipWith (fun a b => a != b) (lfsrBits l.length 127)

/-- Pack bits in the order sent, the first at bit 0. -/
def packSent : List Bool → Nat
  | [] => 0
  | b :: t => b2n b + 2 * packSent t

/-- Unpack `n` bits in the order sent. -/
def sentBits (n v : Nat) : List Bool := (upTo n).map (bitAt v)

/-- A section: `front` up to the preamble's end, then `body` and the CRC, scrambled. -/
def section_ (front body : List Bool) : Nat :=
  let crc := fieldBits 8 (crc8 (front ++ body))
  packSent (front ++ scramble (body ++ crc))

/-- The broadcast section (R376). -/
def broadcastBits (frame group : Nat) (hold : Bool) (ratios : List Int) : Nat :=
  section_ (fieldBits 8 0xAB)
    (fieldBits 6 (frame % 64) ++ fieldBits 3 group ++ [hold, false, false] ++
      (ratios.map (fun r => fieldBits 14 (unsigned 14 r))).flatten)

/-- The guard bits and preamble of a short section (R376). -/
def shortFront : List Bool := fieldBits 3 0 ++ fieldBits 4 0xB

/-- The management request section (R376). -/
def requestBits (node op index data : Nat) : Nat :=
  section_ shortFront (fieldBits 5 node ++ fieldBits 3 op ++ fieldBits 2 index ++ fieldBits 16 data)

/-- A reply slot's word 0 and status, if the preamble and CRC are good; the CRC covers the owner's address in front. -/
def parseReply (node bits : Nat) : Option (Nat × Nat) :=
  let l := sentBits 35 bits
  let front := l.take 7
  let rest := scramble (l.drop 7)
  let body := rest.take 20
  if front.drop 3 = fieldBits 4 0xB ∧ bitsVal (rest.drop 20) = crc8 (fieldBits 5 node ++ front ++ body)
  then some (bitsVal (body.take 16), bitsVal (body.drop 16)) else none

/-- A management reply's node, result, index and four words, first word lowest. -/
def parseMgmt (bits : Nat) : Option (Nat × Nat × Nat × List Nat) :=
  let l := sentBits 89 bits
  let front := l.take 7
  let rest := scramble (l.drop 7)
  let body := rest.take 74
  if front.drop 3 = fieldBits 4 0xB ∧ bitsVal (rest.drop 74) = crc8 (front ++ body)
  then
    let w (i : Nat) : Nat := bitsVal ((body.drop (10 + 16 * i)).take 16)
    some (bitsVal (body.take 5), bitsVal ((body.drop 5).take 3), bitsVal ((body.drop 8).take 2), [w 0, w 1, w 2, w 3])
  else none

/-! ## Reply rotation (R378) -/

/-- A reply group has a present node. -/
def State.groupPresent (s : State) (g : Nat) : Bool := (upTo 4).any (fun j => s.present (4 * g + j))

/-- Length of the rotation. -/
def State.rotationLen (s : State) : Nat :=
  let sg := [4, 5].filter s.groupPresent
  let rg := [0, 1, 2, 3].filter s.groupPresent
  if sg = [] then rg.length else if rg = [] then sg.length else 2 * max rg.length sg.length

/-- The group at a position of the rotation. -/
def State.rotationAt (s : State) (p : Nat) : Nat :=
  let sg := [4, 5].filter s.groupPresent
  let rg := [0, 1, 2, 3].filter s.groupPresent
  if sg = [] then rg.getD p 0
  else if rg = [] then sg.getD p 0
  else if p % 2 = 0 then sg.getD ((p / 2) % sg.length) 0 else rg.getD (((p - 1) / 2) % rg.length) 0

/-- A reply of the node is due in the present frame (R379). -/
def State.replyDue (s : State) (a : Nat) : Bool :=
  s.gw.driving && s.present a && decide (a / 4 = s.gw.group)

/-! ## Service (R382) -/

/-- A node enters service. -/
def State.nodeEnter (s : State) (a : Nat) : State :=
  let s := s.setNode a (fun n => { n with inService := true, left := false, word0 := true })
  let s := { s with gw := { s.gw with changeSeen := true } }
  (s.logEvent 0x1001 a).raise irqGangway

/-- A node leaves service, with the reason of NODE_OUT. -/
def State.nodeLeave (s : State) (a reason : Nat) : State :=
  if (s.node a).inService then
    let s := s.setNode a (fun n => { n with inService := false, left := true })
    let s := { s with gw := { s.gw with changeSeen := true } }
    (s.logEvent 0x1002 (packBytes [(1, a), (1, reason)])).raise irqGangway
  else s

/-- Append a management operation for a node (R380). -/
def State.queueOp (s : State) (a op data : Nat) : State :=
  s.setNode a (fun n => { n with ops := n.ops ++ [⟨op, data⟩] })

/-- SET_RATING, SET_SLOT, SET_CARRIER and ENABLE for one node (R382). -/
def State.queueNode (s : State) (a : Nat) : State :=
  (((s.queueOp a 1 (s.effv (0x1340 + a) 1)).queueOp a 2 (s.ratioSlot a)).queueOp a 3 (s.carrierWord a)).queueOp a 4 1

/-- The operations of R382 for those of some nodes whose read-back is not yet known to match. -/
def State.queueNodes (s : State) (l : List Nat) : State :=
  l.foldl (fun s a =>
    let s := s.setNode a (fun n => { n with differs := false })
    if (s.node a).readBack10 && (s.node a).readBack11 then s else s.queueNode a) s

/-- The node's objects have changed (R382, R389): its read-back is unknown again and the operations are queued. -/
def State.nodeChanged (s : State) (a : Nat) : State :=
  (s.setNode a (fun n => { n with differs := false, readBack10 := false, readBack11 := false })).queueNode a

/-- A change of the population or of node objects takes effect (R382, R389): `old` is the population before. -/
def State.populationChange (s : State) (old : Nat) (changed : List Nat) : State :=
  (upTo 24).foldl (fun s a =>
    let was := bitAt old a
    let isNow := s.present a
    if was && !isNow then
      -- what waits for the node is kept until it returns (R388)
      (s.nodeLeave a 5).setNode a (fun n => { n with word0 := false, fresh := false })
    else if isNow && !was then (s.setNode a (fun n => { n with left := false })).nodeChanged a
    else if isNow && decide (a ∈ changed) then s.nodeChanged a
    -- a change queues the operations of every present node whose read-back is not yet known to match (R382, R389)
    else if isNow && !((s.node a).readBack10 && (s.node a).readBack11) then s.queueNode a
    else s) s

/-! ## Replies (R379, R382) -/

/-- Put a measurement word of a node. -/
def putWord (w : Blob) (i v : Nat) : Blob := setBytes w (2 * i) 2 v

/-- Measurement word `w` of a node as received (R381). -/
def State.word (s : State) (a w : Nat) : Nat := bytesAt (s.node a).words (2 * w) 2

/-- A node enters service at the first frame in which its due reply carries IN_SERVICE with FAULT clear, it has been enabled and
no read-back has differed (R382). -/
def State.nodeMayEnter (s : State) (a : Nat) : State :=
  let n := s.node a
  if !n.inService && n.fresh && bitAt n.lastStatus 0 && !bitAt n.lastStatus 1 && n.enabled && !n.differs then s.nodeEnter a else s

/-- A good reply. -/
def State.replyGood (s : State) (a word0 status : Nat) : State :=
  let s := s.setNode a (fun n => { n with missRun := 0, fresh := true, lastStatus := status,
                                          words := putWord n.words 0 word0, power := s.powerSignal a word0 })
  let n := s.node a
  let inS := bitAt status 0
  let fault := bitAt status 1
  if n.inService then
    if !inS then s.nodeLeave a 1 else if fault then s.nodeLeave a 2 else s
  else s.nodeMayEnter a

/-- A missing reply. -/
def State.replyMissing (s : State) (a : Nat) : State :=
  let s := s.setNode a (fun n => { n with missRun := n.missRun + 1 })
  let s := s.count (0x1340 + a) 6
  let s := { s with gw := { s.gw with missSeen := true } }
  if (s.node a).missRun = 3 then s.nodeLeave a 4 else s

/-- Word 0 of a node is missing (R379). -/
def State.word0Missing (s : State) (a : Nat) : Bool := decide (3 ≤ (s.node a).missRun)

/-- Word 1 to 15 of a node is missing (R379). -/
def State.wordMissing (s : State) (a w : Nat) : Bool :=
  decide (3 ≤ tabGet 0 (s.node a).failRun ((w - 1) / 4))

/-! ## Management (R380) -/

/-- Store the words of a READ of index `i`. -/
def readWords (w : Blob) (i : Nat) (vs : List Nat) : Blob :=
  (upTo (if i = 3 then 3 else 4)).foldl (fun w j => putWord w (4 * i + 1 + j) (vs.getD j 0)) w

/-- Judge the read-back of words 10 and 11 (R382). -/
def State.readBack (s : State) (a : Nat) : State :=
  let r := s.word a 10
  let c := s.word a 11
  let okR := decide (r = s.effv (0x1340 + a) 1)
  let okC := decide (c = s.carrierWord a)
  let s := s.setNode a (fun n => { n with readBack10 := okR, readBack11 := okC, differs := n.differs || !okR || !okC })
  let s := if okR && okC then s else s.nodeLeave a 3
  let s := if okR then s else s.queueOp a 1 (s.effv (0x1340 + a) 1)
  if okC then s else s.queueOp a 3 (s.carrierWord a)

/-- A management result other than 0 (R387, R389). -/
def State.mgmtFail (s : State) (a : Nat) : State :=
  let s := s.count (0x1340 + a) 8
  { s with gw := { s.gw with mgmtFailSeen := true } }

/-- Remove the oldest operation of a node. -/
def State.dropOp (s : State) (a : Nat) : State := s.setNode a (fun n => { n with ops := n.ops.drop 1 })

/-- A management reply is good. -/
def State.mgmtGood (s : State) (a result : Nat) (vs : List Nat) : State :=
  let op := s.gw.mgmtOp
  let i := s.gw.mgmtIndex
  if op.op = 0 then
    if result = 0 then
      let s := s.setNode a (fun n => { n with words := readWords n.words i vs, failRun := tabPut 0 n.failRun i 0,
                                              nextIndex := (i + 1) % 4 })
      if i = 2 then s.readBack a else s
    else
      let s := (s.mgmtFail a).setNode a (fun n => { n with failRun := tabMod 0 n.failRun i (· + 1) })
      if result = 1 ∨ result = 2 then s.setNode a (fun n => { n with nextIndex := (i + 1) % 4 }) else s
  else
    let s := s.setNode a (fun n => { n with words := readWords n.words 0 vs })
    if result = 0 then
      let s := s.dropOp a
      if op.op = 4 then (s.setNode a (fun n => { n with enabled := decide (op.data = 1) })).nodeMayEnter a else s
    else if result = 1 ∨ result = 2 then (s.mgmtFail a).dropOp a
    else s.mgmtFail a

/-- A management reply is absent or fails its CRC (R379, R380). -/
def State.mgmtAbsent (s : State) (a : Nat) : State :=
  if s.gw.mgmtOp.op = 0 then
    s.setNode a (fun n => { n with failRun := tabMod 0 n.failRun s.gw.mgmtIndex (· + 1) })
  else s

/-- The node addressed next: present nodes in ascending order, round robin. -/
def State.nextMgmtNode (s : State) : Option Nat :=
  let l := s.presentNodes
  match s.gw.mgmtNode with
  | none => l.head?
  | some a =>
    match l.filter (fun b => decide (a < b)) with
    | b :: _ => some b
    | [] => l.head?

/-- Send the management request of the frame. -/
def State.sendMgmt (s : State) : State :=
  match s.nextMgmtNode with
  | none => { s with gw := { s.gw with mgmtNode := none } }
  | some a =>
    let n := s.node a
    let op : MgmtOp := match n.ops with
      | o :: _ => if s.mode = .safeHold then ⟨0, 0⟩ else o
      | [] => ⟨0, 0⟩
    let s := { s with gw := { s.gw with mgmtNode := some a, mgmtOp := op, mgmtIndex := n.nextIndex } }
    s.emit (.mgmtRequest (requestBits a op.op (if op.op = 0 then n.nextIndex else 0) op.data))

/-! ## The frame -/

/-- Broadcasts are sent in this state (R385). -/
def State.drives (s : State) : Bool :=
  s.power.gate &&
  (match s.mode with
   | .takeover => s.ce.inService
   | .active | .degraded => true
   | .safeHold => !s.hold.limit
   | _ => false)

/-- The Gangway part of a frame boundary: broadcast, contention and management request (R376 to R380, R385, R386). -/
def State.gangwayFrame (s : State) (differs : Bool) : State :=
  let s := { s with gw := { s.gw with nodes := tabMap {} (fun n => { n with fresh := false }) s.gw.nodes } }
  if s.drives then
    let pos := if s.gw.driving then (if s.gw.position + 1 < s.rotationLen then s.gw.position + 1 else 0) else 0
    let hold := decide (s.mode = .safeHold)
    let ratios := if hold then s.gw.ratios else s.ratiosNow
    let group := s.rotationAt pos
    let s := { s with gw := { s.gw with driving := true, hold := hold, position := pos, group := group,
                                        ratios := ratios } }
    let s := (s.emit (.broadcast (broadcastBits s.frame group hold ratios))).count64 0x1300 3
    let s :=
      if differs then
        let s := s.count 0x1300 4
        let s := { s with gw := { s.gw with contention := s.gw.contention + 1, contentionSeen := true } }
        if s.gw.contention = 3 then (s.logEvent 0x1003 (s.odv 0x1300 4)).raise irqGangway else s
      else { s with gw := { s.gw with contention := 0 } }
    s.sendMgmt
  else { s with gw := { s.gw with driving := false, hold := false, group := 0, mgmtNode := none, contention := 0 } }

/-- GANGWAY_STATUS (R387). -/
def State.gangwayStatus (s : State) : Nat :=
  b2n s.gw.driving + 2 * b2n s.gw.hold + (s.gw.group % 8) <<< 5 + ((s.gw.mgmtNode.getD 0) % 32) <<< 8 +
  (b2n s.gw.missSeen) <<< 16 + (b2n s.gw.contentionSeen) <<< 17 + (b2n s.gw.changeSeen) <<< 18 +
  (b2n s.gw.mgmtFailSeen) <<< 19

/-- Node state, OD 0x1340 + a .05 (R389). -/
def State.nodeState (s : State) (a : Nat) : Nat :=
  let n := s.node a
  if !s.present a then 0 else if n.inService then 2
  else if n.left || (n.enabled && n.readBack10 && n.readBack11) then 3 else 1

/-! ## Measurement signals (R381) -/

/-- Word `w` of node `a` as a signal at shift 30. -/
def State.wordSignal (s : State) (a w : Nat) : Int :=
  let u : Rat := (s.word a w : Rat)
  let i : Rat := ((signed 16 (s.word a w) : Int) : Rat)
  if w = 0 then (s.node a).power
  else if w = 1 then ratSig (u * 2 / 100 / 800)
  else if w = 2 ∨ w = 4 then ratSig (i * 5 / 100 / 1250)
  else if w = 3 then ratSig (u / 10 / 800)
  else if w = 5 ∨ w = 6 then ratSig (i / 100 / 100)
  else if w = 9 then ratSig (u / 65536)
  else if 13 ≤ w then ratSig (i / 32768)
  else ratSig (u / 32768)

/-- The swing limits of R21 and R22, W, with the converters that were in service when the frame began: fast and sustained. -/
def State.swingFast (s : State) : Nat := if s.gw.convs < 8 then min 1600000 (200000 * s.gw.convs) else 1600000
def State.swingSustained (s : State) : Nat := if s.gw.convs < 8 then min 600000 (200000 * s.gw.convs) else 600000

/-- The frame begins: the swing limits follow the converters in service (R22). -/
def State.latchConvs (s : State) : State := { s with gw := { s.gw with convs := s.convsIn.length } }

/-- Rectifier capacity in service, W, never more than R21 allows (R259). -/
def State.rectCapacity (s : State) : Nat := min (s.sumRating s.rectsIn) 1000000

/-- The grid limit of R260 in force; before the first period, the one of a planned draw within the budget. -/
def State.gridLimitW (s : State) : Rat :=
  match s.bm.gridLimit with
  | some x => x
  | none => min (s.rectCapacity : Rat) (s.effv 0x4001 1 : Rat)

end Sys2Proof.Machine
end

