-- ==== Sys2Proof/Machine/Te.lean ====
section
/-! DEFINITION. The number formats and the arithmetic of the tensor engine (R110 to R130), as functions of exact
numbers. -/

namespace Sys2Proof.Machine

open Sys2Proof

/-! ## Numbers -/

/-- A number of the TE: NaN, an infinity, or a finite value as sign and magnitude (R113 to R119). -/
inductive Num where
  | nan
  | inf (neg : Bool)
  | fin (neg : Bool) (mag : Rat)
  deriving DecidableEq, Repr

/-- A power of two with an integer exponent. -/
def pow2 (k : Int) : Rat := if 0 ≤ k then (2 ^ k.toNat : Rat) else 1 / (2 ^ (-k).toNat : Rat)

/-- The value of a finite number; 0 for the others. -/
def Num.val : Num → Rat
  | .fin neg m => if neg then -m else m
  | _ => 0

/-- A finite number of a rational value. -/
def Num.of (x : Rat) : Num := if x < 0 then .fin true (-x) else .fin false x

/-- The largest `e` with `2^e` not above a positive rational. -/
def floorLog2 (x : Rat) : Int :=
  let d : Int := (Nat.log2 x.num.toNat : Int) - Nat.log2 x.den
  if pow2 (d + 1) ≤ x then d + 1 else if pow2 d ≤ x then d else d - 1

/-! ## Floating formats (R113, R114) -/

/-- Fields of a floating format: exponent and mantissa width, bias, and whether it has infinities. -/
structure FF where
  eb : Nat
  mb : Nat
  bias : Nat
  hasInf : Bool
  deriving DecidableEq, Repr

def ffFp32 : FF := ⟨8, 23, 127, true⟩
def ffBf16 : FF := ⟨8, 7, 127, true⟩
def ffFp16 : FF := ⟨5, 10, 15, true⟩
def ffE4m3 : FF := ⟨4, 3, 7, false⟩
def ffE5m2 : FF := ⟨5, 2, 15, true⟩

/-- The floating format of a format code (R153). -/
def ffOf : Nat → Option FF
  | 0 => some ffFp32 | 1 => some ffBf16 | 2 => some ffFp16 | 3 => some ffE4m3 | 4 => some ffE5m2 | _ => none

/-- Read an encoding. -/
def FF.decode (f : FF) (b : Nat) : Num :=
  let m := fld b 0 f.mb
  let e := fld b f.mb f.eb
  let neg := bitAt b (f.mb + f.eb)
  if e = 2 ^ f.eb - 1 ∧ f.hasInf then (if m = 0 then .inf neg else .nan)
  else if e = 2 ^ f.eb - 1 ∧ m = 2 ^ f.mb - 1 then .nan
  else if e = 0 then .fin neg ((m : Rat) * pow2 (1 - (f.bias : Int) - f.mb))
  else .fin neg (((2 ^ f.mb + m : Nat) : Rat) * pow2 ((e : Int) - f.bias - f.mb))

/-- Exponent of the unit in the last place at a positive magnitude. -/
def FF.unitExp (f : FF) (x : Rat) : Int := max (floorLog2 x) (1 - (f.bias : Int)) - f.mb

/-- The largest finite magnitude. -/
def FF.maxFin (f : FF) : Rat :=
  if f.hasInf then ((2 ^ (f.mb + 1) - 1 : Nat) : Rat) * pow2 ((2 ^ f.eb - 2 : Nat) - (f.bias : Int) - f.mb)
  else ((2 ^ (f.mb + 1) - 2 : Nat) : Rat) * pow2 ((2 ^ f.eb - 1 : Nat) - (f.bias : Int) - f.mb)

/-- Write a number that the format represents; NaN in its canonical encoding. -/
def FF.encode (f : FF) : Num → Nat
  | .nan => (2 ^ f.eb - 1) * 2 ^ f.mb + (if f.hasInf then 2 ^ (f.mb - 1) else 2 ^ f.mb - 1)
  | .inf neg => (2 ^ f.eb - 1) * 2 ^ f.mb + b2n neg * 2 ^ (f.mb + f.eb)
  | .fin neg m =>
    let body :=
      if m ≤ 0 then 0
      else
        let u := f.unitExp m
        let q := (floorRat (m / pow2 u)).toNat
        if q < 2 ^ f.mb then q else (u + f.mb + f.bias).toNat * 2 ^ f.mb + (q - 2 ^ f.mb)
    body + b2n neg * 2 ^ (f.mb + f.eb)

/-! ## Rounding (R129, R130) -/

/-- Round a magnitude in units: to nearest even, or stochastically against the 16-bit value `r`. -/
def roundMag (rm : Option Nat) (q : Rat) : Nat :=
  match rm with
  | none => (rneRat q).toNat
  | some r =>
    let n := (floorRat q).toNat
    let d := (floorRat ((q - n) * 65536)).toNat
    if r < d then n + 1 else n

/-- Round a signed value to an integer by its magnitude. -/
def roundVal (rm : Option Nat) (x : Rat) : Int :=
  if x < 0 then -(roundMag rm (-x) : Int) else (roundMag rm x : Int)

/-- The mixing function of R130. -/
def mix64 (z : Nat) : Nat :=
  let z := z % 2 ^ 64
  let z := ((z ^^^ (z >>> 30)) * 0xBF58476D1CE4E5B9) % 2 ^ 64
  let z := ((z ^^^ (z >>> 27)) * 0x94D049BB133111EB) % 2 ^ 64
  z ^^^ (z >>> 31)

/-- The random value of R130. -/
def srValue (seed f i e : Nat) : Nat :=
  (mix64 ((seed ^^^ mix64 f) ^^^ ((i % 2 ^ 16) <<< 24 ||| e % 2 ^ 24))) % 65536

/-- Convert a number to a floating format, rounding and overflowing (R126 to R128); `true` where it saturates. -/
def FF.convert (f : FF) (rm : Option Nat) (toInf : Bool) : Num → Num × Bool
  | .nan => (.nan, false)
  | .inf neg => if f.hasInf then (.inf neg, false) else (.fin neg f.maxFin, true)
  | .fin neg m =>
    if m ≤ 0 then (.fin neg 0, false)
    else
      let u := pow2 (f.unitExp m)
      let r := (roundMag rm (m / u) : Rat) * u
      if f.maxFin < r then (if toInf && f.hasInf then (.inf neg, false) else (.fin neg f.maxFin, true))
      else (.fin neg r, false)

/-! ## Exact arithmetic of numbers (R120, R128) -/

/-- The exact sum. -/
def Num.add : Num → Num → Num
  | .nan, _ => .nan
  | _, .nan => .nan
  | .inf a, .inf b => if a = b then .inf a else .nan
  | .inf a, _ => .inf a
  | _, .inf b => .inf b
  | .fin a x, .fin b y =>
    let v := Num.val (.fin a x) + Num.val (.fin b y)
    if v = 0 then .fin (a && b) 0 else Num.of v

/-- The exact product. -/
def Num.mul : Num → Num → Num
  | .nan, _ => .nan
  | _, .nan => .nan
  | .inf a, .inf b => .inf (a != b)
  | .inf a, .fin b y => if y = 0 then .nan else .inf (a != b)
  | .fin a x, .inf b => if x = 0 then .nan else .inf (a != b)
  | .fin a x, .fin b y => .fin (a != b) (x * y)

/-- The order of two numbers that are not NaN. -/
def Num.lt : Num → Num → Bool
  | .inf a, .inf b => a && !b
  | .inf a, _ => a
  | _, .inf b => !b
  | x, y => decide (x.val < y.val)

/-- A NaN. -/
def Num.isNan (n : Num) : Bool := decide (n = .nan)

/-! ## Element storage (R115 to R119, R153) -/

/-- Bytes of one element; B4 is stored in blocks. -/
def fmtSize : Nat → Nat
  | 0 => 4 | 1 => 2 | 2 => 2 | 3 => 1 | 4 => 1 | 5 => 1 | 7 => 8 | 8 => 4 | _ => 0

/-- Bytes of a row of `k` elements (R156). -/
def rowBytes (fmt k : Nat) : Nat := if fmt = 6 then 34 * ceilDiv k 64 else fmtSize fmt * k

/-- Element `j` of a B4 block (R116, R117). -/
def b4Elem (block j : Nat) : Num :=
  let h := fld block 0 16
  let q := signed 4 (fld block (16 + 4 * j) 4)
  Num.of ((q : Rat) * pow2 ((fld h 0 6 : Int) - 31 - (fld h (8 + 2 * (j / 16)) 2 : Nat)))

/-- Element `k` of row `row` in rows of `len` elements. -/
def elemAt (fmt : Nat) (b : Blob) (len row k : Nat) : Num :=
  let base := row * rowBytes fmt len
  if fmt = 6 then b4Elem (bytesAt b (base + 34 * (k / 64)) 34) (k % 64)
  else
    let raw := bytesAt b (base + k * fmtSize fmt) (fmtSize fmt)
    match ffOf fmt with
    | some f => f.decode raw
    | none =>
      if fmt = 5 then Num.of (signed 8 raw : Int)
      else if fmt = 7 then Num.of (q32Val (q32Of raw))
      else Num.of (raw : Rat)

/-- B4 blocks of an operand whose reserved header bits are not zero (R117). -/
def b4Reserved (fmt : Nat) (b : Blob) (bytes : Nat) : Nat :=
  if fmt = 6 then ((upTo (bytes / 34)).filter (fun i => decide (fld (bytesAt b (34 * i) 2) 6 2 ≠ 0))).length else 0

/-! ## Accumulation (R120 to R125) -/

/-- An accumulator: FP32, or an integer of 72 bits at a shift. -/
inductive Acc72 where
  | fp (n : Num)
  | int (a : Int) (shift : Nat)
  deriving DecidableEq, Repr

/-- Saturate to 72 bits. -/
def sat72 (x : Int) : Int := clampI x (-(2 ^ 71)) (2 ^ 71 - 1)

/-- The exact value of an accumulator. -/
def Acc72.num : Acc72 → Num
  | .fp n => n
  | .int a s => Num.of ((a : Rat) / (2 ^ s : Rat))

/-- The exact sum of a group's products. -/
def groupSum (l : List (Num × Num)) : Num := l.foldl (fun t p => t.add (p.1.mul p.2)) (.fin false 0)

/-- Groups of 16 consecutive reduction indices below `k` (R120). -/
def groups (k : Nat) : List (List Nat) :=
  (upTo (ceilDiv k 16)).map (fun g => ((upTo 16).map (16 * g + ·)).filter (· < k))

/-- Accumulate one output element of a floating or B4 pairing (R121, R122, R127). -/
def accumulateFp (toInf : Bool) (start : Num) (gs : List (List (Num × Num))) : Num :=
  gs.foldl (fun n g => (ffFp32.convert none toInf (n.add (groupSum g))).1) start

/-- Bring an exact integer of a shift to the accumulator's shift; `true` where the left shift saturates (R124). -/
def alignAcc (sacc : Nat) (p : Int × Nat) : Int × Bool :=
  if sacc < p.2 then (rneShift p.1 (p.2 - sacc), false)
  else
    let x := p.1 * 2 ^ (sacc - p.2)
    (sat72 x, decide (sat72 x ≠ x))

/-- The group sum at the accumulator's shift: products of one shift are summed exactly and brought there once; products
of differing shifts are brought there one by one and then summed (R124). -/
def alignGroup (sacc : Nat) (l : List (Int × Nat)) : Int × Bool :=
  let shift := (l.map (·.2)).headD 0
  if l.all (fun p => decide (p.2 = shift)) then alignAcc sacc ((l.map (·.1)).sum, shift)
  else
    let parts := l.map (alignAcc sacc)
    ((parts.map (·.1)).sum, parts.any (·.2))

/-- Accumulate one output element of an integer pairing from products and their shifts; `true` where the accumulator
saturates (R123 to R125). -/
def accumulateInt (sacc : Nat) (start : Int × Bool) (gs : List (List (Int × Nat))) : Int × Bool :=
  gs.foldl (fun a g =>
    let part := alignGroup sacc g
    let sum := a.1 + part.1
    (sat72 sum, a.2 || part.2 || decide (sat72 sum ≠ sum))) start

/-- The starting accumulator of a floating or B4 pairing: zero, or the accumulator operand (R121).  DESIGN CHOICE (log
entry 94): an operand of another format is rounded to nearest even to FP32, since the specification does not say how it
is brought in. -/
def startFp : Option Num → Num
  | none => .fin false 0
  | some n => (ffFp32.convert none false n).1

/-- The starting accumulator of an integer pairing, with its saturation (R124, R125).  DESIGN CHOICE (log entry 94): an
operand is rounded to nearest even at the accumulator's shift, and an infinity or NaN becomes 0, since the specification
does not say how an operand of another format or shift is brought in. -/
def startInt (sacc : Nat) : Option Num → Int × Bool
  | none => (0, false)
  | some n =>
    let x := rneRat (n.val * (2 ^ sacc : Rat))
    (sat72 x, decide (sat72 x ≠ x))

/-! ## Output conversion (R118, R126 to R128) -/

/-- What conversions count: saturations, NaN results, B4 exceptions, accumulator saturations. -/
structure TeCount where
  sat : Nat := 0
  nan : Nat := 0
  b4 : Nat := 0
  acc : Nat := 0
  deriving DecidableEq, Repr

def TeCount.add (a b : TeCount) : TeCount := ⟨a.sat + b.sat, a.nan + b.nan, a.b4 + b.b4, a.acc + b.acc⟩

/-- Rounding mode and overflow mode that a command uses: the stream's, with the seed, run frame and command index. -/
structure TeMode where
  stochastic : Bool := false
  seed : Nat := 0
  frame : Nat := 0
  command : Nat := 0
  toInf : Bool := false
  deriving DecidableEq, Repr

/-- The rounding of output element `e`. -/
def TeMode.rm (m : TeMode) (e : Nat) : Option Nat :=
  if m.stochastic then some (srValue m.seed m.frame m.command e) else none

/-- Round to an integer and saturate; NaN gives 0, an infinity the end of the range. -/
def toInt (rm : Option Nat) (lo hi : Int) (scale : Rat) : Num → Int × Bool
  | .nan => (0, false)
  | .inf neg => (if neg then lo else hi, true)
  | n =>
    let v := roundVal rm (n.val * scale)
    (clampI v lo hi, decide (v < lo ∨ hi < v))

/-- Convert one accumulator to a format other than B4: the stored bytes and what is counted. -/
def convertOne (m : TeMode) (fmt shift e : Nat) (a : Acc72) : Nat × TeCount :=
  match ffOf fmt with
  | some f =>
    let r := match fmt, a with
      | 0, .fp n => (n, false)
      | _, a => f.convert (m.rm e) m.toInf a.num
    (f.encode r.1, { sat := b2n r.2, nan := b2n r.1.isNan })
  | none =>
    if fmt = 5 then
      let r := match a with
        | .fp n => toInt (m.rm e) (-128) 127 1 n
        | .int x _ => toInt (m.rm e) (-128) 127 (1 / (2 ^ shift : Rat)) (Num.of (x : Rat))
      (unsigned 8 r.1, { sat := b2n r.2 })
    else
      let r := toInt (m.rm e) (-(2 ^ 31)) (2 ^ 31 - 1) (2 ^ shift : Rat) a.num
      (q32Raw ⟨r.1, shift⟩, { sat := b2n r.2 })

/-- The largest finite magnitude of a list, 0 if none. -/
def maxMag (l : List Num) : Rat :=
  l.foldl (fun t n => match n with | .fin _ m => max t m | _ => t) 0

/-- The smallest `n` below `k` with `p`, or the default. -/
def leastOr (d k : Nat) (p : Nat → Bool) : Nat := ((upTo k).find? p).getD d

/-- Quantise up to 64 values into one B4 block (R118); `e0` is the output index of the first. -/
def b4Block (m : TeMode) (e0 : Nat) (xs : List Num) : Nat × TeCount :=
  let group := fun g => ((upTo 16).map (fun j => xs.getD (16 * g + j) (.fin false 0)))
  let mg := (upTo 4).map (fun g => maxMag (group g))
  let top := mg.foldl max 0
  let ex := leastOr 63 64 (fun e => decide (top ≤ 7 * pow2 ((e : Int) - 31)))
  let sh := mg.map (fun x => ((upTo 4).reverse.find? (fun s => decide (x ≤ 7 * pow2 ((ex : Int) - 31 - (s : Nat))))).getD 0)
  let head := ex + (sh.getD 0 0) * 256 + (sh.getD 1 0) * 1024 + (sh.getD 2 0) * 4096 + (sh.getD 3 0) * 16384
  let one := fun i =>
    let x := xs.getD i (.fin false 0)
    let u := pow2 ((ex : Int) - 31 - (sh.getD (i / 16) 0 : Nat))
    match x with
    | .nan => ((0 : Int), ({ b4 := 1 } : TeCount))
    | .inf neg => (if neg then -8 else 7, { b4 := 1, sat := 1 })
    | x =>
      let q := roundVal (m.rm (e0 + i)) (x.val / u)
      (clampI q (-8) 7, { sat := b2n (decide (q < -8 ∨ 7 < q)) })
  let qs := (upTo 64).map one
  (head + (pack (qs.map (fun q => (4, unsigned 4 q.1)))) <<< 16,
   qs.foldl (fun t q => t.add q.2) {})

/-- Convert a row-major result of `rows` rows of `cols` elements into its stored bytes (R126). -/
def convertRows (m : TeMode) (fmt shift rows cols : Nat) (a : Nat → Acc72) : Blob × TeCount :=
  if fmt = 6 then
    let blocks := (upTo rows).flatMap (fun r => (upTo (ceilDiv cols 64)).map (fun b =>
      b4Block m (r * cols + 64 * b)
        (((upTo 64).filter (fun j => decide (64 * b + j < cols))).map (fun j => (a (r * cols + 64 * b + j)).num))))
    (packBytes (blocks.map (fun b => (34, b.1))), blocks.foldl (fun t b => t.add b.2) {})
  else
    let es := (upTo (rows * cols)).map (fun e => convertOne m fmt shift e (a e))
    (packBytes (es.map (fun e => (fmtSize fmt, e.1))), es.foldl (fun t e => t.add e.2) {})

/-- Element `k` of row `row` as an integer and its shift, for the INT8 and Q32 pairings (R115, R119). -/
def intAt (fmt : Nat) (b : Blob) (len row k : Nat) : Int × Nat :=
  let raw := bytesAt b (row * rowBytes fmt len + k * fmtSize fmt) (fmtSize fmt)
  if fmt = 7 then ((q32Of raw).v, (q32Of raw).s) else (signed 8 raw, 0)

/-- The accumulator of one output element of a matrix command, and whether it saturated. -/
def matCell (toInf : Bool) (fa fb sacc k r c : Nat) (a b : Blob) (start : Option Num) : Acc72 × Bool :=
  if fa = 5 ∨ fa = 7 then
    let sh := if fa = 7 then sacc else 0
    let x := accumulateInt sh (startInt sh start) ((groups k).map (fun g => g.map (fun i =>
      let p := intAt fa a k r i
      let q := intAt fb b k c i
      (p.1 * q.1, p.2 + q.2))))
    (.int x.1 sh, x.2)
  else
    (.fp (accumulateFp toInf (startFp start)
      ((groups k).map (fun g => g.map (fun i => (elemAt fa a k r i, elemAt fb b k c i))))), false)

/-- MATMUL (R117, R120 to R128, R156, R157): the stored result and what is counted. -/
def matmul (m : TeMode) (fa fb fo sacc shift k rows cols : Nat) (a b : Blob) (acc : Option Blob) : Blob × TeCount :=
  let cell := fun e =>
    matCell m.toInf fa fb sacc k (e / cols) (e % cols) a b (acc.map (fun z => elemAt fo z cols (e / cols) (e % cols)))
  let r := convertRows m fo shift rows cols (fun e => (cell e).1)
  let accs := ((upTo (rows * cols)).filter (fun e => (cell e).2)).length
  let blocks := b4Reserved fa a (rows * rowBytes fa k) + b4Reserved fb b (cols * rowBytes fb k) +
    (match acc with | some z => b4Reserved fo z (rows * rowBytes fo cols) | none => 0)
  (r.1, r.2.add { acc := accs, b4 := blocks })

/-- The matrix pairings of R111. -/
def pairingOk (fa fb : Nat) : Bool :=
  let both := fun (l : List Nat) => decide (fa ∈ l) && decide (fb ∈ l)
  both [3, 4] || both [1, 2] || both [0] || both [6] || both [5] || both [7]

/-- MAC per core and cycle of a pairing (R110). -/
def macRate (fa : Nat) : Nat :=
  match fa with | 3 | 4 | 5 => 4096 | 6 => 8192 | 1 | 2 => 1024 | 0 => 256 | _ => 64

/-- Vector lanes of a format (R112).  DESIGN CHOICE (log entry 94): B4, Q32 and U32, for which R112 gives no number, use
the 64 lanes of FP32. -/
def lanes (fmt : Nat) : Nat := match fmt with | 1 | 2 => 128 | 3 | 4 | 5 => 256 | _ => 64

/-! ## The vector unit (R112, R156) -/

/-- The natural logarithm of 2 to 36 decimal places. -/
def ln2 : Rat := 693147180559945309417232121458176568 / 10 ^ 36

/-- `2^x` to far better than the accuracy of R112. -/
def exp2Near (x : Rat) : Rat :=
  let x := clampR x (-400) 400
  let n := floorRat x
  let t := (x - n) * ln2
  let sum := (upTo 25).foldl (fun (p : Rat × Rat) k => (p.1 + p.2, p.2 * t / ((k + 1 : Nat) : Rat))) (0, 1)
  pow2 n * sum.1

/-- `log2 x` of a positive value. -/
def log2Near (x : Rat) : Rat :=
  let e := floorLog2 x
  let m := x / pow2 e
  let z := (m - 1) / (m + 1)
  let sum := (upTo 24).foldl (fun (p : Rat × Rat) k => (p.1 + p.2 / ((2 * k + 1 : Nat) : Rat), p.2 * z * z)) (0, z)
  e + 2 * sum.1 / ln2

/-- `1 / √x` of a positive value. -/
def rsqrtNear (x : Rat) : Rat :=
  ((Nat.sqrt (floorRat (2 ^ 400 / x)).toNat : Nat) : Rat) / 2 ^ 200

/-- A function of the vector unit near its exact value, and the largest error R112 allows: (value, error). -/
def vecExact (sub : Nat) (x : Rat) : Option (Rat × Rat) :=
  let ulps := fun (n : Nat) (y : Rat) => (y, (n : Rat) * (if y = 0 then pow2 (-149) else pow2 (ffFp32.unitExp (absR y))))
  match sub with
  | 6 => if x = 0 then none else some (ulps 1 (1 / x))
  | 7 => if x ≤ 0 then none else some (ulps 1 (rsqrtNear x))
  | 8 => some (ulps 2 (exp2Near x))
  | 9 => if x ≤ 0 then none else some (ulps 2 (log2Near x))
  | 10 =>
    let c := clampR x (-40) 40
    let u := exp2Near (2 * c / ln2)
    some ((u - 1) / (u + 1), pow2 (-22))
  | _ =>
    let c := clampR x (-80) 80
    some (1 / (1 + exp2Near (-c / ln2)), pow2 (-22))

/-- A value that FP32 represents within `err` of `y`: the one at the free deviation `e` where that lies within the
error, otherwise `y` correctly rounded; `true` where it saturates (R112, R127). -/
def fpWithin (toInf : Bool) (y err e : Rat) : Num × Bool :=
  let r := ffFp32.convert none toInf (Num.of (y + clampR e (-1) 1 * err))
  match r.1 with
  | .fin neg m => if absR (Num.val (.fin neg m) - y) ≤ err ∧ r.2 = false then r else ffFp32.convert none toInf (Num.of y)
  | _ => ffFp32.convert none toInf (Num.of y)

/-- A function of one operand: a value within the accuracy of R112 of the exact one, with a free deviation, or a free value
where the specification states no result; `true` where a finite result saturates (R127, R128). -/
def vecFn (sub : Nat) (toInf : Bool) (x : Num) : Num × Bool :=
  let bits := ffFp32.encode x
  match x with
  | .nan => (.nan, false)
  | .inf _ => (ffFp32.decode (Config.vecOpen sub bits % 2 ^ 32), false)
  | x =>
    match vecExact sub x.val with
    | some (y, err) => fpWithin toInf y err (Config.vecError sub bits)
    | none => (ffFp32.decode (Config.vecOpen sub bits % 2 ^ 32), false)

/-- An elementwise operation in FP32; `true` where the FP32 result saturates. -/
def vecOp (sub : Nat) (toInf : Bool) (x y z : Num) : Num × Bool :=
  let fp := ffFp32.convert none toInf
  match sub with
  | 0 => fp (x.add y)
  | 1 => fp (x.mul y)
  | 2 => fp ((x.mul y).add z)
  | 3 => if x.isNan || y.isNan then (.nan, false) else fp (if y.lt x then y else x)
  | 4 => if x.isNan || y.isNan then (.nan, false) else fp (if x.lt y then y else x)
  | 5 => if x.isNan || y.isNan then (.nan, false) else (.fin false (if y.lt x then 1 else 0), false)
  | 12 => fp x
  | _ => vecFn sub toInf (fp x).1

/-- Operands that a VECTOR operation reads: X, Y, Z. -/
def vecUses (sub : Nat) : Bool × Bool × Bool :=
  (true, decide (sub ≤ 5), decide (sub = 2))

/-- Number of elements a VECTOR operation writes.  DESIGN CHOICE (log entry 94): where the count is no multiple of the
group length, the last, shorter group gives one more element. -/
def vecOut (sub n len : Nat) : Nat := if sub = 13 ∨ sub = 14 then (if len = 0 then 0 else ceilDiv n len) else n

/-- VECTOR (R156): the stored result and what is counted.  DESIGN CHOICE (log entry 106): Z is read in FMT_OUT, which R152 gives
to the output and the accumulator operand. -/
def vector (m : TeMode) (sub fa fb fo shift n len : Nat) (x y z : Blob) : Blob × TeCount :=
  let el := fun (f : Nat) (b : Blob) i => elemAt f b n 0 i
  let out := vecOut sub n len
  let cell := fun e =>
    if sub = 13 then
      let l := ((upTo len).map (e * len + ·)).filter (· < n)
      ffFp32.convert none m.toInf (l.foldl (fun t i => t.add (el fa x i)) (.fin false 0))
    else if sub = 14 then
      let l := (((upTo len).map (e * len + ·)).filter (· < n)).map (el fa x)
      if l.any Num.isNan then (.nan, false)
      else ffFp32.convert none m.toInf (l.tail.foldl (fun t v => if t.lt v then v else t) (l.headD (.fin false 0)))
    else vecOp sub m.toInf (el fa x e) (el fb y e) (el fo z e)
  let r := convertRows m fo shift 1 out (fun e => .fp (cell e).1)
  let sats := if fo = 0 then ((upTo out).filter (fun e => (cell e).2)).length else 0
  let blocks := fun (use : Bool) (f : Nat) (b : Blob) => if use then b4Reserved f b (rowBytes f n) else 0
  let u := vecUses sub
  (r.1, r.2.add { sat := sats, b4 := blocks u.1 fa x + blocks u.2.1 fb y + blocks u.2.2 fo z })

end Sys2Proof.Machine
end

