-- ==== Sys2Proof/Machine/Image.lean ====
section
/-! DEFINITION. Model images and their commands: header, buffer table, validation, extents, placement and the deadline
check (R149 to R160, R174 to R180). -/

namespace Sys2Proof.Machine

open Sys2Proof

/-! ## Commands (R152 to R156) -/

/-- Word `i` of a 32-byte command. -/
def cmdWord (c : Blob) (i : Nat) : Nat := fld c (32 * i) 32
def cmdOp (c : Blob) : Nat := fld c 0 8
def cmdFa (c : Blob) : Nat := fld c 8 4
def cmdFb (c : Blob) : Nat := fld c 12 4
def cmdFo (c : Blob) : Nat := fld c 16 4
def cmdSub (c : Blob) : Nat := fld c 20 4
def cmdFlag (c : Blob) : Bool := bitAt c 24

/-- PARAM of a count word. -/
def cmdParam (c : Blob) (i : Nat) : Nat := fld (cmdWord c i) 24 6

/-- Value of a count word over scalar registers (R155). -/
def countOf (regs : Nat → Nat) (w : Nat) : Nat := if bitAt w 31 then regs (fld w 0 4) else fld w 0 24

/-- Buffer index of an operand word (R154). -/
def opBuf (w : Nat) : Nat := fld w 27 5

/-- Byte offset of an operand word into its buffer (R154). -/
def opOff (regs : Nat → Nat) (w : Nat) : Nat := if bitAt w 26 then fld w 0 22 + regs (fld w 22 4) else fld w 0 26

/-- Command `i` of a program. -/
def Model.cmd (m : Model) (i : Nat) : Blob := bytesAt m.prog (32 * i) 32

/-- Number of commands of a program. -/
def Model.cmds (m : Model) : Nat := m.progLen / 32

/-- One operand that a command touches: its word, whether it is written, and its extent in bytes (R160). -/
structure Use where
  word : Nat
  write : Bool
  len : Nat
  deriving DecidableEq, Repr

/-- The count words of an opcode. -/
def countWords (op : Nat) : List Nat :=
  match op with
  | 0x01 => [5, 6, 7] | 0x02 => [5, 6] | 0x03 => [5] | 0x04 => [5, 6] | 0x0B => [5] | _ => []

/-- Operands and extents of a command whose count words have the values `n` (R156, R157, R160).  GATHER's TABLE reaches
to the end of its buffer; its extent here is zero. -/
def cmdUses (c : Blob) (n : Nat → Nat) : List Use :=
  let fa := cmdFa c; let fb := cmdFb c; let fo := cmdFo c
  match cmdOp c with
  | 0x01 =>
    let z := decide (n 6 = 0 ∨ n 7 = 0)
    let at_ := fun v => if z then 0 else v
    [⟨1, false, at_ (n 6 * rowBytes fa (n 5))⟩, ⟨2, false, at_ (n 7 * rowBytes fb (n 5))⟩,
     ⟨3, true, at_ (n 6 * rowBytes fo (n 7))⟩] ++
    (if cmdFlag c then [⟨4, false, at_ (n 6 * rowBytes fo (n 7))⟩] else [])
  | 0x02 =>
    let u := vecUses (cmdSub c)
    [⟨1, false, rowBytes fa (n 5)⟩] ++ (if u.2.1 then [⟨2, false, rowBytes fb (n 5)⟩] else []) ++
    (if u.2.2 then [⟨4, false, rowBytes fo (n 5)⟩] else []) ++
    [⟨3, true, rowBytes fo (vecOut (cmdSub c) (n 5) (n 6))⟩]
  | 0x03 => [⟨1, false, n 5⟩, ⟨3, true, n 5⟩]
  | 0x04 => [⟨1, false, 0⟩, ⟨2, false, 4 * n 5⟩, ⟨3, true, n 5 * n 6⟩]
  | 0x05 => if cmdSub c = 2 then [⟨1, false, 4⟩] else []
  | 0x0B => [⟨1, false, n 5⟩]
  | _ => []

/-- Extents over scalar registers. -/
def usesAt (c : Blob) (regs : Nat → Nat) : List Use := cmdUses c (fun i => countOf regs (cmdWord c i))

/-! ## Header and buffer table (R174, R175) -/

/-- The use an image is parsed for. -/
inductive ImageUse where
  | forecast | host | ripening
  deriving DecidableEq, Repr

/-- Parse a header; the weights section starts at the next 64-byte boundary. -/
def imageHead (rd : Nat → Nat → Nat) : Model × Nat :=
  let n := rd 0x21 1
  let prog := rd 0x14 4
  let start := 64 * ceilDiv (64 + 16 * n + prog) 64
  let bufs := (upTo n).map (fun i =>
    let a := 64 + 16 * i
    ({ kind := rd a 1, write := decide (rd (a + 1) 1 = 1), offset := rd (a + 4) 4, len := rd (a + 8) 4 } : Buf))
  ({ ident := rd 0x08 4, deadline := rd 0x0C 4, weightsLen := rd 0x10 4, progLen := prog, stateLen := rd 0x18 4,
     scratchLen := rd 0x1C 4, rows := rd 0x20 1, bufs := bufs, imageLen := start + rd 0x10 4 }, start)

/-- Every field of the header keeps its rule, the part code apart (R174, R190, R244). -/
def headRules (use : ImageUse) (rd : Nat → Nat → Nat) : Bool :=
  let dl := rd 0x0C 4
  decide (rd 0 4 = 0x44584D44 ∧ rd 4 2 = 1 ∧ rd 7 1 = 0 ∧ rd 8 4 ≠ 0 ∧ rd 0x22 30 = 0 ∧ rd 0x10 4 % 64 = 0 ∧
    32 ≤ rd 0x14 4 ∧ rd 0x14 4 ≤ 65536 ∧ rd 0x14 4 % 32 = 0 ∧ rd 0x18 4 % 64 = 0 ∧ rd 0x18 4 ≤ 524288 ∧
    rd 0x1C 4 % 64 = 0 ∧ rd 0x1C 4 ≤ 524288 ∧ 1 ≤ rd 0x20 1 ∧ rd 0x20 1 ≤ 8 ∧ 1 ≤ rd 0x21 1 ∧ rd 0x21 1 ≤ 32) &&
  (match use with
   | .forecast => decide (500 ≤ dl ∧ dl ≤ 4000)
   | .host => decide (dl = 0 ∧ rd 0x20 1 = 1)
   | .ripening => decide (dl = 0))

/-- Buffer kinds that a use allows (R158, R190, R244). -/
def kindsOf : ImageUse → List Nat
  | .forecast => [0, 1, 2, 3, 4, 5]
  | .host => [0, 2, 6]
  | .ripening => [0, 2, 4, 5]

/-- The access code that R158 gives a buffer kind: 1 for read and write. -/
def kindAccess (kind : Nat) : Nat := if kind = 0 ∨ kind = 3 then 0 else 1

/-- Length of the area a buffer's offset is relative to; the areas of kinds 4 and 5 are as long as their buffers need. -/
def areaLimit (m : Model) (kind : Nat) : Nat :=
  match kind with
  | 0 => m.weightsLen | 1 => m.stateLen | 2 => m.scratchLen | 3 => 1024 | 6 => 256 * 2 ^ 30 | _ => 2 ^ 33

/-- Every buffer-table entry keeps its rule (R158, R175). -/
def bufRules (use : ImageUse) (m : Model) (rd : Nat → Nat → Nat) : Bool :=
  (upTo (rd 0x21 1)).all (fun i =>
    let a := 64 + 16 * i
    let kind := rd a 1
    decide (kind ∈ kindsOf use ∧ rd (a + 1) 1 = kindAccess kind ∧ rd (a + 2) 2 = 0 ∧ rd (a + 12) 4 = 0 ∧
      1 ≤ rd (a + 8) 4 ∧ rd (a + 8) 4 ≤ 64 * 2 ^ 20 ∧ rd (a + 4) 4 + rd (a + 8) 4 ≤ areaLimit m kind))

/-- Length of the OUTPUT or HISTORY area of a model: the end of its last buffer of the kind. -/
def Model.area (m : Model) (kind : Nat) : Nat :=
  (m.bufs.filter (fun b => decide (b.kind = kind))).foldl (fun t b => max t (b.offset + b.len)) 0

/-! ## Validation (R159) -/

/-- Words an opcode does not list are zero, and its listed words keep their reserved fields zero.  DESIGN CHOICE (log entry
95): PARAM of a count word to which the opcode gives no parameter may hold any value. -/
def wordsOk (c : Blob) : Bool :=
  let w := cmdWord c
  let zero := fun (l : List Nat) => l.all (fun i => decide (w i = 0))
  let counts := (countWords (cmdOp c)).all (fun i =>
    !bitAt (w i) 30 && (!bitAt (w i) 31 || decide (fld (w i) 4 20 = 0)))
  decide (fld c 25 7 = 0) && counts &&
  (match cmdOp c with
   | 0x00 | 0x0F => zero [1, 2, 3, 4, 5, 6, 7]
   | 0x01 => true
   | 0x02 => zero [7]
   | 0x03 => zero [2, 4, 6, 7]
   | 0x04 => zero [4, 7]
   | 0x05 => zero [4, 5, 6, 7] && decide (w 3 < 16) && (decide (cmdSub c = 2) || zero [1])
   | 0x06 => zero [4, 5, 6, 7] && decide (w 1 < 16 ∧ w 3 < 256)
   | 0x08 => zero [4, 5, 6, 7] && decide (w 1 < 2 ^ 24 ∧ w 2 < 2 ^ 16 ∧ w 3 < 2 ^ 24)
   | 0x09 => zero [2, 3, 4, 5, 6, 7] && decide (w 1 < 8)
   | 0x0A => zero [2, 3, 4, 5, 6, 7] && decide (w 1 < 32)
   | 0x0B => zero [3, 4, 6, 7] && decide (w 2 < 4)
   | _ => false)

/-- FLAG, SUBOP and format codes of a command (R152, R153, R156).  DESIGN CHOICE (log entry 95): the index operand of GATHER
and the source of a SCALAR load may give the format code U32 or zero, and SUBOP of an opcode without operations may hold
any value. -/
def codesOk (c : Blob) : Bool :=
  let fa := cmdFa c; let fb := cmdFb c; let fo := cmdFo c
  (match cmdOp c with
   | 0x01 => decide (fa < 8 ∧ fb < 8 ∧ fo < 8) && pairingOk fa fb && decide (cmdParam c 5 ≠ 63) &&
       decide (fo = 7 → cmdParam c 6 ≤ 31)
   | 0x02 => decide (cmdSub c < 15 ∧ fa < 8 ∧ fo < 8) && (if (vecUses (cmdSub c)).2.1 then decide (fb < 8) else decide (fb = 0)) &&
       decide (fo = 7 → cmdParam c 5 ≤ 31)
   | 0x04 => decide (fa = 0 ∧ (fb = 0 ∨ fb = 8) ∧ fo = 0)
   | 0x05 => decide (cmdSub c < 4 ∧ fb = 0 ∧ fo = 0) && (if cmdSub c = 2 then decide (fa = 0 ∨ fa = 8) else decide (fa = 0))
   | 0x06 => decide (cmdSub c < 4 ∧ fa = 0 ∧ fb = 0 ∧ fo = 0)
   | _ => decide (fa = 0 ∧ fb = 0 ∧ fo = 0)) &&
  (!cmdFlag c || decide (cmdOp c = 0x01 ∨ cmdOp c = 0x08))

/-- Where an opcode is allowed, and its own field ranges. -/
def placeOk (use : ImageUse) (c : Blob) (i last : Nat) : Bool :=
  let w := cmdWord c
  decide ((cmdOp c = 0x0F) ↔ (i = last)) &&
  (match cmdOp c with
   | 0x06 => decide (1 ≤ w 3 ∧ i + 1 + w 3 ≤ last)
   | 0x08 => decide (w 1 ≤ 100000 ∧ 1 ≤ w 3 ∧ w 3 ≤ 10000000)
   | 0x09 => decide (w 1 ≠ 0)
   | 0x0A => decide (use ≠ .forecast)
   | 0x0B => decide (use = .forecast ∧ w 2 = 0)
   | _ => true)

/-- Every operand names a buffer of the table, and a written one is writable.  DESIGN CHOICE (log entry 106): an operand word
that the command does not use, W4 of MATMUL without FLAG or W2 and W4 of VECTOR operations without Y or Z, may hold any
value and name any buffer. -/
def bufsOk (m : Model) (c : Blob) : Bool :=
  (usesAt c (fun _ => 0)).all (fun u =>
    match m.bufs[opBuf (cmdWord c u.word)]? with
    | none => false
    | some b => !u.write || b.write)

/-- The count words that fix the extent of the operand of a word (R156, R160). -/
def extentCounts (c : Blob) (word : Nat) : List Nat :=
  match cmdOp c, word with
  | 0x01, 1 => [5, 6] | 0x01, 2 => [5, 7] | 0x01, _ => [6, 7]
  | 0x02, 3 => if cmdSub c = 13 ∨ cmdSub c = 14 then [5, 6] else [5]
  | 0x02, _ => [5]
  | 0x04, 2 => [5] | 0x04, 3 => [5, 6] | 0x04, _ => []
  | 0x05, _ => []
  | _, _ => [5]

/-- Extents known from immediate counts and offsets stay within their buffers (R159). -/
def boundsOk (m : Model) (c : Blob) : Bool :=
  let reg := fun i => bitAt (cmdWord c i) 31
  (cmdUses c (fun i => if reg i then 1 else countOf (fun _ => 0) (cmdWord c i))).all (fun u =>
    let w := cmdWord c u.word
    bitAt w 26 || (extentCounts c u.word).any reg ||
    (match m.bufs[opBuf w]? with
     | none => true
     | some b => decide (opOff (fun _ => 0) w + u.len ≤ b.len)))

/-- Validation of a whole program: success, RANGE or CMD_BOUNDS. -/
def validate (use : ImageUse) (m : Model) : Nat :=
  let last := m.cmds - 1
  let all := fun (p : Nat → Blob → Bool) => (upTo m.cmds).all (fun i => p i (m.cmd i))
  if !all (fun i c => wordsOk c && codesOk c && placeOk use c i last && bufsOk m c) then stRange
  else if !all (fun _ c => boundsOk m c) then stBounds
  else stOk

/-! ## Placement (R176, R177) -/

/-- Bytes of a stack and of a region (R194, R195). -/
def stackBytes : Nat := 48 * 2 ^ 30
def regionBytes : Nat := 4 * 2 ^ 30

/-- The batches of a core (R150): model key and its streams, in slot order, by lowest slot. -/
def batchesOf (t : Tab Stream) (core : Nat) : List (Nat × List Nat) :=
  let on := (upTo 8).filterMap (fun k => (t.find? (fun p => decide (p.2.slot = some (8 * core + k)))).map (fun p => (p.2.model, p.1)))
  let keys := on.foldl (fun (l : List Nat) p => if p.1 ∈ l then l else l ++ [p.1]) []
  keys.map (fun k => (k, (on.filter (fun p => decide (p.1 = k))).map (·.2)))

/-- Local bytes of the areas of one stream of a model, the OUTPUT area rounded up to whole words. -/
def Model.localArea (m : Model) : Nat := m.stateLen + m.scratchLen + 4 * ceilDiv (m.area 4) 4

/-- Bytes of 4 KiB blocks that hold `n` bytes. -/
def blockBytes (n : Nat) : Nat := 4096 * ceilDiv n 4096

/-- What the placement of a core depends on. -/
structure Floorplan where
  streams : Tab Stream
  models : Tab Model
  /-- what is laid out already -/
  layout : Tab Layout
  /-- SRAM and HBM region worlds in effect, set for secure. R93 -/
  sram : Nat
  hbm : Nat
  /-- forecast regions per stack. R196 -/
  f : Nat
  /-- candidate areas of ripening jobs: stack, world, bytes. R245 -/
  candidates : List (Nat × Bool × Nat)
  /-- registered ripening images: stack, world, bytes. R244 -/
  images : List (Nat × Bool × Nat) := []
  /-- cores as the load in progress will lay them out: what it places there is taken. R180 -/
  held : Tab Layout := []
  deriving DecidableEq, Repr

def Floorplan.model (fp : Floorplan) (k : Nat) : Model := tabGet {} fp.models k

/-- The copies laid out on a core. -/
def Floorplan.copies (fp : Floorplan) (core : Nat) : List Copy := (tabGet {} fp.layout core).copies

/-- Regions of a core's local SRAM in one world (R106). -/
def Floorplan.rooms (fp : Floorplan) (core : Nat) (secure : Bool) : List Nat :=
  (upTo 4).filter (fun k => decide (bitAt fp.sram (4 * core + k) = secure))

/-- Bytes of a list of local regions, without the sequencer reserve at the top of the last (R176). -/
def roomBytes (rooms : List Nat) : Nat := rooms.length * 2 ^ 20 - (if 3 ∈ rooms then 65536 else 0)

/-- Local SRAM of a core in one world, without the sequencer reserve. -/
def Floorplan.localCap (fp : Floorplan) (core : Nat) (secure : Bool) : Nat := roomBytes (fp.rooms core secure)

/-- Cluster SRAM regions of a world, without the intake buffer (R177, R225). -/
def Floorplan.clusterRooms (fp : Floorplan) (n : Nat) (secure : Bool) : List Nat :=
  (upTo 31).filter (fun k => decide (bitAt fp.sram (384 + 32 * n + k) = secure))

/-- The number of those regions. -/
def Floorplan.clusterCap (fp : Floorplan) (n : Nat) (secure : Bool) : Nat := (fp.clusterRooms n secure).length

/-- Forecast-area regions of a stack in one world, by their index in the stack (R196). -/
def Floorplan.forecastRooms (fp : Floorplan) (n : Nat) (secure : Bool) : List Nat :=
  ((upTo fp.f).map (12 - fp.f + ·)).filter (fun k => decide (bitAt fp.hbm (12 * n + k) = secure))

/-- Their number. -/
def Floorplan.forecastCap (fp : Floorplan) (n : Nat) (secure : Bool) : Nat := (fp.forecastRooms n secure).length

/-- The copies of a cluster's cores other than `core`: those laid out, and those that the load in progress places. -/
def Floorplan.others (fp : Floorplan) (n core : Nat) : List Copy :=
  ((fp.layout ++ fp.held).filter (fun p => decide (p.1 / 8 = n ∧ p.1 ≠ core))).flatMap (fun p => p.2.copies)

/-- Bytes of a stack's forecast area in one world that master copies, histories, candidates, ripening images and the vat-mode
weights of cores other than `core` take. -/
def Floorplan.forecastUsed (fp : Floorplan) (n core : Nat) (secure : Bool) : Nat :=
  ((fp.models.filter (fun p => decide (n ∈ p.2.masters ∧ p.2.secure = secure))).map (fun p => blockBytes p.2.imageLen)).sum +
  ((fp.streams.filter (fun p => match p.2.slot with
    | some k => decide (k / 64 = n ∧ (fp.model p.2.model).secure = secure) | none => false)).map (fun p =>
      blockBytes ((fp.model p.2.model).area 5))).sum +
  (((fp.candidates ++ fp.images).filter (fun p => decide (p.1 = n ∧ p.2.1 = secure))).map (fun p => blockBytes p.2.2)).sum +
  (((fp.others n core).filter (fun c => decide (c.secure = secure))).map (fun c => blockBytes c.hbm)).sum

/-- Bytes of local SRAM that programs and stream areas of one world take on a core (R176). -/
def Floorplan.localUsed (fp : Floorplan) (core : Nat) (secure : Bool) : Nat :=
  ((batchesOf fp.streams core).filter (fun b => decide ((fp.model b.1).secure = secure))).foldl (fun t b =>
    t + (fp.model b.1).progLen + b.2.length * (fp.model b.1).localArea) 0

/-- Lay one model copy out on a core beside the copies `before` it: the first level of R177 that holds it.  The local part
is the first bytes of the section; a part in cluster SRAM with the same split is shared with another core's copy. -/
def Floorplan.layCopy (fp : Floorplan) (core : Nat) (before : List Copy) (key : Nat) : Copy :=
  let n := core / 8
  let m := fp.model key
  let w := m.secure
  let same := before.filter (fun c => decide (c.secure = w))
  let cap := fp.localCap core w
  let used := fp.localUsed core w + (same.map (·.loc)).sum
  let loc := min m.weightsLen (cap - used)
  let rest := m.weightsLen - loc
  let others := fp.others n core
  let shared := others.find? (fun c => decide (c.model = key ∧ c.loc = loc ∧ c.regions ≠ []))
  let free := (fp.clusterRooms n w).filter (fun k => !(others ++ before).any (fun c => decide (k ∈ c.regions)))
  let need := ceilDiv rest (2 ^ 20)
  let regions := match shared with | some c => c.regions | none => free.take need
  let clus := min rest (regions.length * 2 ^ 20)
  let hbm := rest - clus
  -- what the copy and its streams' HISTORY take of the stack must stand in regions of its world
  { model := key, secure := w, loc := loc, clus := clus, hbm := hbm, regions := regions,
    level := if rest = 0 then 0 else if hbm = 0 then 1 else 2,
    ok := decide (fp.localUsed core w ≤ cap ∧ ((hbm = 0 ∧ m.area 5 = 0) ∨
      fp.forecastUsed n core w + (same.map (fun c => blockBytes c.hbm)).sum + blockBytes hbm ≤ fp.forecastCap n w * regionBytes)) }

/-- Lay out a core anew for the streams on it; other cores keep what they hold (R177, R180; log entry 16). -/
def Floorplan.relay (fp : Floorplan) (core : Nat) : Floorplan :=
  let copies : List Copy := (batchesOf fp.streams core).foldl (fun l b => l ++ [fp.layCopy core l b.1]) []
  let now : Layout := if copies = [] then {} else
    { copies := copies, openRooms := fp.rooms core false, secureRooms := fp.rooms core true }
  { fp with layout := tabPut {} fp.layout core now }

/-- Drop the copies that no stream of their core uses any more. -/
def Floorplan.trim (fp : Floorplan) : Floorplan :=
  { fp with layout := fp.layout.filterMap (fun p =>
      let keys := (batchesOf fp.streams p.1).map (·.1)
      let copies : List Copy := p.2.copies.filter (fun c => decide (c.model ∈ keys))
      if copies = [] then none else some (p.1, { p.2 with copies := copies })) }

/-- The copy of a model on a core. -/
def Floorplan.copy (fp : Floorplan) (core model : Nat) : Option Copy := (fp.copies core).find? (fun c => decide (c.model = model))

/-! ## Deadline check (R179) -/

/-- Bytes moved at each level. -/
structure Traffic where
  rd : Nat := 0
  wr : Nat := 0
  clus : Nat := 0
  hbm : Nat := 0
  deriving DecidableEq, Repr

/-- Split a range of the weights section over the levels of a copy. -/
def Copy.range (c : Copy) (off len : Nat) : Nat × Nat × Nat :=
  let part := fun lo hi => min (off + len) hi - max off lo
  (part 0 c.loc, part c.loc (c.loc + c.clus), part (c.loc + c.clus) (c.loc + c.clus + c.hbm))

/-- Traffic of one operand over a batch of `n` streams. -/
def Copy.traffic (c : Copy) (b : Buf) (w : Nat) (write : Bool) (len n : Nat) (dataDep : Bool) : Traffic :=
  match b.kind with
  | 0 =>
    if dataDep || bitAt w 26 then
      let r := c.range b.offset b.len
      let total := if dataDep then len * n else len
      if 0 < r.2.2 then { hbm := total } else if 0 < r.2.1 then { clus := total } else { rd := total }
    else
      let r := c.range (b.offset + opOff (fun _ => 0) w) len
      { rd := r.1, clus := r.2.1, hbm := r.2.2 }
  | 3 => { clus := len * n }
  | 5 => { hbm := len * n }
  | _ => if write then { wr := len * n } else { rd := len * n }

/-- The largest count below 2^24 that keeps every extent within its buffer, other register counts at 1 (R179). -/
def largestCount (m : Model) (c : Blob) (word : Nat) : Nat :=
  let val := fun v i => if bitAt (cmdWord c i) 31 then (if i = word then v else 1) else fld (cmdWord c i) 0 24
  let fits := fun v => (cmdUses c (val v)).all (fun u =>
    match m.bufs[opBuf (cmdWord c u.word)]? with
    | none => false
    | some b => decide (opOff (fun _ => 0) (cmdWord c u.word) + u.len ≤ b.len))
  (upTo 24).foldl (fun v i => let v' := v + 2 ^ (23 - i); if fits v' then v' else v) 0

/-- The counts a command is costed with. -/
def costCount (m : Model) (c : Blob) (i : Nat) : Nat :=
  if bitAt (cmdWord c i) 31 then largestCount m c i else fld (cmdWord c i) 0 24

/-- Cost of one command of a batch of `n` streams, as compute-clock cycles and ns (R179).  END is not costed, as in the
worked example. -/
def cmdCost (m : Model) (cp : Copy) (n : Nat) (c : Blob) : Rat × Rat :=
  let cnt := costCount m c
  let tr := (cmdUses c cnt).foldl (fun (t : Traffic) u =>
    let w := cmdWord c u.word
    match m.bufs[opBuf w]? with
    | none => t
    | some b =>
      let table := decide (cmdOp c = 0x04 ∧ u.word = 1)
      let x := cp.traffic b w u.write (if table then cnt 5 * cnt 6 else u.len) n table
      ⟨t.rd + x.rd, t.wr + x.wr, t.clus + x.clus, t.hbm + x.hbm⟩) {}
  let compute : Rat :=
    match cmdOp c with
    | 0x01 => ((ceilDiv (cnt 6 * n) 64 * ceilDiv (cnt 7) 64 * ceilDiv (4096 * cnt 5) (macRate (cmdFa c)) : Nat) : Rat)
    | 0x02 =>
      let u := vecUses (cmdSub c)
      let l := min (lanes (cmdFa c)) (min (lanes (cmdFo c)) (if u.2.1 then lanes (cmdFb c) else 256))
      ((ceilDiv (cnt 5 * n) l : Nat) : Rat)
    | _ => 0
  let loc : Rat := (tr.rd : Rat) / 2048 + (tr.wr : Rat) / 1024 + (if 0 < tr.rd then 6 else 0)
  let clus : Rat := if 0 < tr.clus then (tr.clus : Rat) / 512 + 35 else 0
  let hbm : Rat := if 0 < tr.hbm then 420 + (tr.hbm : Rat) / 266 else 0
  let hold : Rat := if cmdOp c = 0x08 ∧ cmdFlag c then (cmdWord c 1 : Rat) else 0
  if cmdOp c = 0x0F then (0, 0) else (16 + max compute loc + clus, hbm + hold)

/-- Cost of a batch in ns, at `steps` of 6.25 MHz. -/
def batchCost (m : Model) (cp : Copy) (n steps : Nat) : Rat :=
  let t := (upTo m.cmds).foldl (fun (t : Rat × Rat) i => let k := cmdCost m cp n (m.cmd i); (t.1 + k.1, t.2 + k.2)) (0, 0)
  t.1 * 160 / (steps : Rat) + t.2

/-- Finish times of the batches of a core as it is laid out: model, streams, finish time, level, fits. -/
def Floorplan.finishes (fp : Floorplan) (core steps : Nat) : List (Nat × List Nat × Rat × Nat × Bool) :=
  ((batchesOf fp.streams core).foldl (fun (acc : List (Nat × List Nat × Rat × Nat × Bool) × Rat) b =>
    match fp.copy core b.1 with
    | none => (acc.1 ++ [(b.1, b.2, acc.2, 2, false)], acc.2)
    | some cp =>
      let t := acc.2 + batchCost (fp.model b.1) cp b.2.length steps
      (acc.1 ++ [(b.1, b.2, t, cp.level, cp.ok)], t)) ([], 200 + 8 * (core : Rat))).1

/-- Every stream of a core meets its deadline and the inference budget at a placement that fits (R179). -/
def Floorplan.meets (fp : Floorplan) (core steps : Nat) : Bool :=
  (fp.finishes core steps).all (fun x => x.2.2.2.2 && decide (x.2.2.1 ≤ (fp.model x.1).deadline ∧ x.2.2.1 ≤ 4000))

/-- Level and finish time of one stream at its present placement, ns rounded up. -/
def Floorplan.report (fp : Floorplan) (core steps stream : Nat) : Nat × Nat :=
  match (fp.finishes core steps).find? (fun x => decide (stream ∈ x.2.1)) with
  | some x => (x.2.2.2.1, (ceilRat x.2.2.1).toNat)
  | none => (0xFF, 0)

/-- The present floorplan. -/
def State.floorplan (s : State) : Floorplan :=
  { streams := s.te.streams, models := s.te.models, layout := s.te.layout, sram := s.effv 0xB031 0,
    hbm := s.effv 0xB030 0, f := s.odv 0xA010 0,
    candidates := s.te.jobs.map (fun j => ((j.2.participants.headD 0) / 8, (tabGet {} s.te.models j.2.model).secure,
      (tabGet {} s.te.models j.2.model).weightsLen)),
    images := s.te.ripening.flatMap (fun p => p.2.masters.map (fun n => (n, p.2.secure, p.2.imageLen))),
    held := match s.te.load with | some l => l.layout | none => [] }

/-- Stacks on which the loader puts copies of `bytes` in a world: the lowest `k` unfenced clusters but for `but` whose forecast
area has the room in regions of that world (R177, R183, R196).  DESIGN CHOICE (log entry 105): where fewer have it, there are
fewer copies. -/
def State.homes (s : State) (secure : Bool) (bytes k : Nat) (but : List Nat) : List Nat :=
  let fp := s.floorplan
  ((upTo 12).filter (fun n => decide (tabGet 0 s.te.clusters n = 0 ∧ n ∉ but ∧
    fp.forecastUsed n 96 secure + blockBytes bytes ≤ fp.forecastCap n secure * regionBytes))).take k

/-- The floorplan with the new streams of the load in progress in their places (R180).  DESIGN CHOICE (log entry 16): R180 and
R189 do not say against which model a stream is checked that a fence puts on the core of a running replacement; the model
checks it, and lays it, beside the present model, and the commit lays both out anew. -/
def State.planned (s : State) : Floorplan :=
  let fp := s.floorplan
  match s.te.load with
  | some l =>
    if l.op = 1 then
      { fp with streams := l.plan.foldl (fun t p => tabMod {} t p.1 (fun x =>
                  { x with loaded := true, model := l.key, slot := some p.2.2.1, secure := l.secure })) fp.streams,
                layout := l.layout.foldl (fun t p => tabPut {} t p.1 p.2) fp.layout, held := [] }
    else fp
  | none => fp

end Sys2Proof.Machine
end

