-- ==== Sys2Proof/Machine/Memory.lean ====
section
/-! DEFINITION. The check code, valid bits and memory accesses (R194 to R217), and the fencing of cores and clusters that
errors lead to (R137 to R139, R214). -/

namespace Sys2Proof.Machine

open Sys2Proof

/-! ## Activity counters (R484) -/

/-- Add to an activity counter of a cluster. -/
def State.active (s : State) (cluster i n : Nat) : State :=
  if cluster < 12 ∧ i < 48 ∧ n ≠ 0 then
    { s with cd := { s.cd with activity := tabMod 0 s.cd.activity (cluster * 48 + i) (· + n) } }
  else s

/-- Pieces of 64 bytes that a byte range touches. -/
def pieces (a n : Nat) : Nat := if n = 0 then 0 else (a + n - 1) / 64 - a / 64 + 1

/-- HBM accesses of a byte range count with the cluster of the stack: counter 42 reads, 43 writes. -/
def State.hbmMoved (s : State) (i pa n : Nat) : State := s.active (pa / stackBytes) i (pieces pa n)

/-! ## The check code (R203, R204) -/

/-- The column of a data bit: the (j + 1)-th smallest 7-bit value with exactly three bits set. -/
def column (j : Nat) : Nat := ((upTo 128).filter (fun v => decide (popCount 7 v = 3))).getD j 0

/-- The check bits of a data word. -/
def checkBits (w : Nat) : Nat := (bitsOf 32 w).foldl (fun x j => x ^^^ column j) 0

/-- What a read of a codeword delivers: clean or corrected, with the data bits delivered that differ from the word once
written, or nothing. -/
inductive Ecc where
  | clean (residual : Nat)
  | corrected (residual : Nat)
  | bad
  deriving DecidableEq, Repr

/-- The syndrome of a pattern of flipped bits: data bits [31:0], check bits [38:32]. -/
def syndrome (mask : Nat) : Nat := checkBits (fld mask 0 32) ^^^ fld mask 32 7

/-- Decode a codeword with the given flipped bits (R204). -/
def eccDecode (mask : Nat) : Ecc :=
  let syn := syndrome mask
  let data := fld mask 0 32
  if syn = 0 then .clean data
  else if popCount 7 syn = 1 then .corrected data
  else
    match (upTo 32).find? (fun j => decide (column j = syn)) with
    | some j => .corrected (data ^^^ 2 ^ j)
    | none => .bad

/-- The data bits that a read delivers inverted. -/
def Ecc.residual : Ecc → Nat
  | .clean r => r
  | .corrected r => r
  | .bad => 0

/-- The flipped bits of a good codeword whose data differ by `r` from the word once written. -/
def codeOf (r : Nat) : Nat := r + checkBits r <<< 32

/-! ## One memory -/

/-- Contents of a byte no write has touched (R207, R208). -/
def memZero : Nat → BitVec 8 := fun _ => 0

/-- The valid unit of an address: 4 KiB blocks in HBM, words in SRAM. -/
def Mem.isValid (m : Mem) (unit a : Nat) : Bool := decide (a / unit ∈ m.valid)

/-- Flip bits of a stored codeword and copies of its unit's valid bit; an invalid word's codeword holds nothing. -/
def Mem.upset (m : Mem) (unit a mask : Nat) : Mem :=
  let m := if m.isValid unit a then { m with errs := tabMod 0 m.errs (a / 4 * 4) (fun e => e ^^^ fld mask 0 39) } else m
  { m with votes := tabMod 0 m.votes (a / unit) (fun v => v ^^^ fld mask 39 3) }

/-- Two or three of the copies of a valid bit are struck: their majority is the other value. -/
def outvoted (flips : Nat) : Bool := decide (2 ≤ popCount 3 flips)

/-- A read of the units of a byte range compares the copies of their valid bits: the majority is kept and written back, and
disagreements are counted; a unit that becomes valid holds an open codeword (R207, R208; log entry 1). -/
def Mem.vote (m : Mem) (unit a n : Nat) : Mem × Nat :=
  let struck := m.votes.filter (fun v => decide (n ≠ 0 ∧ a / unit ≤ v.1 ∧ v.1 ≤ (a + n - 1) / unit))
  let one := fun (m : Mem) (v : Nat × Nat) =>
    let m := { m with votes := tabErase m.votes v.1 }
    if outvoted v.2 then
      if v.1 ∈ m.valid then
        { m with cells := m.cells.filter (fun c => decide (c.1 / unit ≠ v.1)),
                 errs := m.errs.filter (fun c => decide (c.1 / unit ≠ v.1)), valid := m.valid.filter (· ≠ v.1) }
      else
        { m with valid := ordInsert m.valid v.1,
                 errs := (upTo (unit / 4)).foldl (fun t i =>
                   tabPut 0 t (unit * v.1 + 4 * i) (Config.strayWord (unit * v.1 + 4 * i) % 2 ^ 39)) m.errs }
    else m
  -- three struck copies agree with each other
  (struck.foldl one m, (struck.filter (fun v => decide (v.2 ≠ 7))).length)

/-- What an access of several words met. -/
structure MemFx where
  corrected : List Nat := []
  bad : List Nat := []
  fills : Nat := 0
  dropped : Nat := 0
  deriving DecidableEq, Repr

def MemFx.add (a b : MemFx) : MemFx :=
  ⟨a.corrected ++ b.corrected, a.bad ++ b.bad, a.fills + b.fills, a.dropped + b.dropped⟩

/-- Read a word: data delivered (zero where none is), and what was met. -/
def Mem.readWord (m : Mem) (unit a : Nat) : Nat × MemFx :=
  let data := cellsGet memZero m.cells a 4
  if m.isValid unit a then
    match eccDecode (tabGet 0 m.errs a) with
    | .clean r => (data ^^^ r, {})
    | .corrected r => (data ^^^ r, { corrected := [a] })
    | .bad => (0, { bad := [a] })
  else (data, {})

/-- The word addresses that a byte range touches. -/
def wordsOf (a n : Nat) : List Nat :=
  if n = 0 then [] else (upTo ((a + n - 1) / 4 - a / 4 + 1)).map (fun i => 4 * (a / 4 + i))

/-- Read `n` bytes from `a`. -/
def Mem.read (m : Mem) (unit a n : Nat) : Blob × MemFx :=
  let ws := (wordsOf a n).map (fun w => m.readWord unit w)
  (bytesAt (packBytes (ws.map (fun w => (4, w.1)))) (a % 4) n, ws.foldl (fun t w => t.add w.2) {})

/-- Write the bytes of one word that lie in `[a, a + n)` (R208, R211). -/
def Mem.writeWord (m : Mem) (unit w a n : Nat) (v : Blob) : Mem × MemFx :=
  let lo := max a w
  let hi := min (a + n) (w + 4)
  let fresh := !m.isValid unit w
  let fill : MemFx := { fills := b2n fresh }
  let old := m.readWord unit w
  if hi - lo < 4 ∧ old.2.bad ≠ [] then (m, { old.2 with dropped := 1 })
  else
    let base := if hi - lo < 4 then old.1 else 0
    let met := if hi - lo < 4 then old.2 else {}
    let data := setBytes base (lo - w) (hi - lo) (bytesAt v (lo - a) (hi - lo))
    ({ m with cells := cellsPut memZero m.cells w 4 data, errs := tabErase m.errs w,
              valid := ordInsert m.valid (w / unit) }, met.add fill)

/-- Write `n` bytes at `a`; a write that leaves a word as it was leaves the others written. -/
def Mem.write (m : Mem) (unit a n : Nat) (v : Blob) : Mem × MemFx :=
  (wordsOf a n).foldl (fun p w => let r := p.1.writeWord unit w a n v; (r.1, p.2.add r.2)) (m, {})

/-- Write `n` bytes at `a` for a TE command: where a word must be dropped nothing is written (R131, R211). -/
def Mem.writeWhole (m : Mem) (unit a n : Nat) (v : Blob) : Mem × MemFx :=
  let r := m.write unit a n v
  if r.2.dropped = 0 then r else (m, { r.2 with fills := 0 })

/-- Clear the valid bits, and with them the contents, of a byte range. -/
def Mem.clear (m : Mem) (unit a n : Nat) : Mem :=
  { cells := m.cells.filter (fun c => decide (c.1 < a ∨ a + n ≤ c.1)),
    errs := m.errs.filter (fun c => decide (c.1 < a ∨ a + n ≤ c.1)),
    valid := m.valid.filter (fun b => decide (b * unit < a ∨ a + n ≤ b * unit)),
    votes := m.votes.filter (fun b => decide (b.1 * unit < a ∨ a + n ≤ b.1 * unit)) }

/-- Clear the valid bits of the units that lie at addresses of which `gone` holds, and with them their contents. -/
def Mem.drop (m : Mem) (unit : Nat) (gone : Nat → Bool) : Mem :=
  { cells := m.cells.filter (fun c => !gone c.1), errs := m.errs.filter (fun c => !gone c.1),
    valid := m.valid.filter (fun b => !gone (b * unit)), votes := m.votes.filter (fun b => !gone (b.1 * unit)) }

/-- The canonical form of a memory: cells strictly rising and not zero, error masks and struck valid bits likewise, valid
units strictly rising. -/
abbrev Mem.wf (m : Mem) : Prop :=
  (tabWf 0 m.cells && tabWf 0 m.errs && tabWf 1 (m.valid.map (fun b => (b, 0))) && tabWf 0 m.votes) = true

/-! ## Cores and clusters -/

def State.core (s : State) (c : Nat) : Core := tabGet {} s.te.cores c
def State.setCore (s : State) (c : Nat) (f : Core → Core) : State :=
  { s with te := { s.te with cores := tabMod {} s.te.cores c f } }
def State.stream (s : State) (n : Nat) : Stream := tabGet {} s.te.streams n
def State.setStream (s : State) (n : Nat) (f : Stream → Stream) : State :=
  { s with te := { s.te with streams := tabMod {} s.te.streams n f } }
def State.model (s : State) (k : Nat) : Model := tabGet {} s.te.models k
def State.setModel (s : State) (k : Nat) (f : Model → Model) : State :=
  { s with te := { s.te with models := tabMod {} s.te.models k f } }
def State.setJob (s : State) (i : Nat) (f : Job → Job) : State :=
  { s with te := { s.te with jobs := s.te.jobs.map (fun x => (x.1, if x.1 = i then f x.2 else x.2)) } }

/-- The streams with a slot on a core, in slot order. -/
def State.streamsOn (s : State) (core : Nat) : List Nat :=
  (upTo 8).filterMap (fun k => (s.te.streams.find? (fun p => decide (p.2.slot = some (8 * core + k)))).map (·.1))

/-- A cluster is fenced. -/
def State.clusterFenced (s : State) (n : Nat) : Bool := decide (tabGet 0 s.te.clusters n ≠ 0)

/-! ## SRAM places (R106, R176, R221, R225) -/

/-- What an SRAM word holds: of a core its programs, weights, stream areas, and the code and data of a host or ripening
program; of a cluster the shared weights of a model with one split, the intake banks, and its control state, which the spec
does not place: DESIGN CHOICE, the rest of the intake buffer's region (log entry 105). -/
inductive Area where
  | program (core model : Nat)
  | weights (core model : Nat)
  | shared (cluster model loc : Nat)
  | reserve (core : Nat)
  | state (stream : Nat)
  | scratch (stream : Nat)
  | output (stream : Nat)
  | hostWeights (core : Nat)
  | hostCode (core : Nat)
  | hostScratch (core : Nat)
  | ripenCode (core : Nat)
  | ripenScratch (core : Nat)
  | intake (stream bank : Nat)
  | control (cluster : Nat)
  | siod
  | free
  deriving DecidableEq, Repr

/-- Local regions of a world that a core's layout stands in. -/
def State.rooms (s : State) (core : Nat) (secure : Bool) : List Nat :=
  let lay : Layout := tabGet {} s.te.layout core
  if lay.openRooms ++ lay.secureRooms = [] then s.floorplan.rooms core secure
  else if secure then lay.secureRooms else lay.openRooms

/-- The areas of a world in a core's local SRAM from its first address upwards (R176): length and what each holds. -/
def State.localAreas (s : State) (core : Nat) (secure : Bool) : List (Nat × Area) :=
  let copies := (s.floorplan.copies core).filter (fun c => c.secure == secure)
  copies.map (fun c => ((s.model c.model).progLen, Area.program core c.model)) ++
  ((s.streamsOn core).filter (fun n => (s.model (s.stream n).model).secure == secure)).flatMap (fun n =>
    let m := s.model (s.stream n).model
    [(m.stateLen, Area.state n), (m.scratchLen, Area.scratch n), (4 * ceilDiv (m.area 4) 4, Area.output n)]) ++
  copies.map (fun c => (c.loc, Area.weights core c.model))

/-- The areas of a host and a ripening program, which the specification does not place: below the sequencer reserve, from
the highest address downwards (log entry 99). -/
def State.topAreas (s : State) (core : Nat) (secure : Bool) : List (Nat × Area) :=
  (match tabFind s.te.host core with
   | some r => if r.secure == secure then
       [(r.image.weightsLen, Area.hostWeights core), (r.image.progLen, .hostCode core), (r.image.scratchLen, .hostScratch core)]
     else []
   | none => []) ++
  (match tabFind s.te.ripen core with
   | some r => if r.secure == secure then [(r.image.progLen, Area.ripenCode core), (r.image.scratchLen, .ripenScratch core)]
     else []
   | none => [])

/-- Walk a list of areas to the one that holds an offset. -/
def walkAreas : List (Nat × Area) → Nat → Area × Nat
  | [], _ => (.free, 0)
  | (n, l) :: t, a => if a < n then (l, a) else walkAreas t (a - n)

/-- Walk a list of areas that lie from `top` downwards. -/
def walkDown : List (Nat × Area) → Nat → Nat → Area × Nat
  | [], _, _ => (.free, 0)
  | (n, l) :: t, top, a => if top ≤ a then (.free, 0) else if top ≤ a + n then (l, a + n - top) else walkDown t (top - n) a

/-- Offset of an area in a list that lies upwards. -/
def areaStart (x : Area) : List (Nat × Area) → Option Nat
  | [] => none
  | (n, l) :: t => if l = x then some 0 else (areaStart x t).map (n + ·)

/-- Offset of an area in a list that lies from `top` downwards. -/
def areaDown (x : Area) : List (Nat × Area) → Nat → Option Nat
  | [], _ => none
  | (n, l) :: t, top => if l = x then some (top - n) else areaDown x t (top - n)

/-- What an SRAM address holds, macro × 1 MiB + offset, and the offset in it. -/
def State.locate (s : State) (a : Nat) : Area × Nat :=
  let m := a / 2 ^ 20
  let off := a % 2 ^ 20
  if 768 ≤ m then (.siod, a - 768 * 2 ^ 20)
  else if m < 384 then
    let c := m / 4
    if m % 4 = 3 ∧ 2 ^ 20 - 65536 ≤ off then (.reserve c, off - (2 ^ 20 - 65536))
    else
      let w := decide (m % 4 ∈ s.rooms c true)
      match (s.rooms c w).idxOf? (m % 4) with
      | some i =>
        let x := i * 2 ^ 20 + off
        match walkAreas (s.localAreas c w) x with
        | (.free, _) => walkDown (s.topAreas c w) (roomBytes (s.rooms c w)) x
        | l => l
      | none => (.free, 0)
  else
    let n := (m - 384) / 32
    let k := (m - 384) % 32
    if k = 31 ∧ 8 * 65536 ≤ off then (.control n, off - 8 * 65536)
    else if k = 31 then
      match s.te.streams.find? (fun p => decide (p.2.slot = some (64 * n + (off % 65536) / 1024))) with
      | some p => (.intake p.1 (off / 65536), off % 1024)
      | none => (.free, 0)
    else
      match (upTo 8).findSome? (fun i => (s.floorplan.copies (8 * n + i)).find? (fun c => decide (k ∈ c.regions))) with
      | some c =>
        let x := c.loc + ((c.regions.idxOf? k).getD 0) * 2 ^ 20 + off
        if x < c.loc + c.clus then (.shared n c.model c.loc, x) else (.free, 0)
      | none => (.free, 0)

/-- The address of a byte of an area of a core or cluster, macro × 1 MiB + offset. -/
def State.areaAddr (s : State) (core : Nat) (secure : Bool) (x : Area) (off : Nat) : Option Nat :=
  match x with
  | .shared n k loc =>
    match (s.floorplan.copies core).find? (fun c => decide (c.model = k ∧ c.loc = loc)) with
    | some c => (c.regions[(off - loc) / 2 ^ 20]?).map (fun g => (384 + 32 * n + g) * 2 ^ 20 + (off - loc) % 2 ^ 20)
    | none => none
  | .intake n b => some ((384 + 32 * (core / 8) + 31) * 2 ^ 20 + b * 65536 + (((s.stream n).slot.getD 0) % 64) * 1024 + off)
  | .control n => some ((384 + 32 * n + 31) * 2 ^ 20 + 8 * 65536 + off)
  | .reserve c => some ((4 * c + 3) * 2 ^ 20 + (2 ^ 20 - 65536) + off)
  | x =>
    let rooms := s.rooms core secure
    let start := match areaStart x (s.localAreas core secure) with
      | some a => some a
      | none => areaDown x (s.topAreas core secure) (roomBytes rooms)
    start.bind (fun a => (rooms[(a + off) / 2 ^ 20]?).map (fun g => (4 * core + g) * 2 ^ 20 + (a + off) % 2 ^ 20))

/-- The region of R106 that holds an offset of an area. -/
def State.areaRegion (s : State) (core : Nat) (secure : Bool) (x : Area) (off : Nat) : Option Nat :=
  (s.areaAddr core secure x off).map (· / 2 ^ 20)

/-- The spans of SRAM that bytes `[lo, lo + n)` of an area take, in at most `parts` regions. -/
def State.areaSpans (s : State) (core : Nat) (secure : Bool) (x : Area) : (parts lo n : Nat) → List (Nat × Nat)
  | 0, _, _ => []
  | k + 1, lo, n =>
    match s.areaAddr core secure x lo with
    | none => []
    | some a =>
      let m := min n (2 ^ 20 - a % 2 ^ 20)
      if m = 0 then [] else (a, a + m) :: s.areaSpans core secure x k (lo + m) (n - m)

/-- The regions that bytes `[off, off + n)` of an area touch. -/
def State.areaRegions (s : State) (core : Nat) (secure : Bool) (x : Area) (off n : Nat) : List Nat :=
  if n = 0 then [] else
    (upTo ((off + n - 1) / 2 ^ 20 - off / 2 ^ 20 + 2)).filterMap (fun i =>
      s.areaRegion core secure x (min (off + i * 2 ^ 20) (off + n - 1)))

/-- The cluster of an SRAM macro. -/
def macroCluster (m : Nat) : Nat := if m < 384 then m / 32 else (m - 384) / 32

/-- What the areas of a core hold of the loader's: programs, weights and the code of host and ripening programs. -/
def Area.loaded : Area → Bool
  | .program _ _ | .weights _ _ | .shared _ _ _ | .hostWeights _ | .hostCode _ | .ripenCode _ => true
  | _ => false

/-- The areas of a core, those that it shares with its cluster among them: world, bytes from `lo`, and what each holds. -/
def State.coreAreas (s : State) (core : Nat) : List (Bool × Nat × Nat × Area) :=
  [false, true].flatMap (fun w => (s.localAreas core w ++ s.topAreas core w).map (fun l => (w, 0, l.1, l.2))) ++
  (s.floorplan.copies core).map (fun c => (c.secure, c.loc, c.clus, Area.shared (core / 8) c.model c.loc))

/-- The spans of SRAM that the loader writes for some areas of a core. -/
def State.loaderSpans (s : State) (core : Nat) (want : Area → Bool) : List (Nat × Nat) :=
  (s.coreAreas core).flatMap (fun x => if x.2.2.2.loaded && want x.2.2.2 then s.areaSpans core x.1 x.2.2.2 32 x.2.1 x.2.2.1 else [])

/-- The loader writes them: what a world change had cleared there is written again. -/
def State.loaderWrites (s : State) (core : Nat) (want : Area → Bool) : State :=
  if s.te.cleared = [] then s
  else { s with te := { s.te with cleared := (s.loaderSpans core want).foldl spanCut s.te.cleared } }

/-- The spans of SRAM whose words the areas of a core have set valid. -/
def State.validSpans (s : State) (core : Nat) : List (Nat × Nat) :=
  (s.coreAreas core).flatMap (fun x =>
    let words := fun (ws : List Nat) =>
      (spansOf ws).flatMap (fun p => s.areaSpans core x.1 x.2.2.2 5 (4 * p.1) (4 * (p.2 - p.1)))
    match x.2.2.2 with
    | .state n => words (s.stream n).stateMem.valid
    | .output n => words (s.stream n).outMem.valid
    | .scratch n => words (s.stream n).scratchValid
    | .hostScratch c => words (match tabFind s.te.host c with | some r => r.scratch.valid | none => [])
    | .ripenScratch c => words (match tabFind s.te.ripen c with | some r => r.scratch.valid | none => [])
    | a => s.te.cleared.foldl spanCut (s.areaSpans core x.1 a 32 x.2.1 x.2.2.1))

/-- The cores on which something stands. -/
def State.usedCores (s : State) : List Nat :=
  (s.te.streams.filterMap (fun (p : Nat × Stream) => p.2.slot.map (fun (k : Nat) => k / 8)) ++ s.te.host.map (·.1) ++ s.te.ripen.map (·.1)).foldl ordInsert []

/-- Words of some cores' areas that were valid before a change of what stands there stay valid: nothing clears a valid bit but
what R210 lists. -/
def State.keepWords (s before : State) (cores : List Nat) : State :=
  let spans := cores.flatMap before.validSpans
  if spans = [] then s
  else
    let now := cores.flatMap s.validSpans
    { s with te := { s.te with stale := (spans.filter (fun x => decide (x ∉ now))).foldl spanAdd s.te.stale } }

/-! ## Fencing (R137 to R139) -/

/-- Mark the ripening jobs that satisfy `p` as failed: their candidate is not accepted (R246). -/
def State.failJobs (s : State) (p : Nat → Job → Bool) : State :=
  let f := fun (x : Nat × Job) => (x.1, if p x.1 x.2 then { x.2 with failed := true } else x.2)
  { s with te := { s.te with jobs := s.te.jobs.map f } }

/-- Change the programs of a submission group but the one on `core`. -/
def State.fixGroup (s : State) (group core : Nat) (f : Run → Run) : State :=
  let g := fun (t : Tab Run) => t.map (fun p =>
    (p.1, if p.2.group = group ∧ p.1 ≠ core then f p.2 else p.2))
  { s with te := { s.te with host := g s.te.host, ripen := g s.te.ripen, ripenQ := g s.te.ripenQ } }

/-- A participant leaves its submission group for good: barriers it belongs to break for the others (R167). -/
def State.breakBarriers (s : State) (group core : Nat) : State :=
  s.fixGroup group core (fun r =>
    let ids := (upTo 32).filter (fun i => decide (16 ≤ i ∨ r.core / 8 = core / 8))
    let waits := match r.barrier with | some i => decide (i ∈ ids) | none => false
    { r with broken := ids.foldl ordInsert r.broken, status := if waits then 3 else r.status,
             barrier := if waits then none else r.barrier })

/-- A host or ripening program leaves a fenced core: it takes no further part, and its group's barriers break. -/
def State.dropRipen (s : State) (c : Nat) (r : Run) : State :=
  (s.breakBarriers r.group c).failJobs (fun i _ => decide (i = r.job))

/-- A core stops issuing: its command in flight is discarded, its programs leave it, and their groups' barriers break
(R138, R167, R249). -/
def State.dropPrograms (s : State) (c : Nat) : State :=
  let before := s
  let s := match tabFind s.te.host c with
    | some r => { s with te := { s.te with host := tabErase s.te.host c } }.breakBarriers r.group c
    | none => s
  let s := match tabFind s.te.ripen c with
    | some r => { s with te := { s.te with ripen := tabErase s.te.ripen c } }.dropRipen c r
    | none => s
  let queued := s.te.ripenQ.filter (fun x => decide (x.1 = c))
  let s := { s with te := { s.te with ripenQ := s.te.ripenQ.filter (fun x => decide (x.1 ≠ c)) } }
  let s := queued.foldl (fun s x => s.dropRipen c x.2) s
  ((s.streamsOn c).foldl (fun s n => s.setStream n (fun t => { t with run := none })) s).keepWords before [c]

/-- Fence a core with a cause (R137, R138).  A core suspended under R267 is suspended no more. -/
def State.fenceCore (s : State) (c cause : Nat) : State :=
  if (s.core c).st = 0 ∨ cause ∈ (s.core c).causes then s
  else
    let s := s.dropPrograms c
    let s := { s with te := { s.te with suspended := s.te.suspended.filter (· ≠ c) } }
    s.setCore c (fun k => { k with st := 3, causes := k.causes ++ [cause], newlyFenced := true, yielded := false,
                                   fencedAt := if k.newlyFenced then k.fencedAt else s.intake,
                                   suspended := false, issuing := none })

/-- The FENCED log entry (R137). -/
def State.logFenced (s : State) (who cause : Nat) : State := s.logEvent 0x3003 (packBytes [(1, who), (1, cause)])

/-- Fence a core and log it.  DESIGN CHOICE (log entry 96): a fence command that is accepted while the CD is off but CD_STOPPED
is clear (Stage 3 has failed, R83, or the next frame boundary after a stop has not come) ends OK and fences nothing: every
core is off (R146). -/
def State.fenceOne (s : State) (c cause : Nat) : State :=
  if (s.core c).st = 0 ∨ cause ∈ (s.core c).causes then s else (s.fenceCore c cause).logFenced c cause

/-- Load and migration work issues only in the slots permitted at the present duty (R488). -/
def State.copyPermitted (s : State) : Bool := slotPermitted s.mpc.slot s.mpc.duty

/-- The loader writes a master copy on a stack: its blocks are zero-filled first (R208). -/
def State.writeMaster (s : State) (n bytes : Nat) : State :=
  (s.active n 43 (pieces 0 bytes)).count (0xA100 + n) 6 (ceilDiv bytes 4096)

/-- A master copy is to be written on a stack: at once, or in the next slot that permits it (R488). -/
def State.fillMaster (s : State) (n bytes : Nat) : State :=
  if s.copyPermitted then s.writeMaster n bytes else { s with te := { s.te with fills := s.te.fills ++ [(n, bytes)] } }

/-- The master copies that wait are written, where the slot permits it (R488). -/
def State.fillWaiting (s : State) : State :=
  if s.copyPermitted then
    s.te.fills.foldl (fun (s : State) x => s.writeMaster x.1 x.2) { s with te := { s.te with fills := [] } }
  else s

/-- Restore the second master copy of the models whose stack `n` is retired, those of a load in progress among them (R183),
and keep its ripening images on the lowest stack in use.  DESIGN CHOICE (log entry 105): the spec does not say what becomes
of a ripening image there. -/
def State.remaster (s : State) (n : Nat) : State :=
  let s := s.te.ripening.foldl (fun (s : State) p =>
    if n ∈ p.2.masters then
      let to_ := s.homes p.2.secure p.2.imageLen 1 []
      let s := to_.foldl (fun (s : State) m => s.fillMaster m p.2.imageLen) s
      { s with te := { s.te with ripening := tabInsert s.te.ripening p.1 { p.2 with masters := to_, masterErrs := [] } } }
    else s) s
  s.te.models.foldl (fun s p =>
    if n ∈ p.2.masters then
      let rest := p.2.masters.filter (· ≠ n)
      let more := s.homes p.2.secure p.2.imageLen 1 rest
      let s := more.foldl (fun s m => s.fillMaster m p.2.imageLen) s
      s.setModel p.1 (fun k => { k with masters := rest ++ more, badMasters := k.badMasters.filter (· ≠ n),
                                        masterErrs := k.masterErrs.filter (fun e => decide (e.1 / 2 ^ 32 ≠ n)),
                                        masterGone := k.masterGone.filter (fun e => decide (e.1 ≠ n)) })
    else s) s

/-- Fence a cluster: its cores follow with cause 6, and its stack is retired from forecast use: the histories of its
streams are lost, wherever a stream stands now (R139, R243). -/
def State.fenceCluster (s : State) (n cause : Nat) : State :=
  if !s.cd.running || s.clusterFenced n then s
  else
    let s := { s with te := { s.te with clusters := tabPut 0 s.te.clusters n cause } }
    let s := s.logFenced (0x80 + n) cause
    let s := (upTo 8).foldl (fun s i => s.fenceOne (8 * n + i) 6) s
    let s := { s with cd := { s.cd with stackCond := tabMod 0 s.cd.stackCond n (fun c => if c = 1 then 2 else c) } }
    let s := s.failJobs (fun _ j => decide ((j.participants.headD 0) / 8 = n))
    let s := s.te.streams.foldl (fun s p => if p.2.home = n then s.setStream p.1 (fun t => { t with history := {} }) else s) s
    s.remaster n

/-- Declare a stack failed: causes 1 training, 2 sixteen words, 3 management port, 4 no answer; a stack that has failed
with its host regions reachable and then gives no answer is unreachable (R214). -/
def State.stackFailed (s : State) (n cause : Nat) : State :=
  let silent := decide (cause = 1 ∨ cause = 4)
  let cond := tabGet 0 s.cd.stackCond n
  if !s.cd.running ∨ cond = 4 ∨ (cond = 3 ∧ !silent) then s
  else
    let s := { s with cd := { s.cd with stackCond := tabPut 0 s.cd.stackCond n (if silent then 4 else 3) } }
    let s := s.logEvent 0xA002 (packBytes [(1, n), (1, cause)])
    s.fenceCluster n 7

/-- The streams of a model. -/
def State.streamsOf (s : State) (k : Nat) : List Nat :=
  (s.te.streams.filter (fun p => decide (p.2.loaded = true ∧ p.2.model = k))).map (·.1)

/-! ## The forecast area (R196, R213; log entry 15) -/

/-- A physical address lies in the forecast area of its stack (R196). -/
def State.inForecast (s : State) (pa : Nat) : Bool := decide (12 - s.odv 0xA010 0 ≤ (pa / regionBytes) % 12)

/-- What the loader keeps in a stack's forecast area. -/
inductive Kept4 where
  | master (model : Nat)
  | vat (core model : Nat)
  | history (stream : Nat)
  | candidate (model : Nat)
  | image (model : Nat)
  deriving DecidableEq, Repr

/-- The world of a kept object. -/
def State.keptSecure (s : State) : Kept4 → Bool
  | .master k => (s.model k).secure
  | .vat _ k => (s.model k).secure
  | .history n => (s.model (s.stream n).model).secure
  | .candidate i => match tabFind s.te.jobs i with | some j => (s.model j.model).secure | none => false
  | .image i => (tabGet {} s.te.ripening i).secure

/-- The loader's objects in the forecast area of a stack, with their bytes in whole blocks. -/
def State.forecastItems (s : State) (n : Nat) : List (Kept4 × Nat) :=
  ((s.te.models.filter (fun p => decide (n ∈ p.2.masters))).map (fun p => (Kept4.master p.1, blockBytes p.2.imageLen))) ++
  ((s.te.layout.filter (fun p => decide (p.1 / 8 = n))).flatMap (fun p =>
    (p.2.copies.filter (fun c => decide (c.hbm ≠ 0))).map (fun c => (Kept4.vat p.1 c.model, blockBytes c.hbm)))) ++
  ((s.te.streams.filter (fun p => match p.2.slot with | some k => decide (k / 64 = n) | none => false)).map (fun p =>
    (Kept4.history p.1, blockBytes ((s.model p.2.model).area 5)))) ++
  ((s.te.jobs.filter (fun j => decide ((j.2.participants.headD 0) / 8 = n))).map (fun j =>
    (Kept4.candidate j.1, blockBytes (s.model j.2.model).weightsLen))) ++
  ((s.te.ripening.filter (fun p => decide (n ∈ p.2.masters))).map (fun p => (Kept4.image p.1, blockBytes p.2.imageLen)))

/-- The forecast regions of a stack in each world, as the loader found them when it laid its objects there. -/
def State.forecastRooms (s : State) (n : Nat) : List Nat × List Nat :=
  match tabFind s.te.hbmRooms n with
  | some r => r
  | none => (s.floorplan.forecastRooms n false, s.floorplan.forecastRooms n true)

/-- Walk a list of objects to the one that holds an offset. -/
def walkKept : List (Kept4 × Nat) → Nat → Option (Kept4 × Nat)
  | [], _ => none
  | (k, n) :: t, a => if a < n then some (k, a) else walkKept t (a - n)

/-- Offset at which an object starts. -/
def keptStart (x : Kept4) : List (Kept4 × Nat) → Nat
  | [] => 0
  | (k, n) :: t => if k = x then 0 else n + keptStart x t

/-- The object that holds an address of a forecast area, and the offset in it: the objects of a world lie one after another
in the world's regions. -/
def State.forecastAt (s : State) (pa : Nat) : Option (Kept4 × Nat) :=
  let n := pa / stackBytes
  let k := pa / regionBytes % 12
  let r := s.forecastRooms n
  let w := decide (k ∈ r.2)
  match (if w then r.2 else r.1).idxOf? k with
  | some i => walkKept ((s.forecastItems n).filter (fun x => s.keptSecure x.1 == w)) (i * regionBytes + pa % regionBytes)
  | none => none

/-- The physical address of an offset in an object of a stack. -/
def State.keptPa (s : State) (n : Nat) (x : Kept4) (off : Nat) : Nat :=
  let w := s.keptSecure x
  let r := s.forecastRooms n
  let a := keptStart x ((s.forecastItems n).filter (fun y => s.keptSecure y.1 == w)) + off
  n * stackBytes + ((if w then r.2 else r.1)[a / regionBytes]?.getD 11) * regionBytes + a % regionBytes

/-- The flipped bits of a word of an object. -/
def State.keptMask (s : State) (n : Nat) (x : Kept4) (off : Nat) : Nat :=
  match x with
  | .master k => tabGet 0 (s.model k).masterErrs (n * 2 ^ 32 + off)
  | .vat c k => tabGet 0 (s.core c).vatErrs (k * 2 ^ 32 + off)
  | .history m => tabGet 0 (s.stream m).history.errs off
  | .candidate i => match tabFind s.te.jobs i with | some j => tabGet 0 j.candidate.errs off | none => 0
  | .image i => tabGet 0 (tabGet {} s.te.ripening i).masterErrs (n * 2 ^ 32 + off)

/-- Change a registered ripening image. -/
def State.setRipening (s : State) (i : Nat) (f : Model → Model) : State :=
  { s with te := { s.te with ripening := s.te.ripening.map (fun p => (p.1, if p.1 = i then f p.2 else p.2)) } }

/-- Set the flipped bits of a word of an object. -/
def State.setKept (s : State) (n : Nat) (x : Kept4) (off mask : Nat) : State :=
  let put := fun (m : Mem) => { m with errs := tabPut 0 m.errs off mask }
  match x with
  | .master k => s.setModel k (fun m => { m with masterErrs := tabPut 0 m.masterErrs (n * 2 ^ 32 + off) mask })
  | .vat c k => s.setCore c (fun m => { m with vatErrs := tabPut 0 m.vatErrs (k * 2 ^ 32 + off) mask })
  | .history m => s.setStream m (fun t => { t with history := put t.history })
  | .candidate i => s.setJob i (fun j => { j with candidate := put j.candidate })
  | .image i => s.setRipening i (fun m => { m with masterErrs := tabPut 0 m.masterErrs (n * 2 ^ 32 + off) mask })

/-- The valid blocks of an object in stack `n`: the loader has written a master copy, vat-mode weights and a ripening image
whole. -/
def State.keptBlocks (s : State) (n : Nat) (x : Kept4) (bytes : Nat) : List Nat :=
  match x with
  | .master k => (upTo (bytes / 4096)).filter (fun b => decide ((n, b) ∉ (s.model k).masterGone))
  | .image i => (upTo (bytes / 4096)).filter (fun b => decide ((n, b) ∉ (tabGet {} s.te.ripening i).masterGone))
  | .vat c k => (upTo (bytes / 4096)).filter (fun b => decide ((k, b) ∉ (s.core c).vatGone ∧
      (c, k, s.keptPa (c / 8) x (4096 * b) / regionBytes) ∉ s.te.hbmCleared))
  | .history m => (s.stream m).history.valid
  | .candidate i => match tabFind s.te.jobs i with | some j => j.candidate.valid | none => []

/-- An upset strikes a word of an object in a forecast area, or the valid bit of its block. -/
def State.keptUpset (s : State) (n : Nat) (x : Kept4) (off mask : Nat) : State :=
  match x with
  | .history m => s.setStream m (fun t => { t with history := t.history.upset 4096 off mask })
  | .candidate i => s.setJob i (fun j => { j with candidate := j.candidate.upset 4096 off mask })
  | x =>
    let s := s.setKept n x (off / 4 * 4) (s.keptMask n x (off / 4 * 4) ^^^ fld mask 0 39)
    if fld mask 39 3 = 0 then s
    else { s with cd := { s.cd with hbm := { s.cd.hbm with
      votes := tabMod 0 s.cd.hbm.votes (s.keptPa n x off / 4096) (fun v => v ^^^ fld mask 39 3) } } }

/-- The valid bit of a block of a master copy or a ripening image is clear: the block is unusable, and reads zero. -/
def Model.loseBlock (m : Model) (n block : Nat) : Model :=
  { m with badMasters := ordInsert m.badMasters n, masterGone := (n, block) :: m.masterGone.filter (· ≠ (n, block)),
           masterErrs := m.masterErrs.filter (fun e => decide (e.1 / 4096 ≠ n * 2 ^ 20 + block)) }

/-- A model whose image has other contents. -/
def Model.withImage (m : Model) (image : Blob) : Model :=
  { m with image := image, prog := bytesAt image (64 + 16 * m.bufs.length) m.progLen,
           weights := bytesAt image (m.imageLen - m.weightsLen) m.weightsLen }

/-- A ripening image without the contents of a block. -/
def Model.zeroBlock (m : Model) (block : Nat) : Model := m.withImage (setBytes m.image (4096 * block) 4096 0)

/-- An image some of whose words were delivered with other data bits: offset, and the bits that differ (R204). -/
def Model.altered (m : Model) (words : List (Nat × Nat)) : Model :=
  if words = [] then m
  else m.withImage (words.foldl (fun (b : Blob) (x : Nat × Nat) => b ^^^ (x.2 <<< (8 * x.1))) m.image)

/-- Consequence of an uncorrectable word in a forecast area (R213). -/
def State.forecastBad (s : State) (pa : Nat) : State :=
  match s.forecastAt pa with
  | none => s
  | some (.master k, _) => s.setModel k (fun m => { m with badMasters := ordInsert m.badMasters (pa / stackBytes) })
  | some (.vat c k, _) =>
    ((s.streamsOn c).filter (fun n => decide ((s.stream n).model = k))).foldl (fun s n =>
      s.setStream n (fun t => { t with copying := true, run := none })) s
  | some (.history n, off) =>
    let s := s.setStream n (fun t => { t with history := t.history.clear 4096 (off / 4096 * 4096) 4096 })
    s.count (0x3A00 + n) 6
  | some (.candidate i, off) => s.setJob i (fun j => { j with candidate := j.candidate.clear 4096 (off / 4096 * 4096) 4096 })
  | some (.image i, off) =>
    s.setRipening i (fun m => (m.loseBlock (pa / stackBytes) (off / 4096)).zeroBlock (off / 4096))

/-! ## HBM -/

/-- Count, log and raise an uncorrectable word of HBM; sixteen distinct words in 1 s fail the stack (R213, R214). -/
def State.hbmBad (s : State) (pa : Nat) : State :=
  let n := pa / stackBytes
  let s := s.count (0xA100 + n) 5
  let recent := s.cd.badWords.filter (fun w => decide (s.intake < w.2.2 + 1000000 ∧ w.2.1 ≠ pa))
  let s := { s with cd := { s.cd with lastBad := tabPut 0 s.cd.lastBad n pa, badWords := (n, pa, s.intake) :: recent } }
  let s := (s.logLimited 16 n 0xA001 (packBytes [(8, pa), (2, n), (1, 0)])).raise irqMemory
  let s := if s.inForecast pa then s.forecastBad pa else s
  let words : List (Nat × Nat × Nat) := s.cd.badWords.filter (fun w => decide (w.1 = n))
  if 16 ≤ words.length then s.stackFailed n 2 else s

/-- Apply what an HBM access met. -/
def State.hbmFx (s : State) (fx : MemFx) (pa : Nat) : State :=
  let s := fx.corrected.foldl (fun s a => s.count (0xA100 + a / stackBytes) 1) s
  let s := if fx.fills = 0 then s else s.count (0xA100 + pa / stackBytes) 6 fx.fills
  fx.bad.foldl (fun s a => s.hbmBad a) s

/-- Disagreements of valid-bit copies found (R207, R208). -/
def State.disagreed (s : State) (n : Nat) : State := if n = 0 then s else s.count 0xA040 0 n

/-- Apply upsets to HBM. -/
def State.hbmUpsets (s : State) (us : List Upset) : State :=
  us.foldl (fun s u =>
    if u.space ≠ .hbm then s
    else
      -- a block that no object holds has its errors and its valid bit by address
      match if s.inForecast u.addr then s.forecastAt u.addr else none with
      | some (x, off) => s.keptUpset (u.addr / stackBytes) x off u.mask
      | none => { s with cd := { s.cd with hbm := s.cd.hbm.upset 4096 u.addr u.mask } }) s

/-- A block that the loader has written loses its valid bit: a master copy is unusable, and words of vat-mode weights read
zero (R208; log entry 99). -/
def State.blockLost (s : State) (pa : Nat) : State :=
  match s.forecastAt pa with
  | some (.master k, off) => s.setModel k (fun m => m.loseBlock (pa / stackBytes) (off / 4096))
  | some (.image i, off) =>
    s.setRipening i (fun m => (m.loseBlock (pa / stackBytes) (off / 4096)).zeroBlock (off / 4096))
  | some (.vat c k, off) => s.setCore c (fun x => { x with
      vatGone := (k, off / 4096) :: x.vatGone.filter (· ≠ (k, off / 4096)),
      vatErrs := x.vatErrs.filter (fun e => decide (e.1 / 4096 ≠ k * 2 ^ 20 + off / 4096)) })
  | _ => s

/-- Compare the valid-bit copies of the blocks of a range: of the host area in its map, of what the loader keeps in the
forecast area by object. -/
def State.hbmVote (s : State) (pa n : Nat) : State :=
  if s.inForecast pa ∧ (s.forecastAt pa).isSome = true then
    let struck := s.cd.hbm.votes.filter (fun v => decide (n ≠ 0 ∧ pa / 4096 ≤ v.1 ∧ v.1 ≤ (pa + n - 1) / 4096))
    let rest := s.cd.hbm.votes.filter (fun v => decide (v ∉ struck))
    let s := { s with cd := { s.cd with hbm := { s.cd.hbm with votes := rest } } }
    let s := (struck.filter (fun v => outvoted v.2)).foldl (fun s v => s.blockLost (4096 * v.1)) s
    s.disagreed (struck.filter (fun v => decide (v.2 ≠ 7))).length
  else
    let r := s.cd.hbm.vote 4096 pa n
    ({ s with cd := { s.cd with hbm := r.1 } }).disagreed r.2

/-- Parts of a byte range, cut at the 4 GiB segments of BAR2 (R199). -/
def bar2Parts (off n : Nat) : List (Nat × Nat) :=
  let first := off / regionBytes
  let last := (off + n - 1) / regionBytes
  if n = 0 then [] else
    (upTo (last - first + 1)).map (fun i =>
      let lo := max off ((first + i) * regionBytes)
      let hi := min (off + n) ((first + i + 1) * regionBytes)
      (lo, hi - lo))

/-- The physical address of a BAR2 offset, if its segment is mapped (R199). -/
def State.bar2Map (s : State) (off : Nat) : Option Nat :=
  let r := item 1 (s.effv 0xA020 0) (off / regionBytes)
  if off < 64 * regionBytes ∧ r < 144 then some (r * regionBytes + off % regionBytes) else none

/-- The region of a physical address is secure (R93). -/
def State.hbmSecure (s : State) (pa : Nat) : Bool := bitAt (s.effv 0xB030 0) (pa / regionBytes)

/-- The host regions of the stack can be reached (R214). -/
def State.stackReachable (s : State) (pa : Nat) : Bool :=
  s.cd.running && decide (tabGet 0 s.cd.stackCond (pa / stackBytes) ≠ 4 ∧ tabGet 0 s.cd.stackCond (pa / stackBytes) ≠ 0)

/-- Read bytes at a BAR2 offset as stored, for the loader acting for a request of a world: zeros where nothing can be read
(R94, R181, R200).  DESIGN CHOICE (log entry 98): an uncorrectable word of the host area, for which R213 names no such reader, is
read as zero, and the loader goes on with its checks and the load. -/
def State.imageBytes (s : State) (secure : Bool) (off n : Nat) : Nat :=
  packBytes ((bar2Parts off n).map (fun x => (x.2, match s.bar2Map x.1 with
    | some pa => if s.stackReachable pa && (secure || !s.hbmSecure pa) then (s.cd.hbm.read 4096 pa x.2).1 else 0
    | none => 0)))

/-- An image that a non-secure request names lies in part in a secure region: the loader's reads there are suppressed and
counted, once for the request (R94; log entry 98). -/
def State.imageViolation (s : State) (secure : Bool) (off n : Nat) : State :=
  if !secure && (bar2Parts off n).any (fun x => match s.bar2Map x.1 with | some pa => s.hbmSecure pa | none => false)
  then s.violation else s

/-- What the loader's read of image bytes meets: the copies of the valid bits are compared, and the words decoded (R207, R208,
R212, R213). -/
def State.imageFx (s : State) (secure : Bool) (off n : Nat) : State :=
  (bar2Parts off n).foldl (fun (s : State) x =>
    match s.bar2Map x.1 with
    | none => s
    | some pa =>
      if s.stackReachable pa && (secure || !s.hbmSecure pa) then
        let s := (s.hbmMoved 42 pa x.2).hbmVote pa x.2
        s.hbmFx (s.cd.hbm.read 4096 pa x.2).2 pa
      else s) s

/-- The loader reads the words of one of its own objects in a stack's forecast area, to copy them: whether every word could be
read, and the words that are delivered with other data bits than were written (R204, R212, R213). -/
def State.loaderRead (s : State) (n : Nat) (x : Kept4) (bytes : Nat) : State × Bool × List (Nat × Nat) :=
  let s := if bytes = 0 then s else (s.active n 42 (pieces 0 bytes)).hbmVote (s.keptPa n x 0) bytes
  let odd : List Nat := match x with
    | .master k => ((s.model k).masterErrs.filter (fun e => decide (e.1 / 2 ^ 32 = n ∧ e.1 % 2 ^ 32 < bytes))).map (fun e => e.1 % 2 ^ 32)
    | .image i => ((tabGet {} s.te.ripening i).masterErrs.filter (fun e => decide (e.1 / 2 ^ 32 = n ∧ e.1 % 2 ^ 32 < bytes))).map (fun e => e.1 % 2 ^ 32)
    | _ => []
  let met := odd.map (fun o => (o, eccDecode (s.keptMask n x o)))
  let whole := match x with | .master k => decide (n ∉ (s.model k).badMasters) | _ => true
  (met.foldl (fun (s : State) m => match m.2 with
    | .corrected _ => s.count (0xA100 + n) 1
    | .bad => s.hbmBad (s.keptPa n x m.1)
    | .clean _ => s) s, whole && !met.any (fun m => decide (m.2 = .bad)),
   (met.filter (fun m => decide (m.2.residual ≠ 0))).map (fun m => (m.1, m.2.residual)))

/-- The loader reads a model from its master copies, the second where the first is bad; the words delivered with other data
bits (R183, R204, R213). -/
def State.readMaster (s : State) (k : Nat) : State × List (Nat × Nat) :=
  let r := (s.model k).masters.foldl (fun (x : State × Bool × List (Nat × Nat)) n =>
    if x.2.1 then x else x.1.loaderRead n (.master k) (s.model k).imageLen) (s, false, [])
  (r.1, r.2.2)

/-- Write bytes at a BAR2 offset for a program of a world; the words met (R94, R131, R190, R199, R211). -/
def State.bar2Store (s : State) (off n : Nat) (v : Blob) (secure : Bool) : State × MemFx :=
  let part := fun (x : State × MemFx) (p : Nat × Nat) =>
    let s := x.1
    match s.bar2Map p.1 with
    | none => (s.count 0xA050 3, x.2)
    | some pa =>
      if s.hbmSecure pa && !secure then (s.violation, x.2)
      else if !s.stackReachable pa then (s.count 0xA050 1, x.2)
      else
        let r := s.cd.hbm.writeWhole 4096 pa p.2 (bytesAt v (p.1 - off) p.2)
        ({ s with cd := { s.cd with hbm := r.1 } }.hbmFx r.2 pa |>.hbmMoved 43 pa p.2, x.2.add r.2)
  let s := (bar2Parts off n).foldl (fun s p => match s.bar2Map p.1 with | some pa => s.hbmVote pa p.2 | none => s) s
  let r := (bar2Parts off n).foldl part (s, {})
  -- a part that drops a write leaves the other parts unwritten too
  if r.2.dropped = 0 then r else ({ r.1 with cd := { r.1.cd with hbm := { r.1.cd.hbm with
    cells := s.cd.hbm.cells, errs := s.cd.hbm.errs, valid := s.cd.hbm.valid } } }, r.2)

/-! ## SRAM words (R207, R212, R213) -/

/-- A word is valid, as its writer left it: the loader has written programs and weights, and the CD's start the control state
of a cluster, unless a world change has cleared their words since; a word of a repetitive controller's table is valid once it
has been written, the other macros of the SIOD once their block has filled them, the 256 KiB of the Gangway table memory among
them (R202, R207, R210; log entry 99).  A valid bit outlasts the area that it was set for. -/
def State.wordWritten (s : State) (a : Nat) : Bool :=
  spanHas s.te.stale a ||
  match s.locate a with
  | (.program _ _, _) | (.weights _ _, _) | (.shared _ _ _, _) | (.hostWeights _, _) | (.hostCode _, _) | (.ripenCode _, _) =>
    !spanHas s.te.cleared a
  | (.reserve c, _) => (s.core c).reserveOn
  | (.control _, _) => s.cd.running && !spanHas s.te.cleared a
  | (.siod, off) =>
    let m := off / 2 ^ 20
    if m < 8 then decide (m % 2 * 2 ^ 18 + off % 2 ^ 20 / 4 ∈ (tabGet {} s.ce.kept.rcs (m / 2)).valid)
    else bitAt s.power.siodWritten m && decide (m ≠ 16 ∨ off % 2 ^ 20 < 2 ^ 18)
  | (.state n, off) => (s.stream n).stateMem.isValid 4 off
  | (.output n, off) => (s.stream n).outMem.isValid 4 off
  | (.scratch n, off) => decide (off / 4 ∈ (s.stream n).scratchValid)
  | (.hostScratch c, off) => match tabFind s.te.host c with | some r => r.scratch.isValid 4 off | none => false
  | (.ripenScratch c, off) => match tabFind s.te.ripen c with | some r => r.scratch.isValid 4 off | none => false
  | (.intake n b, off) =>
    match tabFind s.te.intake (n * 8 + b) with
    | some i => if off < 64 then i.header || decide (off / 4 = 2 ∧ i.mask ≠ 0) else bitAt i.mask ((off - 64) / 64)
    | none => false
  | (.free, _) => false

/-- An SRAM word's valid bit as its three copies' majority gives it (R207). -/
def State.sramValid (s : State) (a : Nat) : Bool := s.wordWritten a != decide (a / 4 * 4 ∈ s.cd.sramFlips)

/-- A block of the SIOD has filled macros `lo` to `hi − 1` (R207). -/
def State.wroteSiod (s : State) (lo hi : Nat) : State :=
  { s with power := { s.power with siodWritten := s.power.siodWritten ||| (2 ^ (hi - 768) - 2 ^ (lo - 768)) } }

/-- Count a corrected read of SRAM (R212). -/
def State.sramCorrected (s : State) (a : Nat) : State :=
  let m := a / 2 ^ 20
  let s := s.count (0xA300 + m) 1
  if m < 768 then s.count (0xA200 + macroCluster m) 1 else s

/-- The hint record that holds an intake word is dropped (R163, R213). -/
def State.dropIntake (s : State) (n bank off : Nat) : State :=
  let row := (off - 64) / 64
  if off < 64 then s
  else
    let s := { s with te := { s.te with intake := tabMod {} s.te.intake (n * 8 + bank) (fun i =>
      { i with mask := setBit i.mask row false, data := setBytes i.data (64 * row) 64 0 }) } }
    (s.count 0x3210 1).count (0x3A00 + n) 2

/-- An uncorrectable word of SRAM: counted, logged, interrupted, and acted on for its place (R213). -/
def State.sramBad (s : State) (a : Nat) : State :=
  let m := a / 2 ^ 20
  let s := s.count (0xA300 + m) 3
  let s := if m < 768 then s.count (0xA200 + macroCluster m) 2 else s
  let s := (s.logLimited 16 (16 + m) 0xA001 (packBytes [(8, a % 2 ^ 20), (2, m), (1, 1)])).raise irqMemory
  match s.locate a with
  | (.program _ _, _) | (.weights _ _, _) | (.state _, _) | (.hostWeights _, _) | (.hostCode _, _) | (.ripenCode _, _) =>
    s.fenceOne (m / 4) 3
  | (.shared _ _ _, _) | (.control _, _) => s.fenceCluster (macroCluster m) 8
  | (.intake n b, off) => s.dropIntake n b off
  | (.siod, _) => { s with hold := { s.hold with damageDue := true } }
  | _ => s

/-- Apply upsets to SRAM codewords and to the copies of their valid bits. -/
def State.sramUpsets (s : State) (us : List Upset) : State :=
  let strike := fun (m : Mem) (u : Upset) =>
    if u.space = .sram then
      { m with errs := tabMod 0 m.errs (u.addr / 4 * 4) (fun e => e ^^^ fld u.mask 0 39),
               votes := tabMod 0 m.votes (u.addr / 4) (fun v => v ^^^ fld u.mask 39 3) }
    else m
  { s with cd := { s.cd with sram := us.foldl strike s.cd.sram } }

/-- Apply every upset that has struck. -/
def State.upsets (s : State) (us : List Upset) : State := (s.hbmUpsets us).sramUpsets us

/-- A read of a word compares the copies of its valid bit: the majority is kept and written back (R207; log entry 1). -/
def State.sramVote (s : State) (a : Nat) : State :=
  match tabFind s.cd.sram.votes (a / 4) with
  | none => s
  | some v =>
    let s := { s with cd := { s.cd with sram := { s.cd.sram with votes := tabErase s.cd.sram.votes (a / 4) } } }
    let s := if v = 7 then s else s.disagreed 1
    if outvoted v then
      let flips := if a ∈ s.cd.sramFlips then s.cd.sramFlips.filter (· ≠ a) else ordInsert s.cd.sramFlips a
      let s := { s with cd := { s.cd with sramFlips := flips } }
      if s.wordWritten a then s
      else { s with cd := { s.cd with sram := { s.cd.sram with
        errs := tabPut 0 s.cd.sram.errs a (Config.strayWord a % 2 ^ 39) } } }
    else s

/-- Words of an area's byte range that are not simply good, with their offset in the area. -/
def State.oddWords (s : State) (want : Area → Bool) (a n : Nat) : List (Nat × Nat) :=
  let keys : List Nat := (s.cd.sram.errs.map (fun (e : Nat × Nat) => e.1) ++ s.cd.sram.votes.map (fun (v : Nat × Nat) => 4 * v.1) ++ s.cd.sramFlips).foldl ordInsert []
  keys.filterMap (fun x =>
    let l := s.locate x
    if want l.1 && decide (a / 4 * 4 ≤ l.2 ∧ l.2 < a + n) then some (x, l.2) else none)

/-- What an access came to: the state, the data, and whether the command goes on. -/
structure Got where
  s : State
  data : Blob
  ok : Bool

/-- What a read of an SRAM word meets: nothing where its valid bit is clear. -/
def State.sramMeets (s : State) (x : Nat) : Option Ecc :=
  if s.sramValid x then some (eccDecode (tabGet 0 s.cd.sram.errs x)) else none

/-- Act on what the reads of some SRAM words met (R212, R213). -/
def State.sramAct (s : State) (met : List (Nat × Option Ecc)) : State :=
  met.foldl (fun s m => match m.2 with
    | some (.corrected _) => s.sramCorrected m.1
    | some .bad => s.sramBad m.1
    | _ => s) s

/-- Read bytes of an area, `rd` giving what was written there: words changed by a miscorrection are delivered changed, and
words whose valid bit is lost as zero; the command fails at an uncorrectable word outside the intake buffer (R204, R207,
R212, R213).  Words that `seen` names are read with an earlier read, which has counted them (R150). -/
def State.sramReadBut (s : State) (seen : Nat → Bool) (want : Area → Bool) (a n : Nat) (rd : State → Nat → Nat → Blob) : Got :=
  let odd := s.oddWords want a n
  let s := odd.foldl (fun s w => s.sramVote w.1) s
  let met := odd.map (fun w => (w, s.sramMeets w.1))
  let intake := fun (x : Nat) => match (s.locate x).1 with | .intake _ _ => true | _ => false
  let ok := !met.any (fun m => decide (m.2 = some .bad) && !intake m.1.1)
  let s := s.sramAct ((met.filter (fun m => !seen m.1.2)).map (fun m => (m.1.1, m.2)))
  let a0 := a / 4 * 4
  let raw := met.foldl (fun d m => match m.2 with
    | none => setBytes d (m.1.2 - a0) 4 0
    | some e => d ^^^ (e.residual <<< (8 * (m.1.2 - a0)))) (rd s a0 (4 * (wordsOf a n).length))
  ⟨s, bytesAt raw (a - a0) n, ok⟩

/-- Read bytes of an area. -/
def State.sramRead (s : State) (want : Area → Bool) (a n : Nat) (rd : State → Nat → Nat → Blob) : Got :=
  s.sramReadBut (fun _ => false) want a n rd

/-- Forget the errors and the struck valid bits of SRAM words: they have been written. -/
def State.sramRewrite (s : State) (ws : List Nat) : State :=
  { s with cd := { s.cd with
      sram := { s.cd.sram with errs := s.cd.sram.errs.filter (fun e => decide (e.1 ∉ ws)),
                               votes := s.cd.sram.votes.filter (fun v => decide (4 * v.1 ∉ ws)) },
      sramFlips := s.cd.sramFlips.filter (fun x => decide (x ∉ ws)) } }

/-- Whole words of areas have been written: no error of theirs stays (R207, R211). -/
def State.wroteArea (s : State) (want : Area → Bool) (a n : Nat) : State :=
  s.sramRewrite ((s.oddWords want a n).map (·.1))

/-- Write bytes of an area whose contents stand in `m`: partial words merge with what a read delivers; nothing is written
where such a word is uncorrectable (R131, R211). -/
def State.sramWrite (s : State) (want : Area → Bool) (m : Mem) (a n : Nat) (v : Blob) : Got × Mem :=
  let odd := s.oddWords want a n
  let partly := odd.filter (fun w => decide (w.2 < a ∨ a + n < w.2 + 4))
  let s := partly.foldl (fun s w => s.sramVote w.1) s
  let met := partly.map (fun w => (w, s.sramMeets w.1))
  let bad := met.any (fun x => decide (x.2 = some .bad))
  let s := s.sramAct (met.map (fun x => (x.1.1, x.2)))
  if bad then (⟨s, 0, false⟩, m)
  else
    let m := met.foldl (fun m x =>
      let data := match x.2 with
        | none => 0
        | some e => cellsGet memZero m.cells x.1.2 4 ^^^ e.residual
      (m.write 4 x.1.2 4 data).1) m
    (⟨s.sramRewrite (odd.map (·.1)), 0, true⟩, (m.write 4 a n v).1)

/-! ## Laying cores out (R176, R177, R180) -/

/-- An area that the loader writes when it lays a core out. -/
def Area.loaders (core : Nat) (copies : List Copy) : Area → Bool
  | .program c _ | .weights c _ => decide (c = core)
  | .shared n k _ => decide (n = core / 8) && copies.any (fun x => decide (x.model = k))
  | _ => false

/-- Lay out a core for the streams that now stand on it: the loader writes its programs and weights anew, so what a world
change had cleared there is written again, and no error of the words it writes stays; what the load in progress places there
follows. -/
def State.relay (s : State) (core : Nat) : State :=
  let old := s.floorplan.copies core
  let fp := s.floorplan.relay core
  let s := { s with te := { s.te with layout := fp.layout, hbmCleared := s.te.hbmCleared.filter (fun x => decide (x.1 ≠ core)) } }
  let s := s.loaderWrites core (fun a => match a with | .program _ _ | .weights _ _ | .shared _ _ _ => true | _ => false)
  let s := match s.te.load with
    | some l =>
      if l.op = 1 ∧ (tabFind l.layout core).isSome then
        { s with te := { s.te with load := some { l with
          layout := tabPut {} l.layout core (tabGet {} (s.planned.relay core).layout core) } } }
      else s
    | none => s
  let s := if s.cd.sram.errs = [] ∧ s.cd.sram.votes = [] ∧ s.cd.sramFlips = [] then s
    else s.wroteArea (Area.loaders core (fp.copies core)) 0 (2 ^ 32)
  -- the blocks of vat-mode weights that the loader writes for the first time are zero-filled (R208)
  let fresh := (fp.copies core).filter (fun c => decide (c.hbm ≠ 0) && !old.any (fun o => decide (o.model = c.model ∧ o.hbm = c.hbm)))
  let fills := (fresh.map (fun c => ceilDiv c.hbm 4096)).sum
  if fills = 0 then s
  else (s.setCore core (fun k => { k with
    vatErrs := k.vatErrs.filter (fun e => !fresh.any (fun c => decide (c.model = e.1 / 2 ^ 32))),
    vatGone := k.vatGone.filter (fun g => !fresh.any (fun c => decide (c.model = g.1))) })).count (0xA100 + core / 8) 6 fills

/-- The copy that the loader has laid out on a core has altered words where its source delivered them so: good codewords of
other data (R204). -/
def State.layAltered (s : State) (core key : Nat) (words : List (Nat × Nat)) : State :=
  let m := s.model key
  let head := 64 + 16 * m.bufs.length
  let body := m.imageLen - m.weightsLen
  let put := fun (s : State) (a : Area) (off code : Nat) => match s.areaAddr core m.secure a off with
    | some x => { s with cd := { s.cd with sram := { s.cd.sram with errs := tabPut 0 s.cd.sram.errs (x / 4 * 4) code } } }
    | none => s
  words.foldl (fun (s : State) x =>
    let code := codeOf x.2
    if head ≤ x.1 ∧ x.1 < head + m.progLen then put s (.program core key) (x.1 - head) code
    else if x.1 < body then s
    else
      let o := x.1 - body
      match s.floorplan.copy core key with
      | none => s
      | some c =>
        if o < c.loc then put s (.weights core key) o code
        else if o < c.loc + c.clus then put s (.shared (core / 8) key c.loc) o code
        else s.setKept (core / 8) (.vat core key) (o - (c.loc + c.clus)) code) s

/-- Copies that no stream uses leave the layout. -/
def State.trimLayout (s : State) : State :=
  { s with te := { s.te with layout := s.floorplan.trim.layout } }

/-- The valid blocks of the objects of a stack that are none of `now`. -/
def State.leftBlocks (s : State) (n : Nat) (now : List (Kept4 × Nat)) : List Nat :=
  ((s.forecastItems n).filter (fun x => !now.any (fun y => decide (y.1 = x.1)))).flatMap (fun x =>
    (s.keptBlocks n x.1 x.2).map (fun b => s.keptPa n x.1 (4096 * b) / 4096))

/-- Nothing clears a valid bit but what R210 lists: after a change of what stands in TE SRAM and in the forecast areas, the
words and blocks that were valid before it stay valid.  DESIGN CHOICE (log entry 110): a word that an area finds so, and has
not written itself, holds a free value; a new object of a forecast area is laid in blocks whose bits are clear. -/
def State.keepValid (s before : State) : State :=
  let s := s.keepWords before before.usedCores
  let left := (upTo 12).flatMap (fun n => before.leftBlocks n (s.forecastItems n))
  if left = [] then s
  else { s with cd := { s.cd with hbm := { s.cd.hbm with valid := ordMerge (left.foldl ordInsert []) s.cd.hbm.valid } } }

/-- Count abandoned ripening jobs (R247). -/
def State.abandonIds (s : State) (ids : List Nat) : State := if ids = [] then s else (s.abandonJobs ids).keepValid s

/-! ## BAR2 (R199, R200, R213) -/

/-- A host read through BAR2: poisoned, and the data.  DESIGN CHOICE (log entry 98): while the CD is off a read of a mapped
segment completes with zeros, unpoisoned, and a write is dropped; neither is counted. -/
def State.bar2Read (s : State) (off n : Nat) (us : List Upset) : State :=
  if !s.services || s.host.d3hot then s
  else
    let s := s.hbmUpsets us
    let part := fun (x : State × Bool × List (Nat × Nat)) (p : Nat × Nat) =>
      let s := x.1
      let zero := fun (s : State) (bad : Bool) => (s, x.2.1 || bad, x.2.2 ++ [(p.2, 0)])
      match s.bar2Map p.1 with
      | none => zero (s.count 0xA050 3) false
      | some pa =>
        if s.hbmSecure pa then zero s.violation false
        else if !s.cd.running then zero s false
        else if !s.stackReachable pa then zero s true
        else
          let s := (s.hbmMoved 42 pa p.2).hbmVote pa p.2
          let r := s.cd.hbm.read 4096 pa p.2
          (s.hbmFx r.2 pa, x.2.1 || decide (r.2.bad ≠ []), x.2.2 ++ [(p.2, r.1)])
    let r := (bar2Parts off n).foldl part (s, false, [])
    if r.2.1 then (r.1.count 0xA050 1).emit (.bar2 true n 0) else r.1.emit (.bar2 false n (packBytes r.2.2))

/-- A host write through BAR2. -/
def State.bar2Write (s : State) (off n : Nat) (v : Blob) (us : List Upset) : State :=
  if !s.services || s.host.d3hot then s
  else
    let s := s.hbmUpsets us
    (bar2Parts off n).foldl (fun s p =>
      match s.bar2Map p.1 with
      | none => s.count 0xA050 3
      | some pa =>
        if s.hbmSecure pa then s.violation
        else if !s.cd.running then s
        else if !s.stackReachable pa then s.count 0xA050 1
        else
          let s := (s.hbmMoved 43 pa p.2).hbmVote pa p.2
          let r := s.cd.hbm.write 4096 pa p.2 (bytesAt v (p.1 - off) p.2)
          let s := { s with cd := { s.cd with hbm := r.1 } }.hbmFx r.2 pa
          if r.2.dropped = 0 then s else s.count 0xA050 2 r.2.dropped) s

/-! ## Scrubbing (R215, R216) -/

/-- The flipped bits of a word of HBM. -/
def State.hbmMask (s : State) (pa : Nat) : Nat :=
  match if s.inForecast pa then s.forecastAt pa else none with
  | some (x, off) => s.keptMask (pa / stackBytes) x off
  | none => tabGet 0 s.cd.hbm.errs pa

/-- Set them: a whole codeword has been written. -/
def State.setHbmMask (s : State) (pa mask : Nat) : State :=
  match if s.inForecast pa then s.forecastAt pa else none with
  | some (x, off) => s.setKept (pa / stackBytes) x off mask
  | none => { s with cd := { s.cd with hbm := { s.cd.hbm with errs := tabPut 0 s.cd.hbm.errs pa mask } } }

/-- The valid blocks of a stack: of its host area, those that no object holds any more, and of the objects in its forecast
area. -/
def State.validBlocks (s : State) (n : Nat) : List Nat :=
  s.cd.hbm.valid.filter (fun b => decide (b * 4096 / stackBytes = n) &&
    (!s.inForecast (4096 * b) || (s.forecastAt (4096 * b)).isNone)) ++
  (s.forecastItems n).flatMap (fun x => (s.keptBlocks n x.1 x.2).map (fun b => s.keptPa n x.1 (4096 * b) / 4096))

/-- The first valid block from a place upwards. -/
def State.nextBlock (s : State) (n lo : Nat) : Option Nat :=
  (s.validBlocks n).foldl (fun m b => if b < lo then m else match m with | none => some b | some x => some (min x b)) none

/-- The words with errors in a block. -/
def State.blockErrs (s : State) (b : Nat) : List Nat :=
  ((upTo 1024).map (fun i => 4096 * b + 4 * i)).filter (fun a => decide (s.hbmMask a ≠ 0))

/-- Compare the valid-bit copies of a block, in the valid map or with the object that the block belongs to. -/
def State.blockVote (s : State) (b : Nat) : State :=
  let s := s.hbmVote (4096 * b) 4096
  if s.inForecast (4096 * b) then
    match s.forecastAt (4096 * b) with
    | some (.history m, off) =>
      let r := (s.stream m).history.vote 4096 off 4096
      (s.setStream m (fun t => { t with history := r.1 })).disagreed r.2
    | some (.candidate i, off) =>
      match tabFind s.te.jobs i with
      | some j => let r := j.candidate.vote 4096 off 4096; (s.setJob i (fun j => { j with candidate := r.1 })).disagreed r.2
      | none => s
    | _ => s
  else s

/-- Scrub one word of HBM: write back a corrected word, read it again, and count a hard fault (R216). -/
def State.hbmScrubWord (s : State) (a : Nat) (again : List Upset) : State :=
  let n := a / stackBytes
  match eccDecode (s.hbmMask a) with
  | .clean _ => s
  | .bad => s.hbmBad a
  | .corrected r =>
    let s := (s.count (0xA100 + n) 1).count (0xA100 + n) 2
    let s := s.setHbmMask a (codeOf r)
    let s := s.hbmUpsets (again.filter (fun u => decide (u.space = .hbm ∧ u.addr / 4 * 4 = a)))
    match eccDecode (s.hbmMask a) with
    | .clean _ => s
    | .corrected _ =>
      let s := ((s.count (0xA100 + n) 1).count (0xA100 + n) 3)
      { s with cd := { s.cd with passHard := tabMod 0 s.cd.passHard n (· + 1) } }
    | .bad =>
      let s := s.count (0xA100 + n) 3
      { s with cd := { s.cd with passHard := tabMod 0 s.cd.passHard n (· + 1) } }.hbmBad a

/-- A pass has read every valid block of the stack. -/
def State.hbmPassEnd (s : State) (n : Nat) : State :=
  let s := s.odPut (okey (0xA100 + n) 4) (tabGet 0 s.cd.passHard n)
  let cd := { s.cd with scrubAt := tabErase s.cd.scrubAt n, passHard := tabErase s.cd.passHard n,
                        progress := tabErase s.cd.progress n }
  { s with cd := cd }

/-- The scrub reads the next valid block of a stack; past the last it ends the pass.  DESIGN CHOICE (log entry 99): a stack that has
failed by training or by no answer (condition 4, R214) is not scrubbed, though it is powered. -/
def State.hbmScrub (s : State) (n : Nat) (us again : List Upset) : State :=
  if !s.cd.running || !decide (n < 12) || decide (tabGet 0 s.cd.stackCond n = 4) then s
  else
    let s := s.hbmUpsets us
    match s.nextBlock n (tabGet 0 s.cd.scrubAt n) with
    | none => s.hbmPassEnd n
    | some b =>
      let s := s.blockVote b
      let s := (s.blockErrs b).foldl (fun s a => s.hbmScrubWord a again) s
      let s := { s with cd := { s.cd with scrubAt := tabPut 0 s.cd.scrubAt n (b + 1),
                                          progress := tabMod 0 s.cd.progress n (fun x => min (x + 1) u32Max) } }
      if (s.nextBlock n (b + 1)).isNone then s.hbmPassEnd n else s

/-- The SRAM of a macro is powered: the TE macros with the CD, the others with the SIOD (R215). -/
def State.macroOn (s : State) (m : Nat) : Bool := if m < 768 then s.cd.running else decide (m < 801)

/-- The next word of a macro that its scrub reads: the first valid one from where it stands, then from the start (R216). -/
def State.sramNext (s : State) (m : Nat) : Option Nat :=
  let next := fun lo => ((upTo (2 ^ 18 - lo)).map (lo + ·)).find? (fun w => s.sramValid (m * 2 ^ 20 + 4 * w))
  match next (tabGet 0 s.cd.sramAt m) with
  | some w => some w
  | none => next 0

/-- The scrub reads the word at `a` of a macro: a corrected word is written back and read again (R216). -/
def State.sramReadBack (s : State) (m a : Nat) (again : List Upset) : State :=
  let s := s.sramVote a
  match s.sramMeets a with
  | none | some (.clean _) => s
  | some .bad => s.sramBad a
  | some (.corrected r) =>
    let s := s.sramCorrected a
    let s := { s with cd := { s.cd with sram := { s.cd.sram with errs := tabPut 0 s.cd.sram.errs a (codeOf r) } } }
    let s := s.sramUpsets (again.filter (fun u => decide (u.space = .sram ∧ u.addr / 4 * 4 = a)))
    match eccDecode (tabGet 0 s.cd.sram.errs a) with
    | .clean _ => s
    | .corrected _ => (s.sramCorrected a).count (0xA300 + m) 2
    | .bad => (s.count (0xA300 + m) 2).sramBad a

/-- The scrub reads word `w` of a macro and moves on. -/
def State.sramScrubWord (s : State) (m w : Nat) (again : List Upset) : State :=
  ({ s with cd := { s.cd with sramAt := tabPut 0 s.cd.sramAt m ((w + 1) % 2 ^ 18) } }).sramReadBack m (m * 2 ^ 20 + 4 * w) again

/-- The scrub reads the next valid word of a macro (R215, R216). -/
def State.sramScrub (s : State) (m : Nat) (us again : List Upset) : State :=
  if !s.macroOn m then s
  else
    let s := s.sramUpsets us
    match s.sramNext m with
    | none => s
    | some w => s.sramScrubWord m w again

/-! ## Refresh (R219, R220) -/

/-- Continuous multiplier in sixteenths at a temperature of 0.01 °C: `16 × 2^((T − 85) / 10)`, rounded up, 16 to 64. -/
def refreshSteps (t : Int) : Nat :=
  let x : Rat := (t - 8500 : Rat) / 1000
  if x ≤ 0 then 16 else if 2 ≤ x then 64 else
    -- the least k from 16 to 64 with k ≥ 16 × 2^x, that is (k / 16)^1000 ≥ 2^(t − 8500)
    ((upTo 49).map (16 + ·)).find? (fun k => decide (2 ^ (t - 8500).toNat * 16 ^ 1000 ≤ k ^ 1000)) |>.getD 64

/-- Band of a temperature: multiplier in sixteenths. -/
def refreshBand (t : Int) : Nat := if t < 8500 then 16 else if t ≤ 9500 then 32 else 64

/-- Present multiplier of a stack. -/
def State.refreshOf (s : State) (n : Nat) : Nat := 16 + tabGet 0 s.cd.refresh n

/-- The 1 ms refresh update of a stack; `readout` is the management port's answer, if any. -/
def State.refreshUpdate (s : State) (n : Nat) (readout : Option Int) : State :=
  if !s.cd.running || !decide (n < 12) then s
  else
    let own := (s.sensor (80 + n)).used
    let haveOwn := (tabFind s.mpc.sensors (80 + n)).isSome
    let good := match readout with | some t => !haveOwn || decide ((t - own).natAbs ≤ 1200) | none => false
    let runs := if good then tabGet 0 s.cd.goodRuns n + 1 else 0
    let mode := tabGet 0 s.cd.refreshMode n
    let continuous := good && (decide (mode = 0) || decide (16 ≤ runs))
    let s := { s with cd := { s.cd with goodRuns := tabPut 0 s.cd.goodRuns n runs } }
    let put := fun (s : State) (mode mult wait : Nat) =>
      { s with cd := { s.cd with refreshMode := tabPut 0 s.cd.refreshMode n mode,
                                 refresh := tabPut 0 s.cd.refresh n (mult - 16),
                                 bandWait := tabPut 0 s.cd.bandWait n wait } }
    match continuous, readout with
    | true, some t => put s 0 (refreshSteps t) 0
    | _, _ =>
      if haveOwn then
        let want := refreshBand own
        let cur := if mode = 1 then s.refreshOf n else want
        if cur ≤ want then put s 1 want 0
        else
          let lower := if cur = 64 then (9500 : Int) else 8500
          let lowered := if cur = 64 then 32 else 16
          if own ≤ lower - 200 then
            let w := tabGet 0 s.cd.bandWait n + 1
            if 1000 ≤ w then put s 1 lowered 0 else put s 1 cur w
          else put s 1 cur 0
      else put s 2 64 0

end Sys2Proof.Machine
end

