-- ==== Sys2Proof/Machine/Loader.lean ====
section
/-! DEFINITION. The loader: re-placement, loads, commits, unloads and replay, host work, ripening images and jobs, and
the intake frame boundary of the tensor engine (R132 to R148, R170, R178 to R191, R224 to R227, R244 to R247). -/

namespace Sys2Proof.Machine

open Sys2Proof

/-! ## Small operations -/

/-- Replace the first occurrence of an item of a queue. -/
def replaceFirst {α : Type} [DecidableEq α] (x : α) (by_ : List α) : List α → List α
  | [] => []
  | y :: t => if y = x then by_ ++ t else y :: replaceFirst x by_ t

/-- Steps of 6.25 MHz at the fixed operating point (R78, R179). -/
def State.fixedSteps (s : State) : Nat := pointSteps s.fixedPoint

/-- Running cores of R144. -/
def State.coreRunning (s : State) (c : Nat) : Bool := decide ((s.core c).st = 2)

/-- A core takes streams: it runs and is not suspended (R140, R178, R267). -/
def State.coreOpen (s : State) (c : Nat) : Bool := s.coreRunning c && !(s.core c).suspended

/-- Free slots of a core, lowest first. -/
def freeSlots (t : Tab Stream) (c : Nat) : List Nat :=
  ((upTo 8).map (8 * c + ·)).filter (fun k => !t.any (fun p => decide (p.2.slot = some k)))

/-- The merge store discards a stream's result: no word of it is read any more (R231, R248). -/
def State.discardResult (s : State) (n : Nat) : State :=
  let other := fun (a : Nat) => decide (a / 2 ^ 20 ≠ n + 1)
  let m : Mem := s.te.mergeMem
  let m := { m with errs := m.errs.filter (fun e => other e.1), votes := m.votes.filter (fun v => other (4 * v.1)) }
  { s with te := { s.te with store := tabErase s.te.store n, mergeMem := m, mergeLost := s.te.mergeLost.filter other } }

/-- Advance a stream's epoch, once per boundary; the merge store discards its result (R187, R231). -/
def State.bump (s : State) (n : Nat) : State :=
  let t := s.stream n
  let s := s.setStream n (fun t =>
    -- a stream that a replay has placed advances once more when it restarts
    let later := t.bump && t.copying
    if t.bumpedAt = s.intake ∧ t.epoch ≠ 0 then { t with bump := later }
    else { t with epoch := nextEpoch t.epoch, bumpedAt := s.intake, bump := later })
  if t.bumpedAt = s.intake ∧ t.epoch ≠ 0 then s else s.discardResult n

/-- Put a stream into a slot of a floorplan and lay its core out anew. -/
def Floorplan.put (fp : Floorplan) (n key slot : Nat) (secure : Bool) : Floorplan :=
  { fp with streams := tabMod {} fp.streams n (fun t =>
      { t with loaded := true, model := key, slot := some slot, secure := secure }) }.relay (slot / 8)

/-- A core holds a copy of a model, or one is being made there. -/
def Floorplan.holds (fp : Floorplan) (core key : Nat) : Bool := (fp.copies core).any (fun c => decide (c.model = key))

/-- A core's copy of a model is complete: a stream of the model can run there. -/
def State.copied (s : State) (core key : Nat) : Bool :=
  (s.streamsOn core).any (fun n => decide ((s.stream n).model = key) && !(s.stream n).copying)

/-- Hand the free credits of a LOAD toll to the copies of its cluster, oldest first: the copies, and the credits left. -/
def takeCredits (cluster : Nat) : Nat → List CopyItem → List CopyItem × Nat
  | free, [] => ([], free)
  | free, x :: t =>
    let k := if x.core / 8 = cluster then min free x.waits else 0
    let r := takeCredits cluster (free - k) t
    ({ x with waits := x.waits - k, sent := x.sent + k } :: r.1, r.2)

/-- The copies of a cluster issue what its LOAD toll has credits for, in a slot that permits it (R162, R163, R488). -/
def State.sendCopies (s : State) (cluster : Nat) : State :=
  if s.copyPermitted then
    let key := 5 * 128 + cluster
    let out := tabGet 0 s.te.credits key
    let r := takeCredits cluster (8 - out) s.te.copyQ
    ({ s with te := { s.te with copyQ := r.1, credits := tabPut 0 s.te.credits key (8 - r.2) } }).active cluster 45 (64 * (8 - r.2 - out))
  else s

/-- A slot begins: the loader writes the master copies that wait, and every cluster's copies issue what they may (R488). -/
def State.sendAllCopies (s : State) : State :=
  let s := s.fillWaiting
  if s.te.copyQ = [] then s else (upTo 12).foldl State.sendCopies s

/-- The loader copies `bytes` to a core through the LOAD toll of its cluster; each 4 KiB unit beyond the credits waits, and is
counted (R162, R163, R183). -/
def State.loadToll (s : State) (core bytes : Nat) (load : Bool) : State :=
  let units := ceilDiv bytes 4096
  let beyond := units - (8 - tabGet 0 s.te.credits (5 * 128 + core / 8))
  let item : CopyItem := { core := core, load := load, waits := units, sent := 0 }
  let s := { s with te := { s.te with copyQ := s.te.copyQ ++ [item] } }
  (if beyond = 0 then s else s.count 0x3210 6 beyond).sendCopies (core / 8)

/-- The copies that a core has waited for are complete: their items have been returned. -/
def State.copiesDone (s : State) (core : Nat) (load : Bool) : State :=
  (s.dropCopies (fun x => decide (x.core = core) && x.load == load)).sendCopies (core / 8)

/-- Some unit of a core's copies still waits to be issued. -/
def State.copyWaits (s : State) (p : CopyItem → Bool) : Bool := s.te.copyQ.any (fun x => p x && decide (0 < x.waits))

/-- A consumer returns a credit of a LOAD toll: the oldest copy on its way there has one unit less, and the next is issued. -/
def State.returnCopy (s : State) (cluster : Nat) : State :=
  let mine := fun (x : CopyItem) => decide (x.core / 8 = cluster ∧ 0 < x.sent)
  match s.te.copyQ.find? mine with
  | none => s
  | some x =>
    let y := { x with sent := x.sent - 1 }
    let q := replaceFirst x (if y.waits = 0 ∧ y.sent = 0 then [] else [y]) s.te.copyQ
    ({ s with te := { s.te with copyQ := q, credits := tabMod 0 s.te.credits (5 * 128 + cluster) (· - 1) } }).sendCopies cluster

/-! ## Re-placement (R140 to R142) -/

/-- Candidates of a cluster: most free slots first, then lowest core.  DESIGN CHOICE (log entry 96): a slot that a running load
has planned counts as taken, in the choice and in the order. -/
def State.candidates (s : State) (m : Nat) : List (Nat × Nat) :=
  let streams := s.planned.streams
  let cs := ((upTo 8).map (8 * m + ·)).filterMap (fun c =>
    let free := freeSlots streams c
    if s.coreOpen c && !free.isEmpty then some (c, free.headD 0, free.length) else none)
  ((upTo 8).reverse.flatMap (fun k => cs.filter (fun x => decide (x.2.2 = k + 1)))).map (fun x => (x.1, x.2.1))

/-- The slot R140 gives a stream of a core of cluster `n`; what a running load places is in its place already (R180).  DESIGN
CHOICE (log entry 96): a core whose copy of the model is still being made holds it, so that the check is skipped there. -/
def State.seekSlot (s : State) (stream n : Nat) : Option Nat :=
  let fp := s.planned
  let t := s.stream stream
  let order := ((upTo 12).map (fun i => (n + i) % 12)).filter (fun m => !s.clusterFenced m)
  (order.flatMap s.candidates).findSome? (fun c =>
    if fp.holds c.1 t.model || (fp.put stream t.model c.2 t.secure).meets c.1 s.fixedSteps then some c.2 else none)

/-- Level and finish time of a stream at its present placement (R179, R193). -/
def State.placeReport (s : State) (n : Nat) : Nat × Nat :=
  match (s.stream n).slot with
  | some k => s.floorplan.report (k / 8) s.fixedSteps n
  | none => (0xFF, 0)

/-- Place a stream under R140, the search starting from its home cluster; its history stays where it lands in that cluster
again (R243).  `since` is the module time of the fault, µs: the stream resumes within 250 µs of it (R140).  DESIGN CHOICE (log
entry 96): the contents of its STATE and OUTPUT areas go with it; no rule says how they leave a fenced core's SRAM. -/
def State.replaceStream (s : State) (since n : Nat) : State :=
  let home := (s.stream n).home
  let left := since + 250 - s.intake
  match s.seekSlot n home with
  | none => s.setStream n (fun t => { t with slot := none, run := none, copying := false, resumeAt := 0, bump := false })
  | some k =>
    let key := (s.stream n).model
    let held := s.copied (k / 8) key
    -- a copy that another stream waits for serves this one too
    let pending := (s.streamsOn (k / 8)).find? (fun m => decide ((s.stream m).model = key))
    let d := s.draw
    let at_ := if held then 0 else match pending with
      | some m => (s.stream m).resumeAt
      | none => d.2.intake + d.1 % (left + 1)
    let s := d.2.setStream n (fun t =>
      { t with slot := some k, home := k / 64, run := none, copying := !held, resumeAt := at_, resumeBy := since + 250,
               scratchValid := [],
               history := if k / 64 = home then t.history else {} })
    let got := if held || pending.isSome then (s, []) else s.readMaster key
    let s := if held || pending.isSome then s
      else got.1.loadToll (k / 8) ((s.model key).progLen + (s.model key).weightsLen) false
    (s.relay (k / 8)).layAltered (k / 8) key got.2

/-- The streams of the cores fenced since the last boundary, core by core, streams ascending: their epochs advance and
they are placed anew (R138, R142). -/
def State.placeFenced (s : State) : State :=
  let fenced := (s.te.cores.filter (fun p => p.2.newlyFenced)).map (·.1)
  fenced.foldl (fun s c =>
    let ns := (s.streamsOn c).foldl ordInsert []
    let since := (s.core c).fencedAt
    let s := s.dropCopies (fun x => decide (x.core = c) && !x.load)
    let s := (ns.foldl (fun s n => (s.bump n).setStream n (fun t => { t with slot := none, run := none })) s).trimLayout
    let s := ns.foldl (fun (s : State) n => s.replaceStream since n) s
    s.setCore c (fun k => { k with newlyFenced := false })) s

/-- Retry the unplaced streams after a slot has become free (R141).  DESIGN CHOICE (log entry 96): a stream that finds a
slot on a retry advances its epoch once more, as at any re-placement. -/
def State.retryUnplaced (s : State) : State :=
  if s.te.slotFreed then
    let ns := s.unplaced.filter (fun n => !(s.stream n).damaged)
    let s := ns.foldl (fun s n =>
      match s.seekSlot n (s.stream n).home with
      | some _ => (s.bump n).replaceStream s.intake n
      | none => s) s
    { s with te := { s.te with slotFreed := false } }
  else s

/-! ## The catalogue of the model area (R184, R518) -/

/-- The first-fit place of `units` 4 KiB units after the catalogue slots, in 12,288. -/
def firstFit (used : List (Nat × Nat)) (units : Nat) : Option Nat :=
  let tries := 2 :: used.map (fun u => u.1 + u.2)
  let ok := tries.filter (fun a => decide (a + units ≤ 12288) &&
    used.all (fun u => decide (a + units ≤ u.1 ∨ u.1 + u.2 ≤ a)))
  ok.foldl (fun m a => match m with | none => some a | some b => some (min a b)) none

/-- Send a write to the state store, which the output gate lets through (R49, R58). -/
def State.store (s : State) (addr len : Nat) (data : Blob) : State :=
  if s.power.gate then s.emit (.storeWrite addr len data) else s

/-- Write the catalogue slot that does not hold the newest catalogue (R461, R518). -/
def State.writeCatalogue (s : State) : State :=
  let seq := nextSeq s.te.catalogueSeq
  let place := 1 - s.te.catalogueSlot
  let es := s.te.catalogue.map (fun e => (32, e))
  let body := packBytes ([(4, 0x44584D43), (4, seq), (4, s.te.catalogue.length), (4, 0)] ++
    es.map (fun e => (32, packBytes [(4, e.2.1), (4, 4096 * e.2.2.1), (4, e.2.2.2.1), (20, e.2.2.2.2)])))
  let slot := body + (crc32 4092 body) <<< (8 * 4092)
  let s := { s with te := { s.te with catalogueSeq := seq, catalogueSlot := place } }
  s.store (0x01000000 + 4096 * place) 4096 slot

/-- A catalogue that has waited for its image is written at the next intake frame boundary; a gate that has closed by then
cuts the recording off, and the store's catalogue still names the earlier images (R518, R528; log entry 104). -/
def State.catalogueFrame (s : State) : State :=
  if s.te.catalogueDue then
    let s := { s with te := { s.te with catalogueDue := false } }
    if s.power.gate then s.writeCatalogue else s
  else s

/-- Record a committed load in the model area, if it has room and the store can be written: the image now, and the catalogue
that names it after it.  The entry keeps CRC-32 and request together. -/
def State.recordLoad (s : State) (m : Model) (order : Nat) : State × Bool :=
  let units := ceilDiv m.imageLen 4096
  let used := s.te.catalogue.map (fun e => (e.2.1, ceilDiv e.2.2.1 4096))
  match firstFit used units with
  | some a =>
    if s.te.catalogue.length < 127 ∧ s.power.gate = true then
      let s := s.store (0x01000000 + 4096 * a) m.imageLen m.image
      let tail := crc32 m.imageLen m.image + m.request <<< 32
      ({ s with te := { s.te with catalogue := s.te.catalogue ++ [(order, a, m.imageLen, tail)], catalogueDue := true } }, true)
    else (s, false)
  | none => (s, false)

/-- A load request's fields. -/
structure LoadReq where
  addr : Nat
  first : Nat
  count : Nat
  op : Nat
  reserved : Nat
  deriving DecidableEq, Repr

def loadReq (d : Blob) : LoadReq := ⟨bytesAt d 0 8, bytesAt d 8 2, bytesAt d 10 2, bytesAt d 12 1, bytesAt d 13 3⟩

/-- The streams a request names. -/
def LoadReq.streams (r : LoadReq) : List Nat := (upTo r.count).map (r.first + ·)

/-- Cut a rising list into runs of consecutive numbers: first and count of each. -/
def runsOf (l : List Nat) : List (Nat × Nat) :=
  l.foldl (fun acc n =>
    match acc.getLast? with
    | some (a, k) => if n = a + k then acc.dropLast ++ [(a, k + 1)] else acc ++ [(n, 1)]
    | none => [(n, 1)]) []

/-- Unloaded streams leave the model area: a recorded load keeps the streams that remain, one entry for each run of
consecutive streams, and an entry without any is dropped (R185; log entry 96). -/
def State.pruneCatalogue (s : State) (gone : List Nat) : State :=
  let keep := fun (e : Nat × Nat × Nat × Blob) =>
    let crc := e.2.2.2 % 2 ^ 32
    let d := e.2.2.2 >>> 32
    let ns := (loadReq d).streams
    if ns.any (fun n => decide (n ∈ gone)) then
      (runsOf (ns.filter (fun n => decide (n ∉ gone)))).map (fun r =>
        (e.1, e.2.1, e.2.2.1, crc + (setBytes (setBytes d 8 2 r.1) 10 2 r.2) <<< 32))
    else [e]
  let kept := s.te.catalogue.flatMap keep
  if kept = s.te.catalogue then s
  else { s with te := { s.te with catalogue := kept, catalogueDue := true } }

/-- Remove models that no stream uses, with their ripening images and jobs (R185, R244). -/
def State.pruneModels (s : State) : State :=
  let loading := s.te.load.map (fun l => l.key)
  let dead : List Nat := (s.te.models.filter (fun p => decide (s.streamsOf p.1 = [] ∧ loading ≠ some p.1))).map (fun p => p.1)
  let live := s.te.models.filter (fun p => decide (p.1 ∉ dead))
  let ids : List Nat := live.map (fun p => p.2.ident)
  let s := s.abandonIds ((s.te.jobs.filter (fun j => decide (j.1 ∉ ids))).map (·.1))
  let s := { s with te := { s.te with models := live, ripening := s.te.ripening.filter (fun p => decide (p.1 ∈ ids)) } }
  s.trimLayout

/-! ## Loads (R181 to R183) -/

/-- The address rule: 4 KiB aligned, the whole image within BAR2. -/
def addrOk (a len : Nat) : Bool := decide (a % 4096 = 0 ∧ a + len ≤ 64 * regionBytes)

/-- The bytes of an image that the loader reads for a use: the header, then the buffer table, then the whole (R182 step 2). -/
def State.imageSpan (s : State) (use : ImageUse) (secure : Bool) (addr : Nat) : Nat :=
  let rd := fun o n => s.imageBytes secure (addr + o) n
  let m := (imageHead rd).1
  if !addrOk addr 64 then 0
  else if !headRules use rd then 64
  else if !bufRules use m rd || !addrOk addr m.imageLen || rd 6 1 ≠ 3 then 64 + 16 * rd 0x21 1
  else m.imageLen

/-- The loader reads an image that a request names: reads in a secure region that the request may not see are suppressed and
counted, once for the request, and the words read are decoded (R94, R207, R212, R213; log entry 98). -/
def State.imageRead (s : State) (use : ImageUse) (secure : Bool) (addr : Nat) : State :=
  let s := s.imageFx secure addr (min 64 (s.imageSpan use secure addr))
  let n := s.imageSpan use secure addr
  (s.imageFx secure (addr + 64) (n - 64)).imageViolation secure addr n

/-- Read an image for a use: its model, or RANGE, or STATE for a foreign part code (R182 step 2). -/
def State.readImage (s : State) (use : ImageUse) (secure : Bool) (addr : Nat) : Nat × Model :=
  let rd := fun o n => s.imageBytes secure (addr + o) n
  let h := imageHead rd
  let m := h.1
  if !addrOk addr 64 || !headRules use rd || !bufRules use m rd || !addrOk addr m.imageLen then (stRange, m)
  else if rd 6 1 ≠ 3 then (stState, m)
  else
    let all : Blob := s.imageBytes secure addr m.imageLen
    let nb := 64 + 16 * (rd 0x21 1)
    (stOk, { m with image := all, prog := bytesAt all nb m.progLen, weights := bytesAt all h.2 m.weightsLen })

/-- The model exceeds every placement (R182 step 5). -/
def State.tooLarge (s : State) (m : Model) (secure : Bool) (streams : Bool) : Bool :=
  let fp := s.floorplan
  let areas := if streams then m.localArea else m.stateLen + m.scratchLen
  let unfenced := (upTo 12).filter (fun n => !s.clusterFenced n)
  decide (2 ^ 22 < m.progLen + 65536 + areas) ||
  !(unfenced.any (fun n =>
    let loc := ((upTo 8).map (fun i => fp.localCap (8 * n + i) secure)).foldl max 0
    decide (m.progLen + areas ≤ loc ∧
      m.weightsLen ≤ loc - m.progLen - areas + fp.clusterCap n secure * 2 ^ 20 + fp.forecastCap n secure * 2 ^ 32)))

/-- Place new streams under R178: lowest-numbered running core with a free slot that passes, lowest slot. -/
def State.planNew (s : State) (fp : Floorplan) (key : Nat) (secure : Bool) (ns : List Nat) :
    Option (Floorplan × List (Nat × Nat)) :=
  ns.foldl (fun acc n =>
    match acc with
    | none => none
    | some (fp, l) =>
      (((upTo 96).filter s.coreOpen).findSome? (fun c =>
        match freeSlots fp.streams c with
        | [] => none
        | k :: _ =>
          let fp' := fp.put n key k secure
          if fp'.meets c s.fixedSteps then some (fp', k) else none)).map (fun x => (x.1, l ++ [(n, x.2)]))) (some (fp, []))

/-- Level and finish time for a planned placement: stream, core, slot, level, finish. -/
def planOf (fp : Floorplan) (steps : Nat) (l : List (Nat × Nat)) : List (Nat × Nat × Nat × Nat × Nat) :=
  l.map (fun x => let r := fp.report (x.2 / 8) steps x.1; (x.1, x.2 / 8, x.2, r.1, r.2))

/-- How a floorplan lays out the cores of a placement. -/
def layoutOf (fp : Floorplan) (l : List (Nat × Nat)) : Tab Layout :=
  l.foldl (fun t x => tabPut {} t (x.2 / 8) (tabGet {} fp.layout (x.2 / 8))) []

/-- A floorplan in which a replacement has taken place: its streams have the new model, and their cores are laid out anew. -/
def Floorplan.replaced (fp : Floorplan) (key : Nat) (ns : List Nat) : Floorplan :=
  let fp := { fp with streams := ns.foldl (fun t n => tabMod {} t n (fun x => { x with model := key })) fp.streams }
  let cores := (ns.filterMap (fun n => ((tabFind fp.streams n).bind (fun t => t.slot)).map (· / 8))).foldl ordInsert []
  cores.foldl Floorplan.relay fp.trim

/-- Plan the streams of a load, or none where some stream finds no core (R182 step 7). -/
def State.planLoad (s : State) (op key : Nat) (m : Model) (secure : Bool) (ns : List Nat) :
    Option (List (Nat × Nat × Nat × Nat × Nat) × Tab Layout) :=
  let fp := { s.floorplan with models := tabInsert s.te.models key m, held := [] }
  if op = 1 then (s.planNew fp key secure ns).map (fun x => (planOf x.1 s.fixedSteps x.2, layoutOf x.1 x.2))
  else
    let fp := fp.replaced key ns
    let placed := ns.filterMap (fun n => (s.stream n).slot.map (fun k => (n, k)))
    if placed.all (fun x => fp.meets (x.2 / 8) s.fixedSteps) then some (planOf fp s.fixedSteps placed, layoutOf fp placed) else none

/-- Old and new copies of a replacement both fit (R183). -/
def State.bothFit (s : State) (key : Nat) (m : Model) (ns : List Nat) : Bool :=
  let fp := { s.floorplan with models := tabInsert s.te.models key m, held := [] }
  let fp' := fp.replaced key ns
  let cores := (ns.filterMap (fun n => (s.stream n).slot.map (· / 8))).foldl ordInsert []
  cores.all (fun c =>
    let held := (((fp.copies c).filter (fun x => x.secure == m.secure)).map (·.loc)).sum
    match fp'.copy c key with
    | some cp => decide (held + fp.localUsed c m.secure + cp.loc + m.progLen ≤ fp.localCap c m.secure)
    | none => true)

/-- The identifiers of the models that a request concerns: of the streams it names, and of its own image (R247). -/
def State.identsOf (s : State) (ns : List Nat) (image : Option Nat) : List Nat :=
  (ns.map (fun n => (s.model (s.stream n).model).ident) ++ image.toList).foldl ordInsert []

/-- The loader's commit of a ripening candidate of one of these models gives way (R247, R249). -/
def State.givesWay (s : State) (ids : List Nat) : Bool :=
  match s.te.load with
  | some l => l.ripens.isSome && decide ((s.model l.key).ident ∈ ids)
  | none => false

/-- Another load or unload is running (R182 step 1). -/
def State.loadBusy (s : State) (ids : List Nat) : Bool :=
  (s.te.load.isSome && !s.givesWay ids) || s.te.streams.any (fun p => p.2.unloading)

/-- The fields of a load request keep their rules (R181). -/
def LoadReq.ok (r : LoadReq) : Bool :=
  !decide (r.reserved ≠ 0 ∨ 767 < r.first ∨ r.count = 0 ∨ 768 < r.first + r.count ∨ ¬(r.op = 1 ∨ r.op = 2))

/-- The models that a load request concerns. -/
def State.loadIdents (s : State) (d : Blob) (secure : Bool) : List Nat :=
  s.identsOf (loadReq d).streams (some (s.imageBytes secure ((loadReq d).addr + 8) 4))

/-- Check a load request (R182) and give the load and its model, or the status of the first failure. -/
def State.checkLoad (s : State) (d : Blob) (secure : Bool) : Nat × Option (Load × Model) :=
  let r := loadReq d
  let ns := r.streams
  if s.loadBusy (s.loadIdents d secure) then (stBusy, none)
  else if !r.ok then (stRange, none)
  else
    let im := s.readImage .forecast secure r.addr
    let m := { im.2 with request := d, secure := secure, masters := s.homes secure im.2.imageLen 2 [] }
    if im.1 ≠ stOk then (im.1, none)
    else if ns.any (fun n => decide ((s.stream n).loaded = decide (r.op = 1))) then (stState, none)
    else
      let v := validate .forecast m
      let key := s.te.nextModel
      if v ≠ stOk then (v, none)
      else if s.tooLarge m secure true then (stSize, none)
      else if r.op = 1 ∧ (((upTo 96).filter s.coreOpen).map (fun c => (freeSlots s.te.streams c).length)).sum < r.count
        then (stBusy, none)
      else
        match s.planLoad r.op key m secure ns with
        | none => (stDeadline, none)
        | some plan =>
          let m := { m with order := key + 1 }
          (stOk, some ({ op := r.op, first := r.first, count := r.count, key := key, secure := secure, plan := plan.1,
                         layout := plan.2, replay := false, ripens := none, framesLost := 0,
                         noRoom := decide (r.op = 2) && !s.bothFit key m ns }, m))

/-- The streams of a model identifier. -/
def State.streamsOfIdent (s : State) (ident : Nat) : List Nat :=
  (s.te.streams.filter (fun p => decide (p.2.loaded = true ∧ (s.model p.2.model).ident = ident))).map (·.1)

/-- Abandon the ripening jobs of some models, and a commit of theirs that waits (R247, R249). -/
def State.abandonFor (s : State) (ids : List Nat) : State :=
  let s := match s.te.load with
    | some l =>
      if l.ripens.isSome ∧ (s.model l.key).ident ∈ ids then (s.dropLoad l).count 0x3030 14 else s
    | none => s
  s.abandonIds ((s.te.jobs.filter (fun j => decide (j.1 ∈ ids))).map (·.1))

/-- The loader begins a load: two master copies, then programs and weights to every destination through the LOAD toll
(R183). -/
def State.beginLoad (s : State) (l : Load) (m : Model) : State :=
  let s := m.masters.foldl (fun (s : State) n => s.fillMaster n m.imageLen) s
  let s := { s with te := { s.te with load := some l, models := tabInsert s.te.models l.key m, nextModel := max s.te.nextModel (l.key + 1) } }
  let cores := (l.plan.map (fun p => p.2.1)).foldl ordInsert []
  cores.foldl (fun (s : State) c => s.loadToll c (m.progLen + m.weightsLen) true) s

/-- The execution of OD 0x3200 (R182): a load starts, or ends at once with its status.  DESIGN CHOICE (log entry 97): every
load that a signed request starts loads secure streams; and after a load that fails OD 0x3201.01, .02 and .07 are its own, while
.03 to .06 keep what the last committed load left there. -/
def State.startLoad (s : State) (d : Blob) (secure : Bool) (source : Nat) : State :=
  -- a load that ends at step 1, or at a field of its request, reads no image
  let s := if s.loadBusy (s.loadIdents d secure) || !(loadReq d).ok then s else s.imageRead .forecast secure (loadReq d).addr
  let r := s.checkLoad d secure
  match r.2 with
  | some (l, m) =>
    let s := s.abandonFor (s.identsOf (loadReq d).streams (some m.ident))
    let s := s.beginLoad l m
    { s with te := { s.te with lastStatus := tabPut 0 s.te.lastStatus (okey 0x3200 0) stBusy } }
  | none =>
    let s := s.refuse 0x3200 0 r.1 source
    -- while the host's own load runs the status reads BUSY all the same (R13, R182)
    let own : Bool := match s.te.load with | some l => !l.replay && l.ripens.isNone | none => false
    if r.1 = stBusy ∧ own = true then s
    else
      let s := { s with te := { s.te with
        loadStatus := r.1, loadCommitted := 0, loadRecorded := false,
        lastStatus := tabPut 0 s.te.lastStatus (okey 0x3200 0) r.1 } }
      s.raise irqTensor

/-- A stream takes the settings of the dictionary (R148). -/
def State.takeSettings (s : State) (n : Nat) : State :=
  let i := 0x3400 + n
  s.setStream n (fun t => { t with rounding := s.odv i 1, seed := s.odv i 2, overflow := s.odv i 3, newSettings := false })

/-- A planned destination still stands: its core takes streams, and its slot is free. -/
def State.planHolds (s : State) (p : Nat × Nat × Nat × Nat × Nat) : Bool :=
  s.coreOpen p.2.1 && !s.te.streams.any (fun t => decide (t.2.slot = some p.2.2.1))

/-- The streams that a load names. -/
def State.loadStreams (s : State) (l : Load) : List Nat :=
  match l.ripens with
  | some k => s.streamsOf k
  | none => (upTo l.count).map (l.first + ·)

/-- Every destination of a load stands as it was planned: for a replacement, its streams stand where they stood. -/
def State.planStands (s : State) (l : Load) : Bool :=
  if l.op = 1 then l.plan.all s.planHolds
  else decide ((s.loadStreams l).filterMap (fun n => (s.stream n).slot.map (fun k => (n, k))) = l.plan.map (fun p => (p.1, p.2.2.1)))

/-- Plan the affected streams of the load in progress anew, where a destination is no longer free or running, or where the
streams of a replacement have moved; the others keep their places (R189). -/
def State.replan (s : State) (l : Load) : Option Load :=
  let ns := s.loadStreams l
  let m := s.model l.key
  if s.planStands l then some l
  else if l.op = 1 then
    let kept := l.plan.filter s.planHolds
    let fp := { s.floorplan with held := [] }
    let fp := kept.foldl (fun fp p => fp.put p.1 l.key p.2.2.1 l.secure) fp
    let rest := (l.plan.filter (fun p => !s.planHolds p)).map (·.1)
    (s.planNew fp l.key l.secure rest).map (fun x =>
      let slots := (kept.map (fun p => (p.1, p.2.2.1)) ++ x.2)
      let order := ns.filterMap (fun n => slots.find? (fun q => decide (q.1 = n)))
      { l with plan := planOf x.1 s.fixedSteps order, layout := layoutOf x.1 order })
  else
    match s.planLoad 2 l.key m l.secure ns with
    | some plan => some { l with plan := plan.1, layout := plan.2, noRoom := !s.bothFit l.key m ns }
    -- a candidate keeps the layout of its model, so that its check cannot fail (R246)
    | none => if l.ripens.isSome then some l else none

/-- Where the old and new copies of a replacement do not fit together, its streams stop at the boundary at which the copying
begins, their runs included, and each boundary until the commit is a frame lost; where a fence has moved them to cores on
which both fit they do not stop, or go on (R183, R187, R189). -/
def State.stopReplaced (s : State) : State :=
  match s.te.load with
  | none => s
  | some l =>
    let ns := s.loadStreams l
    if l.noRoom then
      let s := ns.foldl (fun (s : State) n => if (s.stream n).stopped then s
        else (s.bump n).setStream n (fun t => { t with stopped := true, run := none })) s
      { s with te := { s.te with load := some { l with framesLost := l.framesLost + 1 } } }
    else ns.foldl (fun (s : State) n => s.setStream n (fun t => { t with stopped := false })) s

/-- At a boundary the loader holds the plan of the load in progress against what has been fenced or moved: it plans the
affected streams anew and copies to their new cores, or the load ends with 0x0703 (R189). -/
def State.loadFrame (s : State) : State :=
  match s.te.load with
  | none => s
  | some l =>
    if s.planStands l then s
    else match s.replan l with
      | none => s.endLoad stDeadline
      | some l' =>
        let m := s.model l.key
        let cores := (l'.plan.map (fun p => p.2.1)).foldl ordInsert []
        let s := s.dropCopies (fun x => x.load && decide (x.core ∉ cores))
        let s := { s with te := { s.te with load := some l' } }
        (cores.filter (fun c => !l.plan.any (fun p => decide (p.2.1 = c)))).foldl
          (fun (s : State) c =>
            let got := s.readMaster l.key
            let s := got.1.loadToll c (m.progLen + m.weightsLen) true
            match s.te.load with
            | some l => { s with te := { s.te with load := some { l with altered := l.altered ++ got.2.map (fun x => (c, x)) } } }
            | none => s) s

/-- A core starts a program for a run frame, its scratch contents open; the sequencer writes its reserve, whole words of it
(R176, R207, R211). -/
def State.newRun (s : State) (m : Model) (c group : Nat) (secure : Bool) (completion : Nat) : Run × State :=
  ({ image := m, core := c, frame := s.intake, group := group, secure := secure, completion := completion,
     scratchKey := s.free },
   (({ s with free := s.free + m.scratchLen }).setCore c (fun k => { k with reserveOn := true })).wroteArea
     (fun (a : Area) => decide (a = Area.reserve c)) 0 65536)

/-- A run that began at the boundary at which its stream's model is exchanged, and has issued nothing yet, runs the new model
under the new epoch: no frame is lost (R183, R188). -/
def State.rerun (s : State) (n : Nat) : State :=
  match (s.stream n).run with
  | some r =>
    if r.frame + 1 = s.intake ∧ r.index = 0 ∧ r.completed = 0 then
      let t := s.stream n
      let x := s.newRun (s.model t.model) r.core 0 t.secure 0
      x.2.setStream n (fun t => { t with run := some { x.1 with frame := r.frame, epoch := t.epoch } })
    else s
  | none => s

/-- The open bank takes the intake area of a stream whose model has just been committed: what has been received of the frame
stays, and the rows are those of the new model (R224, R225). -/
def State.openArea (s : State) (n : Nat) : State :=
  let key := n * 8 + s.intake % 8
  let rows := (s.model (s.stream n).model).rows
  if (s.stream n).slot.isNone then s
  else
    let a := match tabFind s.te.intake key with
      | some a => if a.frame = s.intake then { a with rows := rows } else { frame := s.intake, mask := 0, rows := rows, data := 0 }
      | none => { frame := s.intake, mask := 0, rows := rows, data := 0 }
    { s with te := { s.te with intake := tabInsert s.te.intake key a } }

/-- Send a hint through the toll of a cluster, or drop it (R162, R163, R169). -/
def State.sendHint (s : State) (cluster : Nat) (m : HintMsg) : State :=
  let key := 3 * 128 + cluster
  if tabGet 0 s.te.credits key < 8 then
    { s with te := { s.te with credits := tabMod 0 s.te.credits key (· + 1), hintQ := s.te.hintQ ++ [(cluster, m)] } }
  else s.count 0x3210 2

/-- The slots and models of a cluster's forecast batches that run. -/
def State.clusterBatches (s : State) (n : Nat) : List (Nat × Nat) :=
  s.te.streams.filterMap (fun p => match p.2.slot with
    | some k => if k / 64 = n ∧ p.2.loaded ∧ !p.2.copying ∧ !p.2.stopped ∧ s.coreOpen (k / 8) then some (k, p.2.model) else none
    | none => none)

/-- The TE scheduler hints the clusters whose batches change; the level of its prediction is open (R170). -/
def State.schedulerHints (s : State) : State :=
  (upTo 12).foldl (fun s n =>
    let now := s.clusterBatches n
    if now = tabGet [] s.te.hinted n then s
    else
      let s := { s with te := { s.te with hinted := tabPut [] s.te.hinted n now } }
      let d := s.draw
      let level := if now = [] then 0 else d.1 % 524281
      d.2.sendHint n { source := 0x80 + n, level := level, lead := 1000, duration := 10000000, issued := d.2.timeNs }) s

/-- A core still runs forecast batches of an earlier frame. -/
def State.coreBusy (s : State) (c : Nat) : Bool := (s.streamsOn c).any (fun n => (s.stream n).run.isSome)

/-- A stream starts its run for frame `j` (R226). -/
def State.startRun (s : State) (c j n : Nat) : State :=
  let t := s.stream n
  let r := s.newRun (s.model t.model) c 0 t.secure 0
  let stride := match t.lastRun with | some f => j - f | none => 0
  r.2.setStream n (fun t => { t with run := some { r.1 with frame := j, epoch := t.epoch }, lastRun := some j,
                                     stride := min stride 255 })

/-- A stream that has stopped for a replacement runs from the boundary of its commit, where its core takes the frame that has
closed (R183, R226). -/
def State.firstRun (s : State) (n : Nat) : State :=
  match (s.stream n).slot with
  | none => s
  | some k =>
    let c := k / 8
    let late := (s.streamsOn c).any (fun m => match (s.stream m).run with | some r => decide (r.frame + 1 ≠ s.intake) | none => false)
    if !s.coreOpen c || late || (s.stream n).run.isSome || (s.stream n).damaged || decide (s.intake = 0) then s
    else s.startRun c (s.intake - 1) n

/-- The load commits at a boundary after its last copy (R183, R184, R187).  Streams that had stopped for want of room run from
this boundary, and the frame is not lost. -/
def State.commitLoad (s : State) : State :=
  let before := s
  match s.te.load with
  | none => s
  | some l =>
    if s.copyWaits (fun x => x.load) then s
    else match s.replan l with
    | none => s.endLoad stDeadline
    | some l =>
      let key := l.key
      let ns := s.loadStreams l
      let old := s.model key
      let rec_ := if l.replay then (s, old.recorded) else s.recordLoad old old.order
      let m := { old with recorded := rec_.2 }
      let s := rec_.1.dropCopies (fun x => x.load)
      let s := { s with te := { s.te with models := tabInsert s.te.models key m, load := none } }
      let halted := ns.filter (fun n => (s.stream n).stopped)
      let s := ns.foldl (fun s n =>
        let place := (l.plan.find? (fun p => decide (p.1 = n))).map (fun p => p.2.2.1)
        let s := s.setStream n (fun t =>
          { t with loaded := true, model := key, slot := if l.op = 1 then place else t.slot,
                   home := if l.op = 1 then place.getD 0 / 64 else t.home,
                   secure := if l.ripens.isSome then t.secure else l.secure, stopped := false,
                   copying := false, damaged := if l.ripens.isSome then t.damaged else false,
                   stateMem := if l.op = 1 then {} else t.stateMem, outMem := if l.op = 1 then {} else t.outMem,
                   scratchValid := if l.op = 1 then [] else t.scratchValid,
                   history := if l.op = 1 then {} else t.history, lastRun := if l.op = 1 then none else t.lastRun })
        ((((s.takeSettings n).bump n).openArea n).rerun n)) s
      let s := s.pruneModels
      let cores := (ns.filterMap (fun n => (s.stream n).slot.map (· / 8))).foldl ordInsert []
      let s := cores.foldl (fun (s : State) c =>
        (s.relay c).layAltered c key ((l.altered.filter (fun x => decide (x.1 = c))).map (·.2))) s
      let s := s.keepValid before
      let s := halted.foldl State.firstRun s
      let s := s.schedulerHints
      let s := if l.ripens.isSome then s.count 0x3030 12 else s
      let s := s.logEvent 0x3004 (packBytes [(4, m.ident), (2, l.first), (2, l.count), (1, l.op)])
      if l.replay then s
      else
        let fin : List Nat := l.plan.map (fun p => p.2.2.2.2)
        let lvl : Nat := (l.plan.map (fun p => p.2.2.2.1)).foldl max 0
        let s := { s with te := { s.te with
          loadStatus := stOk, loadCommitted := l.count, loadLevel := lvl,
          loadFinish := fin.foldl max 0,
          loadMargin := fin.foldl (fun (a : Int) (f : Nat) => min a ((m.deadline : Int) - (f : Int))) (m.deadline : Int),
          loadLost := min (l.framesLost - (if halted = [] then 0 else 1)) 65535, loadRecorded := rec_.2,
          lastStatus := tabPut 0 s.te.lastStatus (okey 0x3200 0) stOk } }
        s.raise irqTensor

/-! ## Replay (R184, R518) -/

/-- A module time, µs, that no run reaches: a replayed stream waits for its copy, however long it takes. -/
def noLimit : Nat := 2 ^ 64

/-- The model of a recorded image, if it reads as one. -/
def recordedModel (e : ModelEntry) : Model :=
  let rd := fun o n => bytesAt e.image o n
  let h := imageHead rd
  let nb := 64 + 16 * (rd 0x21 1)
  { h.1 with image := e.image, prog := bytesAt e.image nb h.1.progLen, weights := bytesAt e.image h.2 h.1.weightsLen,
             request := e.request, recorded := true, order := e.order }

/-- A replayed stream takes the lowest slot of the lowest core that passes, or stays unplaced (R178, R184). -/
def State.replayPlace (s : State) (n key : Nat) : State :=
  match s.planNew s.floorplan key (s.stream n).secure [n] with
  | some x =>
    let slot := (x.2.map (·.2)).headD 0
    (s.setStream n (fun t => { t with slot := some slot, home := slot / 64 })).relay (slot / 8)
  | none => s

/-- Replay one recorded load as the host's request again: its checks are made, and where it stands its streams are placed
one by one; streams that cannot be placed stay unplaced (R184). -/
def State.replayOne (s : State) (e : ModelEntry) : State :=
  let before := s
  let m := recordedModel e
  let r := loadReq e.request
  let s := { s with te := { s.te with catalogue := s.te.catalogue ++ [(e.order, e.offset, e.imageLen,
    e.crc + e.request <<< 32)] } }
  if e.crc ≠ crc32 e.imageLen e.image then s.logEvent 0x3002 (packBytes [(4, m.ident)])
  else if !headRules .forecast (fun o n => bytesAt e.image o n) || !bufRules .forecast m (fun o n => bytesAt e.image o n) ||
      decide (bytesAt e.image 6 1 ≠ 3) || r.streams.any (fun n => decide ((s.stream n).loaded = decide (r.op = 1))) ||
      decide (validate .forecast m ≠ stOk) || s.tooLarge m ((r.streams.map (fun n => (s.stream n).secure)).headD false) true then s
  else
    let key := s.te.nextModel
    -- the streams come back in the world they had (log entry 56)
    let secure := (r.streams.map (fun n => (s.stream n).secure)).headD false
    let m := { m with masters := s.homes secure m.imageLen 2 [], secure := secure }
    let s := m.masters.foldl (fun s n => s.fillMaster n m.imageLen) s
    let s := { s with te := { s.te with models := tabInsert s.te.models key m, nextModel := key + 1 } }
    let s := r.streams.foldl (fun (s : State) n =>
      (s.setStream n (fun t => { t with loaded := true, model := key })).takeSettings n) s
    let s := s.pruneModels
    -- a replaced stream keeps its slot where its core passes with the new model
    let cores := (r.streams.filterMap (fun n => (s.stream n).slot.map (· / 8))).foldl ordInsert []
    let s := cores.foldl (fun (s : State) c =>
      let s := s.relay c
      if s.floorplan.meets c s.fixedSteps then s
      else
        (((s.streamsOn c).filter (fun n => decide (n ∈ r.streams))).foldl (fun (s : State) n =>
          s.setStream n (fun t => { t with slot := none })) s).relay c) s
    let s := r.streams.foldl (fun (s : State) n => if (s.stream n).slot.isSome then s else s.replayPlace n key) s
    -- a placed stream restarts at the boundary after its core's copy has gone through the LOAD toll (R162, R187, R488)
    let cores := (r.streams.filterMap (fun n => (s.stream n).slot.map (· / 8))).foldl ordInsert []
    let s := cores.foldl (fun (s : State) c => s.loadToll c (m.progLen + m.weightsLen) false) s
    let s := r.streams.foldl (fun (s : State) n => (s.setStream n (fun t =>
      { t with bump := t.slot.isSome, copying := t.slot.isSome, resumeAt := 1, resumeBy := noLimit })).openArea n) s
    (s.keepValid before).logEvent 0x3004 (packBytes [(4, m.ident), (2, r.first), (2, r.count), (1, r.op)])

/-- The loader replays the recorded loads in the order of their commits, from the newest valid catalogue (R184, R461). -/
def State.replayLoads (s : State) (c : ModelCatalogue) : State :=
  if !s.cd.running || !s.power.gate then s
  else
    let orders := c.entries.foldl (fun l e => ordInsert l e.order) []
    let sorted := orders.flatMap (fun o => c.entries.filter (fun e => decide (e.order = o)))
    let found := c.newest.getD (1, 0)
    let s := { s with te := { s.te with catalogue := [], catalogueSlot := found.1 % 2, catalogueSeq := found.2 } }
    let s := { s with te := { s.te with nextModel := orders.foldl max s.te.nextModel, slotFreed := true } }
    sorted.foldl State.replayOne s

/-! ## Unload (R185) -/

/-- The named streams unload at the next boundary. -/
def State.startUnload (s : State) (arg : Nat) : State :=
  let ns := (upTo (fld arg 16 10)).map (fld arg 0 10 + ·)
  let s := s.abandonFor (s.identsOf ns none)
  ns.foldl (fun s n => s.setStream n (fun t => { t with unloading := true })) s

/-- Status of an unload request under R18 and R185: STATE, BUSY, RANGE or OK. -/
def State.unloadStatus (s : State) (arg : Nat) : Nat :=
  let first := fld arg 0 10
  let count := fld arg 16 10
  let ns := (upTo count).map (first + ·)
  let range := decide (fld arg 10 6 ≠ 0 ∨ fld arg 26 6 ≠ 0 ∨ count = 0 ∨ 768 < first + count)
  -- of the checks on the value STATE comes first, then BUSY, then RANGE (R18)
  if ns.any (fun n => decide (n < 768) && !(s.stream n).loaded) then stState
  else if s.te.load.isSome && !s.givesWay (s.identsOf ns none) then stBusy
  else if range then stRange else stOk

/-- Unloads take effect at the boundary: epochs advance and slots become free. -/
def State.finishUnloads (s : State) : State :=
  let ns := (s.te.streams.filter (fun p => p.2.unloading)).map (·.1)
  if ns = [] then s
  else
    let s := ns.foldl (fun s n => (s.bump n).setStream n (fun t => { t.afterStop with bumpedAt := t.bumpedAt, secure := false })) s
    ({ s with te := { s.te with slotFreed := true } }.pruneModels).pruneCatalogue ns

/-! ## Host work (R190) -/

/-- Checks of a descriptor, with its image (R182 steps 2, 4 and 5; R190).  DESIGN CHOICE (log entry 98): a core of the mask that
is in its self-test (R143) takes no program, as a fenced one: 0x0401 STATE. -/
def State.checkHostWork (s : State) (d : Blob) (secure : Bool) : Nat × Model :=
  let addr := bytesAt d 0 8
  let comp := bytesAt d 8 8
  let mask := bytesAt d 16 12
  let im := s.readImage .host secure addr
  let m := im.2
  let cores := bitsOf 96 mask
  if comp % 64 ≠ 0 ∨ 64 * regionBytes ≤ comp ∨ mask = 0 ∨ bytesAt d 28 4 ≠ 0 then (stRange, m)
  else if im.1 ≠ stOk then (im.1, m)
  else
    let v := validate .host m
    if v ≠ stOk then (v, m)
    else if s.tooLarge m secure false then (stSize, m)
    else if cores.any (fun c => !s.coreRunning c) then (stState, m)
    else if cores.any (fun c => (tabFind s.te.host c).isSome) then (stBusy, m)
    else (stOk, m)

/-- The execution of OD 0x3203: one program starts on each core of the mask, or a status.  DESIGN CHOICE (log entry 98): the
loader reads the image, and meets a suppressed read there, also for a descriptor that one of its own fields makes 0x0301
RANGE; R182 step 2 orders the two in no way. -/
def State.hostWork (s : State) (d : Blob) (secure : Bool) (source : Nat) : State :=
  let s := s.imageRead .host secure (bytesAt d 0 8)
  let r := s.checkHostWork d secure
  let s := { s with te := { s.te with lastStatus := tabPut 0 s.te.lastStatus (okey 0x3203 0) r.1 } }
  if r.1 ≠ stOk then s.refuse 0x3203 0 r.1 source
  else
    let g := s.te.nextGroup
    let s := { s with te := { s.te with nextGroup := g + 1 } }
    (bitsOf 96 (bytesAt d 16 12)).foldl (fun s c =>
      let n := s.newRun r.2 c g secure (bytesAt d 8 8)
      let s := n.2
      let s := { s with te := { s.te with host := tabInsert s.te.host c n.1 } }
      -- its code and data are written whole (R211)
      (s.loaderWrites c (fun a => decide (a = .hostWeights c ∨ a = .hostCode c))).wroteArea (fun a => decide (a = .hostWeights c ∨ a = .hostCode c)) 0 (2 ^ 32)) s

/-! ## Ripening (R244 to R247) -/

/-- The live model with an identifier: its key. -/
def State.modelKey (s : State) (ident : Nat) : Option Nat :=
  (s.te.models.find? (fun p => decide (p.2.ident = ident ∧ s.streamsOf p.1 ≠ []))).map (·.1)

/-- The execution of OD 0x3022. -/
def State.ripeningImage (s : State) (d : Blob) (secure : Bool) (source : Nat) : State :=
  let ident := bytesAt d 0 4
  let addr := bytesAt d 8 8
  let finish := fun (s : State) (st : Nat) =>
    let s := { s with te := { s.te with lastStatus := tabPut 0 s.te.lastStatus (okey 0x3022 0) st } }
    if st = stOk then s else s.refuse 0x3022 0 st source
  let known := s.modelKey ident
  let busy := s.te.load.isSome || s.te.streams.any (fun p => p.2.unloading) || (tabFind s.te.jobs ident).isSome
  if addr = u64Max then
    if bytesAt d 4 4 ≠ 0 then finish s stRange
    else match known with
      | none => finish s stState
      | some _ => finish (({ s with te := { s.te with ripening := tabErase s.te.ripening ident } }).keepValid s) stOk
  else if busy then finish s stBusy
  else if bytesAt d 4 4 ≠ 0 then finish s stRange
  else
    let s := s.imageRead .ripening secure addr
    let im := s.readImage .ripening secure addr
    let m := { im.2 with secure := secure, masters := s.homes secure im.2.imageLen 1 [] }
    if im.1 ≠ stOk then finish s im.1
    else match known with
      | none => finish s stState
      | some k =>
        let v := validate .ripening m
        if m.area 4 ≠ (s.model k).weightsLen then finish s stRange
        else if v ≠ stOk then finish s v
        else if s.tooLarge m secure false then finish s stSize
        else
          let s := m.masters.foldl (fun (s : State) n => s.fillMaster n m.imageLen) s
          let te := { s.te with ripening := tabInsert s.te.ripening ident m, lastJob := tabErase s.te.lastJob ident }
          finish (({ s with te := te }).keepValid s) stOk

/-- A ripening job starts on every running core that holds the model. -/
def State.startJob (s : State) (ident : Nat) : State :=
  match tabFind s.te.ripening ident, s.modelKey ident with
  | some m, some k =>
    let cores := (upTo 96).filter (fun c => s.coreRunning c && s.copied c k)
    let since := tabFind s.te.lastJob ident
    let due := match since with
      | some t => decide (t + 1000000 * s.odv 0x3020 2 ≤ s.intake)
      | none => true
    let committing := match s.te.load with | some l => decide (l.ripens = some k) | none => false
    if s.odv 0x3020 1 = 0 || !due || (tabFind s.te.jobs ident).isSome || committing || cores.isEmpty then s
    else
      let g := s.te.nextGroup
      let job : Job := { model := k, began := s.intake, participants := cores, candidate := {}, failed := false,
                         ended := [], errors := none, accepted := false }
      -- the loader reads the registered image from its stack (R213)
      let got := m.masters.foldl (fun (x : State × List (Nat × Nat)) n =>
        let r := x.1.loaderRead n (.image ident) m.imageLen
        (r.1, x.2 ++ r.2.2)) (s, [])
      let s := got.1
      let m := (tabGet m s.te.ripening ident).altered got.2
      let s := { s with te := { s.te with nextGroup := g + 1, jobs := tabInsert s.te.jobs ident job,
                                          lastJob := tabInsert s.te.lastJob ident s.intake } }
      let secure := (s.streamsOf k).any (fun n => (s.stream n).secure)
      cores.foldl (fun s c =>
        let n := s.newRun m c g secure 0
        let s := n.2
        let s := { s with te := { s.te with ripenQ := s.te.ripenQ ++ [(c, { n.1 with job := ident })] } }
        (s.loaderWrites c (fun a => decide (a = .ripenCode c))).wroteArea (fun a => decide (a = .ripenCode c)) 0 (2 ^ 32)) s |>.promote
  | _, _ => s

/-- A job ends rejected: not every condition of R246 holds. -/
def State.rejectJob (s : State) (ident : Nat) : State :=
  ((s.count 0x3030 13).dropJob ident).keepValid s

/-- An FP32 error of S14 or S15: finite, with its value. -/
def errorOf (bits : Nat) : Option Rat :=
  match ffFp32.decode bits with | .fin neg m => some (Num.val (.fin neg m)) | _ => none

/-- Judge a job once every participant has ended, or has been lost (R246). -/
def State.judgeJob (s : State) (ident : Nat) : State :=
  match tabFind s.te.jobs ident with
  | none => s
  | some j =>
    let left := s.te.ripen.any (fun p => decide (p.2.job = ident)) || s.te.ripenQ.any (fun p => decide (p.2.job = ident))
    if left || j.accepted then s
    else
      let ok := !j.failed && j.participants.all (fun c => decide (c ∈ j.ended)) &&
        (match j.errors with
         | some (a, b) => (match errorOf a, errorOf b with
           | some x, some y => decide (y ≤ x * (1 - (s.odv 0x3020 3 : Rat) / 1000))
           | _, _ => false)
         | none => false)
      if ok then { s with te := { s.te with jobs := tabInsert s.te.jobs ident { j with accepted := true } } }
      else s.rejectJob ident

/-- Judge every job. -/
def State.judgeJobs (s : State) : State := (s.te.jobs.map (·.1)).foldl State.judgeJob s

/-- An accepted candidate goes to the loader once it is idle, and through the path of a replacement: master copies, copies
through the LOAD toll, and streams that stop where old and new copies do not fit together (R183, R246). -/
def State.startRipeningCommit (s : State) : State :=
  match s.te.load, s.te.jobs.find? (fun j => j.2.accepted) with
  | none, some (ident, j) =>
    let m := s.model j.model
    let w := (j.candidate.read 4096 0 m.weightsLen).1
    let ns := s.streamsOf j.model
    let key := s.te.nextModel
    let m := { m with weights := w, masters := s.homes m.secure m.imageLen 2 [], badMasters := [], masterErrs := [], masterGone := [] }
    let plan := (s.planLoad 2 key m m.secure ns).getD ([], [])
    let load : Load := { op := 2, first := ns.headD 0, count := ns.length, key := key, secure := m.secure, plan := plan.1,
                         layout := plan.2, replay := true, ripens := some j.model, framesLost := 0,
                         noRoom := !s.bothFit key m ns }
    ({ s with te := { s.te with jobs := tabErase s.te.jobs ident } }).beginLoad load m
  | _, _ => s

/-- A job that has not ended one interval after it began is abandoned (R247). -/
def State.jobTimeout (s : State) (ident : Nat) : State :=
  match tabFind s.te.jobs ident with
  | some j => if j.accepted ∨ s.intake < j.began + 1000000 * s.odv 0x3020 2 then s else s.abandonIds [ident]
  | none => s

/-! ## The intake frame boundary (R170, R187, R222 to R226) -/

/-- The intake area of each placed stream in the bank of the frame that opens (R225). -/
def State.openBank (s : State) : State :=
  let b := s.intake % 8
  s.te.streams.foldl (fun s p =>
    if p.2.slot.isSome then
      let area : Intake := { frame := s.intake, mask := 0, rows := (s.model p.2.model).rows, data := 0 }
      let s := { s with te := { s.te with intake := tabInsert s.te.intake (p.1 * 8 + b) area } }
      -- the header is written whole (R211)
      s.wroteArea (fun a => decide (a = .intake p.1 b)) 0 64
    else s) s

/-- A core starts its forecast batches for the frame that closed (R151, R188, R226). -/
def State.startRuns (s : State) (c j : Nat) : State :=
  let ns := (s.streamsOn c).filter (fun n =>
    let t := s.stream n; t.loaded && !t.copying && !t.stopped && !t.damaged)
  if !s.coreRunning c || (s.core c).suspended || ns = [] || s.coreBusy c then s
  else
    ns.foldl (fun (s : State) n => s.startRun c j n) s

/-- Copies that have completed let their streams resume, 250 µs after the fault at the latest (R140, R488). -/
def State.resumeCopies (s : State) : State :=
  s.te.streams.foldl (fun s p =>
    let core := match p.2.slot with | some k => k / 8 | none => 0
    let done := s.copyPermitted && !s.copyWaits (fun x => decide (x.core = core) && !x.load)
    if p.2.copying ∧ p.2.resumeAt ≠ 0 ∧ ((p.2.resumeAt ≤ s.intake ∧ done = true) ∨ p.2.resumeBy ≤ s.intake)
    then
      let s := if p.2.bump then s.bump p.1 else s
      (s.setStream p.1 (fun t => { t with copying := false, resumeAt := 0, bump := false })).copiesDone core false
    else s) s

/-- Note the forecast regions that a stack's objects lie in, as long as it holds any. -/
def State.syncRooms (s : State) : State :=
  let rooms := (upTo 12).filterMap (fun n => if s.forecastItems n = [] then none else some (n, s.forecastRooms n))
  { s with te := { s.te with hbmRooms := rooms } }

/-- A cluster with no stream and no running command is gated until it is woken (R135). -/
def State.clusterIdle (s : State) (n : Nat) : Bool :=
  !s.te.streams.any (fun p => match p.2.slot with | some k => decide (k / 64 = n) | none => false) &&
    !s.te.host.any (fun p => decide (p.1 / 8 = n)) && !s.te.ripen.any (fun p => decide (p.1 / 8 = n))

/-- Gate the idle clusters. -/
def State.gateClusters (s : State) : State :=
  let g := s.te.gated ||| maskOf 12 s.clusterIdle
  { s with te := { s.te with gated := g } }

/-- The streams of suspended cores stop running (R267). -/
def State.stopSuspended (s : State) : State :=
  s.te.suspended.foldl (fun s c =>
    (s.streamsOn c).foldl (fun s n => s.setStream n (fun t => { t with run := none })) s) s

/-- The tensor engine's part of an intake frame boundary; frame `j` has closed.  DESIGN CHOICE (log entry 96): a stream that a
re-placement puts on a core which already holds its model runs from this boundary itself, and a slot that an unload frees
at this boundary is offered to the unplaced streams at once. -/
def State.teBoundary (s : State) (j : Nat) : State :=
  if !s.cd.running then s
  else
    let before := s
    let s := s.placeFenced
    let s := s.finishUnloads
    let s := (s.te.streams.filter (fun p => p.2.newSettings)).foldl (fun s p =>
      let s := s.takeSettings p.1; if p.2.loaded then s.bump p.1 else s) s
    let s := (s.te.streams.filter (fun p => p.2.bump && !p.2.copying)).foldl (fun s p => s.bump p.1) s
    let s := s.retryUnplaced
    let s := s.loadFrame
    let s := s.resumeCopies
    let s := s.startRipeningCommit.stopReplaced
    let s := s.stopSuspended
    let s := s.schedulerHints
    let s := (s.keepValid before).syncRooms.openBank
    let s := (upTo 96).foldl (fun s c => s.startRuns c j) s
    s.gateClusters

/-- The intake buffer of a cluster takes the oldest record of its toll into the bank of its frame: a second record of a row
replaces the first, and one that comes after the seal is discarded (R162, R224; log entry 102). -/
def State.takeIntake (s : State) (cluster : Nat) : State :=
  match s.te.intakeQ.find? (fun x => decide (x.cluster = cluster)) with
  | none => s
  | some x =>
    let s := { s with te := { s.te with intakeQ := s.te.intakeQ.erase x } }
    let key := x.stream * 8 + x.frame % 8
    if x.frame < s.te.sealedTo then s.count 0x3030 6
    else
      match tabFind s.te.intake key with
      | none => s
      | some a =>
        if a.frame ≠ x.frame then s
        else
          let s := if bitAt a.mask x.row then s.count 0x3030 7 else s
          let a := { a with mask := setBit a.mask x.row true, data := setBytes a.data (64 * x.row) 64 x.record }
          let s := { s with te := { s.te with intake := tabInsert s.te.intake key a } }
          -- the record is written in whole words (R211)
          (s.active cluster 44 1).wroteArea (fun y => decide (y = .intake x.stream (x.frame % 8))) (64 + 64 * x.row) 64

/-- The bank of frame `j` is sealed: rows without a record are missing (R224). -/
def State.sealBank (s : State) (j : Nat) : State :=
  let s := { s with te := { s.te with sealedTo := max s.te.sealedTo (j + 1) } }
  s.te.streams.foldl (fun s p =>
    match tabFind s.te.intake (p.1 * 8 + j % 8) with
    | some i =>
      if i.frame = j then
        let missing := ((upTo i.rows).filter (fun r => !bitAt i.mask r)).length
        if missing = 0 then s else s.count (0x3A00 + p.1) 2 missing
      else s
    | none => s) s

/-- A run of frame `j` still executing at the close of frame `j + 7` ends without emitting (R227). -/
def State.bankReuse (s : State) (c : Nat) : State :=
  let ns := (s.streamsOn c).filter (fun n => match (s.stream n).run with
    | some r => decide (r.frame + 8 ≤ s.intake) | none => false)
  let s := ns.foldl (fun s n => (s.setStream n (fun t => { t with run := none })).count 0x3030 9) s
  if s.coreBusy c then s else s.setCore c (fun k => { k with issuing := none })

/-! ## Fence commands (R142, R143, R146) -/

/-- Status of a fence command under its home chapter: STATE, then RANGE, or OK (R18, R142, R146).  DESIGN CHOICE (log entry
96): a host fence of a cluster that is fenced already is refused with STATE, as one of a core is, and so is the release of a
core that is not fenced. -/
def State.fenceStatus (s : State) (arg : Nat) : Nat :=
  let who := fld arg 0 8
  let op := fld arg 8 2
  let named := decide ((op = 2 ∧ who < 12) ∨ (op < 2 ∧ who < 96))
  let state :=
    match op with
    | 0 => decide ((s.core who).st = 3) || s.clusterFenced (who / 8)
    | 1 => decide ((s.core who).causes ≠ [5])
    | _ => s.clusterFenced who
  if named && state then stState else if !named || decide (fld arg 10 6 ≠ 0) then stRange else stOk

/-- The effect of a fence command.  A release before the fence has taken effect at a boundary leaves that effect due: the
streams are placed anew while the core tests itself (R138, R143, R146).  DESIGN CHOICE (log entry 96): a release accepted while
the CD is off and CD_STOPPED is clear moves a core that is still fenced to its self-test all the same, and the row that ends the
test to running. -/
def State.fenceCommand (s : State) (arg : Nat) : State :=
  let who := fld arg 0 8
  match fld arg 8 2 with
  | 0 => s.fenceOne who 5
  | 1 => s.setCore who (fun k => { k with st := 1, causes := [] })
  | _ => s.fenceCluster who 5

/-- A released core's self-test ends (R143). -/
def State.selfTestDone (s : State) (c : Nat) (pass : Bool) : State :=
  if (s.core c).st ≠ 1 then s
  else if pass then
    let s := s.setCore c (fun k => { k with st := 2 })
    { s with te := { s.te with slotFreed := true } }
  else (s.fenceOne c 1).setCore c (fun k => { k with newlyFenced := (s.core c).newlyFenced })

/-- A word of the master copy on a stack cannot be read: its block is lost, or the word is uncorrectable. -/
def Model.unusable (m : Model) (n off : Nat) : Bool :=
  decide ((n, off / 4096) ∈ m.masterGone) || decide (eccDecode (tabGet 0 m.masterErrs (n * 2 ^ 32 + off)) = .bad)

/-- The same word is bad in every master copy of a model (R213). -/
def Model.lost (m : Model) : Bool :=
  let words : List Nat := m.masterErrs.map (fun e => e.1 % 2 ^ 32) ++ m.masterGone.map (fun g => 4096 * g.2)
  words.any (fun o => m.masters.all (fun n => m.unusable n o)) ||
    m.masters.all (fun n => m.masterGone.any (fun g => decide (g.1 = n) && m.masters.all (fun k => decide ((k, g.2) ∈ m.masterGone))))

/-- The loader writes the vat-mode weights of a core's copy again; `words` were delivered with other data bits.  Blocks whose
valid bit was lost are zero-filled first (R208, R213). -/
def State.rewriteVat (s : State) (c k : Nat) (words : List (Nat × Nat)) : State :=
  let fills := ((s.core c).vatGone.filter (fun g => decide (g.1 = k))).length
  let s := s.setCore c (fun x => { x with
    vatErrs := x.vatErrs.filter (fun e => decide (e.1 / 2 ^ 32 ≠ k)), vatGone := x.vatGone.filter (fun g => decide (g.1 ≠ k)) })
  let m := s.model k
  let start := match s.floorplan.copy c k with | some p => m.imageLen - m.weightsLen + p.loc + p.clus | none => m.imageLen
  (if fills = 0 then s else s.count (0xA100 + c / 8) 6 fills).layAltered c k (words.filter (fun x => decide (start ≤ x.1)))

/-- The loader restores a bad master copy or vat-mode weights from the other master copy, or finds the model damaged
(R213).  It works in the slots permitted to loads (R488). -/
def State.masterRestore (s : State) (ident : Nat) (us : List Upset) : State :=
  let s := s.hbmUpsets us
  match s.modelKey ident with
  | none => s
  | some k =>
    let waiting := (s.streamsOf k).filter (fun n => (s.stream n).copying && decide ((s.stream n).resumeAt = 0))
    if ((s.model k).badMasters = [] ∧ waiting = []) ∨ s.copyPermitted = false then s
    else
    let got := s.readMaster k
    let s := got.1
    if (s.model k).lost then
      let s := s.logEvent 0x3002 (packBytes [(4, ident)])
      let s := (s.streamsOf k).foldl (fun (s : State) n => (s.bump n).setStream n (fun t =>
        { t with slot := none, run := none, copying := false, damaged := true })) s
      s.trimLayout.keepValid got.1
    else
      let bad := (s.model k).badMasters
      let s := bad.foldl (fun (s : State) n => s.count (0xA100 + n) 6 (((s.model k).masterGone.filter (fun g => decide (g.1 = n))).length)) s
      let s := s.setModel k (fun m => { m with
        badMasters := [], masterGone := [],
        masterErrs := bad.foldl (fun t n => got.2.foldl (fun t x => tabPut 0 t (n * 2 ^ 32 + x.1) (codeOf x.2)) t)
          (m.masterErrs.filter (fun e => decide (e.1 / 2 ^ 32 ∉ bad))) })
      let cores := (waiting.filterMap (fun n => (s.stream n).slot.map (· / 8))).foldl ordInsert []
      let s := cores.foldl (fun (s : State) c => s.rewriteVat c k got.2) s
      waiting.foldl (fun s n => s.setStream n (fun t => { t with copying := false })) s

end Sys2Proof.Machine
end

