-- ==== Sys2Proof/Machine/Programs.lean ====
section
/-! DEFINITION. The command sequencer: programs, operands, faults, barriers, tolls, and the meaning of each TE command
(R149 to R169, R190, R191, R227, R228). -/

namespace Sys2Proof.Machine

open Sys2Proof

/-! ## Programs -/

/-- The core a program runs on. -/
def State.progCore (s : State) : ProgRef → Option Nat
  | .stream n => (s.stream n).slot.map (· / 8)
  | .host c => some c
  | .ripen c => some c

/-- The program's run. -/
def State.progRun (s : State) : ProgRef → Option Run
  | .stream n => (s.stream n).run
  | .host c => tabFind s.te.host c
  | .ripen c => tabFind s.te.ripen c

/-- Replace a program's run. -/
def State.setRun (s : State) (p : ProgRef) (r : Run) : State :=
  match p with
  | .stream n => s.setStream n (fun t => { t with run := some r })
  | .host c => { s with te := { s.te with host := tabInsert s.te.host c r } }
  | .ripen c => { s with te := { s.te with ripen := tabInsert s.te.ripen c r } }

/-- No stream of an earlier batch of the core still runs (R150). -/
def State.batchTurn (s : State) (core n : Nat) : Bool :=
  let bs := (batchesOf s.te.streams core).map (·.2)
  let before := bs.takeWhile (fun b => decide (n ∉ b))
  before.all (fun b => b.all (fun m => (s.stream m).run.isNone))

/-- The loader is copying to a core's SRAM: work of class 2 of R37 (R183, R192). -/
def State.copyBusy (s : State) (c : Nat) : Bool :=
  s.te.copyQ.any (fun x => decide (x.core = c))

/-- A host program of a core has a command to issue. -/
def State.hostReady (s : State) (c : Nat) : Bool :=
  match tabFind s.te.host c with
  | some r => decide (r.status = 0) && r.barrier.isNone && r.closing.isNone && !r.fenceWait && !r.tollWait && s.hostPermitted
  | none => false

/-- No work of a higher class is ready on the core: forecast first, then loads, host work and ripening (R37, R133, R150). -/
def State.classFree (s : State) (c : Nat) : ProgRef → Bool
  | .stream n => s.batchTurn c n
  | .host _ => !s.coreBusy c && !s.copyBusy c && s.hostPermitted
  | .ripen _ => !s.coreBusy c && !s.copyBusy c && !s.hostReady c && decide (s.lambda = 0)

/-- A program may issue: its core runs and is awake and serves the program's class, and no earlier command waits (R133,
R150, R192). -/
def State.mayIssue (s : State) (p : ProgRef) (c : Nat) (r : Run) : Bool :=
  s.cd.running && s.coreRunning c && !bitAt s.te.gated (c / 8) && decide (r.status = 0) && r.barrier.isNone &&
  r.closing.isNone && s.classFree c p

/-- Scalar register of a run. -/
def Run.reg (r : Run) (i : Nat) : Nat := tabGet 0 r.regs i

/-- No stream of the batch has run this command of the run frame yet: the batch runs it once (R150). -/
def State.leads (s : State) (p : ProgRef) (c : Nat) (r : Run) : Bool :=
  match p with
  | .stream n =>
    let at_ := tabGet (0, 0) (s.core c).batchAt (s.stream n).model
    decide (at_.1 ≠ r.frame) || !bitAt at_.2 r.index
  | _ => true

/-- The program goes on with command `index`. -/
def State.goOn (s : State) (p : ProgRef) (c : Nat) (r : Run) (index : Nat) : State :=
  let s := match p with
    | .stream n =>
      if s.leads p c r then
        let key := (s.stream n).model
        let at_ := tabGet (0, 0) (s.core c).batchAt key
        let done := if at_.1 = r.frame then at_.2 else 0
        s.setCore c (fun k => { k with batchAt := tabPut (0, 0) k.batchAt key (r.frame, setBit done r.index true) })
      else s
    | _ => s.setCore c (fun k => { k with yielded := false })
  let s := s.setCore c (fun k => { k with issuing := some p })
  s.setRun p { r with index := index, completed := r.completed + 1, fenceWait := false, tollWait := false, counted := false }

/-! ## Ends of programs (R161, R167, R191, R246) -/

/-- The 64-byte completion record of a host program. -/
def completionRecord (status core completed cycles : Nat) : Blob :=
  packBytes [(2, status), (1, core), (1, 0), (4, completed), (8, cycles)]

/-- Participants of a barrier that have ended without arriving often enough break it (R167). -/
def Run.stranded (r : Run) : Bool :=
  match r.barrier with
  | none => false
  | some i => decide (i ∈ r.broken) || r.gone.any (fun g =>
      (decide (16 ≤ i) || decide (g.1 / 8 = r.core / 8)) && decide (tabGet 0 g.2 i < tabGet 0 r.arrivals i))

/-- Mark the programs whose barrier has broken. -/
def State.strand (s : State) : State :=
  let f := fun (x : Nat × Run) =>
    (x.1, if x.2.stranded then { x.2 with status := 3, barrier := none } else x.2)
  { s with te := { s.te with host := s.te.host.map f, ripen := s.te.ripen.map f } }

/-- A program leaves its group: the others remember what it arrived at. -/
def State.leaveGroup (s : State) (r : Run) : State :=
  s.fixGroup r.group r.core (fun x => { x with gone := x.gone ++ [(r.core, r.arrivals)] })

/-- Streams of one model on one core: a batch. -/
def State.sameBatch (s : State) (m n : Nat) : Bool :=
  decide ((s.stream m).model = (s.stream n).model ∧ (s.stream m).slot.map (· / 8) = (s.stream n).slot.map (· / 8))

/-- Items of the program that its consumers have not accepted yet: its hints, which a batch sends once, and its results
(R165). -/
def State.tollsPending (s : State) (p : ProgRef) : Bool :=
  s.te.hintQ.any (fun h => match h.2.owner, p with
    | some (.stream m), .stream n => s.sameBatch m n
    | o, _ => decide (o = some p)) ||
  (match p with | .stream n => s.te.emitQ.any (fun e => decide (e.2.stream = n)) | _ => false)

/-- A core issues nothing of a program any more. -/
def State.quit (s : State) (c : Nat) (p : ProgRef) : State :=
  s.setCore c (fun k => if k.issuing = some p then { k with issuing := none, yielded := false } else k)

/-- Earlier operations of a program that have not completed: HBM writes that wait for a credit, and items of the tolls (R165).
DESIGN CHOICE (log entry 106): a beat that waits has its bytes in place already. -/
def State.writesPending (s : State) (p : ProgRef) : Bool := s.te.beatsWait.any (fun b => decide (b.owner = p))

/-- Beats take the credits of the HBM_WR toll that are left; the others wait for a credit, and each is counted, unless it has
been counted while its command waited (R162, R163). -/
def State.takeBeats (s : State) (p : ProgRef) (c beats : Nat) (counted : Bool) : State :=
  if beats = 0 then s
  else
    let out := tabGet 0 s.te.credits (4 * 128 + c)
    let rest := beats - (64 - out)
    let s := { s with te := { s.te with credits := tabPut 0 s.te.credits (4 * 128 + c) (min 64 (out + beats)) } }
    if rest = 0 then s
    else
      let s := { s with te := { s.te with beatsWait := s.te.beatsWait ++ [⟨c, p, rest⟩] } }
      if counted then s else s.count 0x3210 5 rest

/-- Count the zero-fills of a stack, and as waits of the HBM_WR toll (R208, R209). -/
def State.fillWaits (s : State) (fills : Nat) : State := if fills = 0 then s else s.count 0x3210 5 fills

/-- The core holds no credit of its HBM_WR toll. -/
def State.hbmFull (s : State) (c : Nat) : Bool := decide (64 ≤ tabGet 0 s.te.credits (4 * 128 + c))

/-- The FENCE with which a host program ends is met (R165, R191). -/
def State.closeMet (s : State) (c : Nat) : Bool := !s.tollsPending (.host c) && !s.writesPending (.host c)

/-- A host program is over: its completion record takes a beat of the HBM_WR toll, and then the interrupt comes (R162,
R191). -/
def State.finishHost (s : State) (c status cycles : Nat) : State :=
  match tabFind s.te.host c with
  | none => s
  | some r =>
    let s := (({ s with te := { s.te with host := tabErase s.te.host c } }).quit c (.host c)).keepWords s [c]
    let w := s.bar2Store (r.completion + 64 * c) 64 (completionRecord status c r.completed cycles) r.secure
    ((w.1.takeBeats (.host c) c 1 r.counted).fillWaits w.2.fills).raise irqTensor

/-- Records that wait for a credit of their core are counted, once each (R163). -/
def State.countRecords (s : State) : State :=
  let waits := (s.te.host.filter (fun x => x.2.closing.isSome && !x.2.counted && s.closeMet x.1 && s.hbmFull x.1)).map (·.1)
  waits.foldl (fun (s : State) c =>
    let host := s.te.host.map (fun x => (x.1, if x.1 = c then { x.2 with counted := true } else x.2))
    ({ s with te := { s.te with host := host } }).count 0x3210 5) s

/-- A host program ends with a status: it leaves its group, and once its closing FENCE has been met its record is written
(R191). -/
def State.endHost (s : State) (c status cycles : Nat) : State :=
  match tabFind s.te.host c with
  | none => s
  | some r =>
    let s := s.leaveGroup r
    if s.closeMet c && !s.hbmFull c then s.finishHost c status cycles
    else s.setRun (.host c) { r with closing := some (status, cycles), fenceWait := !s.closeMet c, barrier := none, counted := false }

/-- A ripening program ends; `done` where it reached END. -/
def State.endRipen (s : State) (c : Nat) (done : Bool) : State :=
  match tabFind s.te.ripen c with
  | none => s
  | some r =>
    let s := (({ s with te := { s.te with ripen := tabErase s.te.ripen c } }).quit c (.ripen c)).keepWords s [c]
    let s := s.leaveGroup r
    let s := s.setJob r.job (fun j =>
      { j with failed := j.failed || !done, ended := if done then ordInsert j.ended c else j.ended,
               errors := if done ∧ j.participants.head? = some c then some (r.reg 14, r.reg 15) else j.errors })
    s.promote

/-- Programs whose closing FENCE is met write their record, and programs that a broken barrier has ended leave with status
STATE; `n` bounds the cascade. -/
def State.settle : Nat → State → State
  | 0, s => s
  | n + 1, s =>
    let s := s.strand
    match s.te.host.find? (fun x => x.2.closing.isSome && s.closeMet x.1 && !s.hbmFull x.1) with
    | some x => let e := x.2.closing.getD (0, 0); State.settle n (s.finishHost x.1 e.1 e.2)
    | none =>
      match s.te.host.find? (fun x => decide (x.2.status = 3) && x.2.closing.isNone) with
      | some x => let d := s.draw; State.settle n (d.2.endHost x.1 stState (d.1 % 2 ^ 64))
      | none =>
        match s.te.ripen.find? (fun x => decide (x.2.status = 3)) with
        | some x => State.settle n (s.endRipen x.1 false)
        | none => s

/-- After any event of the tensor engine: broken barriers end their programs, records that wait are counted, and finished jobs
are judged. -/
def State.settled (s : State) : State := ((State.settle 192 s).countRecords).judgeJobs

/-- The run of a forecast stream is over for this frame. -/
def State.endStream (s : State) (n : Nat) : State :=
  match s.progCore (.stream n) with
  | some c =>
    let s := s.setStream n (fun t => { t with run := none })
    if s.coreBusy c then s
    else s.setCore c (fun k => { k with issuing := none, yielded := false })
  | none => s.setStream n (fun t => { t with run := none })

/-- A program ends without reaching END: `status` goes into a host program's completion record. -/
def State.endBad (s : State) (p : ProgRef) (status : Nat) : State :=
  match p with
  | .stream n => s.endStream n
  | .host c => let d := s.draw; d.2.endHost c status (d.1 % 2 ^ 64)
  | .ripen c => s.endRipen c false

/-- Class code of TE_SEQ_STATUS. -/
def progClass : ProgRef → Nat
  | .stream _ => 1 | .host _ => 3 | .ripen _ => 4

/-- The program that a core serves: the highest class of R37 that has work there and may use the slot, or that has been begun
and waits (R192). -/
def State.onCore (s : State) (c : Nat) : Option ProgRef :=
  let waits := fun (r : Run) => r.fenceWait || r.barrier.isSome || r.tollWait
  let ripens := match tabFind s.te.ripen c with
    | some r => if decide (s.lambda = 0) || waits r then some (ProgRef.ripen c) else none
    | none => none
  if s.coreBusy c then
    match (s.core c).issuing with
    | some (.stream n) => if (s.stream n).run.isSome ∧ n ∈ s.streamsOn c then some (.stream n) else none
    | _ => none
  else
    match tabFind s.te.host c with
    | none => ripens
    | some r =>
      -- while the host program waits, the ripening program of the core may issue
      let next : Bool := match tabFind s.te.ripen c with
        | some q => decide (s.lambda = 0) && decide (q.status = 0) && !waits q && !s.hostReady c
        | none => false
      if next then ripens else if s.hostPermitted || waits r then some (.host c) else ripens

/-- Running class of TE_SEQ_STATUS (R37, R192). -/
def State.coreClass (s : State) (c : Nat) : Nat :=
  if s.coreBusy c then 1 else if s.copyBusy c then 2 else match s.onCore c with | some p => progClass p | none => 0

/-- Index of the command that the core issues, COMMAND of TE_SEQ_STATUS (R192). -/
def State.coreCommand (s : State) (c : Nat) : Nat :=
  match if s.copyBusy c && !s.coreBusy c then none else s.onCore c with
  | some p => ((s.progRun p).map (fun r => r.index % 2048)).getD 0
  | none => 0

/-- The CMD_BOUNDS fault (R161). -/
def State.boundsFault (s : State) (p : ProgRef) (c : Nat) (r : Run) : State :=
  let s := s.count 0xC010 11
  let s := s.setCore c (fun k => { k with boundsSeen := true })
  let who := match p with | .stream n => n | _ => 0xFFFF
  let source := match p with | .stream n => n | .host c => 1024 + c | .ripen c => 2048 + c
  let s := match p with | .stream n => s.count (0x3700 + n) 6 | _ => s
  let s := s.logLimited 1 source 0x3001 (packBytes [(2, who), (1, c), (1, progClass p), (2, r.index)])
  s.endBad p stBounds

/-! ## Operands -/

/-- The ripening job of a core's program: its model identifier. -/
def State.jobOf (s : State) (c : Nat) : Option (Nat × Job) :=
  match tabFind s.te.ripen c with
  | some r => (tabFind s.te.jobs r.job).map (fun j => (r.job, j))
  | none => none

/-- The model whose copy on the core a program reads: a ripening program reads the core's present copy (R245). -/
def State.progKey (s : State) (p : ProgRef) : Option Nat :=
  match p with
  | .stream n => some (s.stream n).model
  | .ripen c => (s.jobOf c).map (·.2.model)
  | .host _ => none

/-- The bytes of a stream's intake area in the bank of a frame (R225). -/
def State.intakeBytes (s : State) (n frame : Nat) : Blob :=
  match tabFind s.te.intake (n * 8 + frame % 8) with
  | some i =>
    let kept := fun (x : Nat) => if i.header then x else 0
    if i.frame = frame then packBytes [(8, kept i.frame), (1, i.mask), (1, kept i.rows), (54, 0), (512, i.data)] else 0
  | none => 0

/-- Parts of a ripening program's HISTORY, cut at the histories of the model's streams on its core, in slot order: stream,
offset in its history, offset in the part, length (R245). -/
def State.ripenParts (s : State) (c a n : Nat) : List (Nat × Nat × Nat × Nat) :=
  match s.jobOf c with
  | none => []
  | some (_, j) =>
    let len := max 1 ((s.model j.model).area 5)
    let ns := (s.streamsOn c).filter (fun m => decide ((s.stream m).model = j.model))
    ((upTo ns.length).map (fun i => (ns.getD i 0, i))).filterMap (fun x =>
      let lo := max a (x.2 * len)
      let hi := min (a + n) ((x.2 + 1) * len)
      if lo < hi then some (x.1, lo - x.2 * len, lo - a, hi - lo) else none)

/-- A non-secure program's access to bytes of an area touches a region that is now secure (R94). -/
def State.areaBlocked (s : State) (r : Run) (c : Nat) (x : Area) (off n : Nat) : Bool :=
  !r.secure && (s.areaRegions c false x off n).any (fun k => bitAt (s.effv 0xB031 0) k)

/-- The same for an object in a forecast area. -/
def State.keptBlocked (s : State) (r : Run) (n : Nat) (x : Kept4) (off len : Nat) : Bool :=
  !r.secure && (s.hbmSecure (s.keptPa n x off) || s.hbmSecure (s.keptPa n x (off + len - 1)))

/-- A program's access to bytes of an area counts with its cluster: 64-byte accesses of the core's local SRAM, reads or writes
of cluster SRAM (R484). -/
def State.areaMoved (s : State) (c : Nat) (x : Area) (write : Bool) (a n : Nat) : State :=
  match x with
  | .shared _ _ _ | .intake _ _ | .control _ => s.active (c / 8) (if write then 41 else 40) (pieces a n)
  | _ => s.active (c / 8) (5 * (c % 8) + 3) (pieces a n)

/-- Read bytes of an SRAM area for a program; where the program's batch has read them at the same command (`again`) the access
has been counted, and so have the words that `seen` names (R150). -/
def State.areaReadBut (s : State) (again : Bool) (seen : Nat → Bool) (r : Run) (c : Nat) (x : Area) (a n : Nat) (rd : State → Nat → Nat → Blob) : Got :=
  if s.areaBlocked r c x a n then ⟨s.violation, 0, true⟩
  else (if again then s else s.areaMoved c x false a n).sramReadBut seen (fun y => decide (y = x)) a n rd

/-- Read bytes of an SRAM area for a program. -/
def State.areaRead (s : State) (r : Run) (c : Nat) (x : Area) (a n : Nat) (rd : State → Nat → Nat → Blob) : Got :=
  s.areaReadBut false (fun _ => false) r c x a n rd

/-- Write bytes of an SRAM area for a program. -/
def State.areaWrite (s : State) (r : Run) (c : Nat) (x : Area) (m : Mem) (a n : Nat) (v : Blob) : Got × Mem :=
  if s.areaBlocked r c x a n then (⟨s.violation, 0, true⟩, m) else (s.areaMoved c x true a n).sramWrite (fun y => decide (y = x)) m a n v

/-- Bytes that the loader wrote, zero where a world change has cleared their words since. -/
def State.loaded (s : State) (c : Nat) (secure : Bool) (x : Area) (data : Nat → Nat → Blob) (o k : Nat) : Blob :=
  if s.te.cleared = [] then data o k
  else packBytes ((upTo k).map (fun i => (1, match s.areaAddr c secure x (o + i) with
    | some g => if spanHas s.te.cleared g then 0 else data (o + i) 1
    | none => data (o + i) 1)))

/-- A byte of an area lies in a word that another area, or another run, has left valid (R210). -/
def State.leftValid (s : State) (c : Nat) (secure : Bool) (x : Area) (o : Nat) : Bool :=
  match x with
  | .scratch n => decide (o / 4 ∈ (s.stream n).scratchValid)
  | _ => false
  || (s.te.stale ≠ [] && match s.areaAddr c secure x o with | some g => spanHas s.te.stale g | none => false)

/-- The contents of a byte of a SCRATCH area: what the run has written; else a free value where its word is valid, and zero where
it is not (R158, R207; log entries 1 and 110). -/
def State.scratchByte (s : State) (c : Nat) (r : Run) (x : Area) (o : Nat) : Nat :=
  if r.scratch.isValid 4 o then (tabGet (memZero o) r.scratch.cells o).toNat
  else if s.leftValid c r.secure x o then Config.freeValue (r.scratchKey + o) % 256
  else 0

/-- Words that a byte range of an area touches, which the area has not written and others have left valid: they hold free
values (R210; log entry 110). -/
def State.surfaceMem (s : State) (c : Nat) (r : Run) (x : Area) (m : Mem) (a n : Nat) : Mem :=
  ((wordsOf a n).filter (fun w => !m.isValid 4 w && s.leftValid c r.secure x w)).foldl (fun m w =>
    (m.write 4 w 4 (Config.freeValue (s.free + w) % 2 ^ 32)).1) m

/-- What a stream's STATE and OUTPUT areas hold in the range of an access. -/
def State.surface (s : State) (p : ProgRef) (c : Nat) (r : Run) (kind a n : Nat) : State :=
  if s.te.stale = [] then s
  else
    let s' := { s with free := s.free + a + n + 4 }
    match kind, p with
    | 1, .stream k => s'.setStream k (fun t => { t with stateMem := s.surfaceMem c r (.state k) t.stateMem a n })
    | 4, .stream k => s'.setStream k (fun t => { t with outMem := s.surfaceMem c r (.output k) t.outMem a n })
    | _, _ => s

/-- The memory of a HISTORY buffer or a candidate area. -/
def State.keptMem (s : State) : Kept4 → Mem
  | .history m => (s.stream m).history
  | .candidate i => match tabFind s.te.jobs i with | some j => j.candidate | none => {}
  | _ => {}

/-- Replace it. -/
def State.setKeptMem (s : State) (x : Kept4) (m : Mem) : State :=
  match x with
  | .history k => s.setStream k (fun t => { t with history := m })
  | .candidate i => s.setJob i (fun j => { j with candidate := m })
  | _ => s

/-- The words met by an access, at their physical addresses. -/
def State.keptFx (s : State) (n : Nat) (x : Kept4) (fx : MemFx) : MemFx :=
  { fx with corrected := fx.corrected.map (s.keptPa n x), bad := fx.bad.map (s.keptPa n x) }

/-- Compare the valid-bit copies of the blocks that an access to a kept memory touches. -/
def State.keptVote (s : State) (x : Kept4) (off len : Nat) : State :=
  let v := (s.keptMem x).vote 4096 off len
  (s.setKeptMem x v.1).disagreed v.2

/-- Read bytes of a HISTORY buffer or a candidate area in the stack of cluster `n` (R208, R212, R213). -/
def State.keptRead (s : State) (r : Run) (n : Nat) (x : Kept4) (off len : Nat) : Got :=
  if s.keptBlocked r n x off len then ⟨s.violation, 0, true⟩
  else
    let s := (s.active n 42 (pieces off len)).keptVote x off len
    let g := (s.keptMem x).read 4096 off len
    ⟨s.hbmFx (s.keptFx n x g.2) (s.keptPa n x off), g.1, decide (g.2.bad = [])⟩

/-- Write bytes of a HISTORY buffer or a candidate area. -/
def State.keptWrite (s : State) (r : Run) (n : Nat) (x : Kept4) (off len : Nat) (v : Blob) : Got :=
  if s.keptBlocked r n x off len then ⟨s.violation, 0, true⟩
  else
    let s := (s.active n 43 (pieces off len)).keptVote x off len
    let w := (s.keptMem x).writeWhole 4096 off len v
    let s := (s.setKeptMem x w.1).hbmFx (s.keptFx n x w.2) (s.keptPa n x off)
    ⟨s.fillWaits w.2.fills, 0, decide (w.2.dropped = 0)⟩

/-- Read bytes of the vat-mode part of a model copy: errors of its words, and regions that a world change has cleared
and blocks whose valid bit is lost (R177, R208, R213); where the batch has read the bytes (`again`) the access has been
counted, and so have the words that `seen` names (R150). -/
def State.vatRead (s : State) (again : Bool) (seen : Nat → Bool) (r : Run) (c k off len : Nat) (data : Nat → Nat → Blob) : Got :=
  let n := c / 8
  let x := Kept4.vat c k
  if len = 0 then ⟨s, 0, true⟩
  else if s.keptBlocked r n x off len then ⟨s.violation, 0, true⟩
  else
    let s := (if again then s else s.active n 42 (pieces off len)).hbmVote (s.keptPa n x off) len
    -- words of a region that a world change has cleared, and of a block whose valid bit is lost, read zero
    let gone := fun (o : Nat) =>
      decide ((k, o / 4096) ∈ (s.core c).vatGone ∨ (c, k, s.keptPa n x o / regionBytes) ∈ s.te.hbmCleared)
    let met := ((wordsOf off len).map (fun w => (w, eccDecode (s.keptMask n x w)))).filter (fun w => decide (w.2 ≠ .clean 0) && !gone w.1)
    let s' := (met.filter (fun w => !seen w.1)).foldl (fun s w => match w.2 with
      | .corrected _ => s.count (0xA100 + n) 1
      | .bad => s.hbmBad (s.keptPa n x w.1)
      | .clean _ => s) s
    let o0 := off / 4 * 4
    let raw := met.foldl (fun d w => d ^^^ (w.2.residual <<< (8 * (w.1 - o0)))) (data o0 (4 * (wordsOf off len).length))
    let got := bytesAt raw (off - o0) len
    ⟨s', if s.te.hbmCleared = [] ∧ (s.core c).vatGone = [] then got else packBytes ((upTo len).map (fun i => (1, if gone (off + i) then 0 else bytesAt got i 1))), !met.any (fun w => decide (w.2 = .bad))⟩

/-- Damaged words of a core's copy of the weights that a range of the section touches, by their offset in it. -/
def State.oddWeights (s : State) (c k : Nat) (cp : Copy) (a n : Nat) : List Nat :=
  (s.oddWords (fun y => decide (y = .weights c k ∨ y = .shared (c / 8) k cp.loc)) a n).map (fun w => w.2) ++
  ((s.core c).vatErrs.filterMap (fun e =>
    let o := cp.loc + cp.clus + e.1 % 2 ^ 32
    if e.1 / 2 ^ 32 = k ∧ a / 4 * 4 ≤ o ∧ o < a + n then some o else none))

/-- A stream of the batch has read these bytes of what the batch shares, at the same command of the run frame: bytes of the
weights section, or the command itself where `n` is 0 (R150). -/
def State.batchHas (s : State) (c : Nat) (r : Run) (key a n : Nat) : Bool :=
  (s.core c).batchRead.any (fun e => decide (e.1 = key ∧ e.2.1 = r.frame ∧ e.2.2.1 = r.index ∧ (n = 0 ↔ e.2.2.2.2 = 0) ∧
    e.2.2.2.1 ≤ a ∧ a + n ≤ e.2.2.2.1 + e.2.2.2.2))

/-- Note it; what was read in another run frame is forgotten. -/
def State.batchNote (s : State) (c : Nat) (r : Run) (key a n : Nat) : State :=
  if s.batchHas c r key a n then s
  else s.setCore c (fun x => { x with
    batchRead := (key, r.frame, r.index, a, n) :: x.batchRead.filter (fun e => decide (e.1 ≠ key ∨ e.2.1 = r.frame)) })

/-- Read bytes of the weights section of a core's model copy, from the levels that hold them (R177).  A batch reads them once
for a command: what another stream has read at the same command has been counted (R150). -/
def State.weightsRead (s : State) (p : ProgRef) (c : Nat) (r : Run) (k a n : Nat) : Got :=
  let w := s.model k
  let data := fun o m => bytesAt w.weights o m
  match s.floorplan.copy c k with
  | none => ⟨s, data a n, true⟩
  | some cp =>
    let part := fun lo hi => (max a lo, min (a + n) hi - max a lo)
    let l := part 0 cp.loc
    let q := part cp.loc (cp.loc + cp.clus)
    let h := part (cp.loc + cp.clus) (a + n)
    let batch := match p with | .stream _ => true | _ => false
    let again := batch && s.batchHas c r k a n
    let s := if batch && decide (n ≠ 0) then s.batchNote c r k a n else s
    let seen := fun (o : Nat) => batch && decide ((k, r.frame, r.index, o) ∈ (s.core c).batchSeen)
    let odd := if batch then s.oddWeights c k cp a n else []
    let s := if odd = [] then s
      else s.setCore c (fun x =>
        { x with batchSeen := odd.map (fun o => (k, r.frame, r.index, o)) ++ x.batchSeen.filter (fun e => decide (e.2.1 = r.frame)) })
    let read := fun (s : State) (x : Area) (z : Nat × Nat) =>
      (if z.2 = 0 then ⟨s, 0, true⟩ else s.areaReadBut again seen r c x z.1 z.2 (fun s => s.loaded c cp.secure x data) : Got)
    let g := read s (.weights c k) l
    let g2 := read g.s (.shared (c / 8) k cp.loc) q
    let g3 := g2.s.vatRead again (fun o => seen (cp.loc + cp.clus + o)) r c k (h.1 - (cp.loc + cp.clus)) h.2
      (fun o m => data (cp.loc + cp.clus + o) m)
    ⟨g3.s, packBytes [(l.2, g.data), (q.2, g2.data), (h.2, g3.data)], g.ok && g2.ok && g3.ok⟩

/-- Read bytes of a program's HOSTMEM (R94, R199, R213, R214). -/
def State.hostmemRead (s : State) (r : Run) (a n : Nat) : Got :=
  let part := fun (x : Got × List (Nat × Nat)) (p : Nat × Nat) =>
    let s := x.1.s
    match s.bar2Map p.1 with
    | none => (⟨s.count 0xA050 3, 0, x.1.ok⟩, x.2 ++ [(p.2, 0)])
    | some pa =>
      if s.hbmSecure pa && !r.secure then (⟨s.violation, 0, x.1.ok⟩, x.2 ++ [(p.2, 0)])
      else if !s.stackReachable pa then (⟨s, 0, false⟩, x.2 ++ [(p.2, 0)])
      else
        let s := (s.hbmMoved 42 pa p.2).hbmVote pa p.2
        let g := s.cd.hbm.read 4096 pa p.2
        (⟨s.hbmFx g.2 pa, 0, x.1.ok && decide (g.2.bad = [])⟩, x.2 ++ [(p.2, g.1)])
  let g : Got × List (Nat × Nat) := (bar2Parts a n).foldl part (⟨s, 0, true⟩, [])
  { g.1 with data := packBytes g.2 }

/-- Read `n` bytes at offset `a` of the area behind a buffer of a kind (R158, R225, R245). -/
def State.readArea (s : State) (p : ProgRef) (c : Nat) (r : Run) (kind a n : Nat) : Got :=
  let s := s.surface p c r kind a n
  let scratch := fun (y : Area) (s : State) (o x : Nat) => packBytes ((upTo x).map (fun i => (1, s.scratchByte c r y (o + i))))
  match kind, p with
  | 0, .host _ => s.areaRead r c (.hostWeights c) a n (fun s => s.loaded c r.secure (.hostWeights c) (fun o x => bytesAt r.image.weights o x))
  | 0, p => match s.progKey p with
    | some k => s.weightsRead p c r k a n
    | none => ⟨s, 0, true⟩
  | 1, .stream k => s.areaRead r c (.state k) a n (fun s o x => cellsGet memZero (s.stream k).stateMem.cells o x)
  | 2, .stream k => s.areaRead r c (.scratch k) a n (scratch (.scratch k))
  | 2, .host _ => s.areaRead r c (.hostScratch c) a n (scratch (.hostScratch c))
  | 2, .ripen _ => s.areaRead r c (.ripenScratch c) a n (scratch (.ripenScratch c))
  | 3, .stream k => s.areaRead r c (.intake k (r.frame % 8)) a n (fun s o x => bytesAt (s.intakeBytes k r.frame) o x)
  | 4, .stream k => s.areaRead r c (.output k) a n (fun s o x => cellsGet memZero (s.stream k).outMem.cells o x)
  | 4, .ripen k =>
    match s.jobOf k with
    | some j => s.keptRead r ((j.2.participants.headD 0) / 8) (.candidate j.1) a n
    | none => ⟨s, 0, true⟩
  | 5, .stream k => s.keptRead r (c / 8) (.history k) a n
  | 5, .ripen k =>
    let g := (s.ripenParts k a n).foldl (fun (x : Got × List (Nat × Nat)) h =>
      let g := x.1.s.keptRead r (c / 8) (.history h.1) h.2.1 h.2.2.2
      (⟨g.s, 0, x.1.ok && g.ok⟩, x.2 ++ [(h.2.2.2, g.data)])) (⟨s, 0, true⟩, [])
    { g.1 with data := packBytes g.2 }
  | 6, _ => s.hostmemRead r a n
  | _, _ => ⟨s, 0, true⟩

/-- Scratch words that a write covers in part keep what they hold beside it: an invalid word merges with zeros (R211). -/
def State.fillScratch (s : State) (c : Nat) (r : Run) (x : Area) (a n : Nat) : Mem :=
  (wordsOf a n).foldl (fun m w =>
    if m.isValid 4 w ∨ (a ≤ w ∧ w + 4 ≤ a + n) then m
    else (m.write 4 w 4 (packBytes ((upTo 4).map (fun i => (1, s.scratchByte c r x (w + i)))))).1) r.scratch

/-- Write `n` bytes at offset `a` of the area behind a buffer of a kind; the run with its new scratch. -/
def State.writeArea (s : State) (p : ProgRef) (c : Nat) (r : Run) (kind a n : Nat) (v : Blob) : Got × Run :=
  let s := s.surface p c r kind a n
  let scratch := fun (x : Area) =>
    let w := s.areaWrite r c x (s.fillScratch c r x a n) a n v
    (w.1, { r with scratch := w.2 })
  match kind, p with
  | 1, .stream k =>
    let x := s.areaWrite r c (.state k) (s.stream k).stateMem a n v
    ({ x.1 with s := x.1.s.setStream k (fun t => { t with stateMem := x.2 }) }, r)
  | 2, .stream k =>
    let x := scratch (.scratch k)
    let ws : List Nat := (x.2.scratch.valid.filter (fun w => decide (w ∉ (s.stream k).scratchValid)))
    ({ x.1 with s := x.1.s.setStream k (fun t => { t with scratchValid := ws.foldl ordInsert t.scratchValid }) }, x.2)
  | 2, .host _ => scratch (.hostScratch c)
  | 2, .ripen _ => scratch (.ripenScratch c)
  | 4, .stream k =>
    let x := s.areaWrite r c (.output k) (s.stream k).outMem a n v
    ({ x.1 with s := x.1.s.setStream k (fun t => { t with outMem := x.2 }) }, r)
  | 4, .ripen k =>
    match s.jobOf k with
    | some j => (s.keptWrite r ((j.2.participants.headD 0) / 8) (.candidate j.1) a n v, r)
    | none => (⟨s, 0, true⟩, r)
  | 5, .stream k => (s.keptWrite r (c / 8) (.history k) a n v, r)
  | 5, .ripen k =>
    let parts := s.ripenParts k a n
    let put := fun (x : Got) (h : Nat × Nat × Nat × Nat) =>
      let g := x.s.keptWrite r (c / 8) (.history h.1) h.2.1 h.2.2.2 (bytesAt v h.2.2.1 h.2.2.2)
      (⟨g.s, 0, x.ok && g.ok⟩ : Got)
    -- where a part drops its write the command fails, and the other parts stay unwritten too (R131, R211)
    let s := parts.foldl (fun (s : State) h => if s.keptBlocked r (c / 8) (.history h.1) h.2.1 h.2.2.2 then s
      else s.keptVote (.history h.1) h.2.1 h.2.2.2) s
    let drops := parts.filter (fun h => !(put ⟨s, 0, true⟩ h).ok)
    ((if drops = [] then parts else drops).foldl put ⟨s, 0, true⟩, r)
  | 6, _ =>
    let x := s.bar2Store a n v r.secure
    (⟨x.1.fillWaits x.2.fills, 0, decide (x.2.dropped = 0)⟩, r)
  | _, _ => (⟨s, 0, true⟩, r)

/-- Every extent lies within its buffer and every count below 2^24 (R160).  DESIGN CHOICE (log entry 106): an operand with an
empty extent whose offset lies past its buffer is out of bounds too. -/
def Run.inBounds (r : Run) (c : Blob) : Bool :=
  (countWords (cmdOp c)).all (fun i => decide (countOf r.reg (cmdWord c i) < 2 ^ 24)) &&
  (usesAt c r.reg).all (fun u =>
    let w := cmdWord c u.word
    match r.image.bufs[opBuf w]? with
    | none => false
    | some b => decide (opOff r.reg w + u.len ≤ b.len) && (!u.write || b.write))

/-- Read the operand of word `i` over `n` bytes. -/
def State.operand (s : State) (p : ProgRef) (c : Nat) (r : Run) (cmd : Blob) (i n : Nat) : Got :=
  let w := cmdWord cmd i
  match r.image.bufs[opBuf w]? with
  | none => ⟨s, 0, true⟩
  | some b => if n = 0 then ⟨s, 0, true⟩ else s.readArea p c r b.kind (b.offset + opOff r.reg w) n

/-- Write the operand of word `i`. -/
def State.result (s : State) (p : ProgRef) (c : Nat) (r : Run) (cmd : Blob) (i n : Nat) (v : Blob) : Got × Run :=
  let w := cmdWord cmd i
  match r.image.bufs[opBuf w]? with
  | none => (⟨s, 0, true⟩, r)
  | some b => if n = 0 then (⟨s, 0, true⟩, r) else s.writeArea p c r b.kind (b.offset + opOff r.reg w) n v

/-- The command waits for its bank to be sealed: a first INTAKE read of the run (R226). -/
def State.waitsForSeal (s : State) (r : Run) (cmd : Blob) : Bool :=
  (usesAt cmd r.reg).any (fun u => match r.image.bufs[opBuf (cmdWord cmd u.word)]? with
    | some b => decide (b.kind = 3 ∧ s.te.sealedTo ≤ r.frame) | none => false)

/-- Settings that a program's arithmetic uses.  Those of host and ripening programs, which the specification does not
give, are free (log entry 98). -/
def State.teMode (s : State) (p : ProgRef) (r : Run) : TeMode :=
  match p with
  | .stream n =>
    let t := s.stream n
    { stochastic := decide (t.rounding = 1), seed := t.seed, frame := r.frame, command := r.index,
      toInf := decide (t.overflow = 1) }
  | _ => { stochastic := Config.programStochastic, seed := Config.programSeed, frame := r.frame, command := r.index,
           toInf := Config.programToInf }

/-- Count what a completed command met (R117, R118, R125, R128, R144). -/
def State.teCount (s : State) (p : ProgRef) (c : Nat) (k : TeCount) : State :=
  let s := match p with
    | .stream n =>
      let i := 0x3400 + n
      (((s.count i 4 k.sat).count i 5 k.nan).count i 6 k.acc).count i 7 k.b4
    | _ => s
  s.setCore c (fun x =>
    { x with satSeen := x.satSeen || decide (0 < k.sat), nanSeen := x.nanSeen || decide (0 < k.nan),
             accSeen := x.accSeen || decide (0 < k.acc),
             b4Seen := x.b4Seen || decide (0 < k.b4) })

/-- A command that the datapath, a bounds check or memory may stop: `compute` gives, from the operands read, what to write
and count. -/
structure Work where
  /-- operand words read and their lengths -/
  reads : List (Nat × Nat)
  /-- output word and its length -/
  write : Option (Nat × Nat)
  compute : List Blob → Blob × TeCount

/-- The command fails under R131: a forecast stream emits nothing this frame, a host program ends with STATE. -/
def State.failed (s : State) (p : ProgRef) : State :=
  match s.progRun p with
  | some _ => s.endBad p stState
  | none => s

/-- The command memory that holds a program. -/
def State.codeArea (s : State) (p : ProgRef) (c : Nat) : Area :=
  match p with
  | .stream n => .program c (s.stream n).model
  | .host _ => .hostCode c
  | .ripen _ => .ripenCode c

/-- Read the program's next command from command memory; a batch reads it once (R149, R150, R213). -/
def State.fetch (s : State) (p : ProgRef) (c : Nat) (r : Run) : Got :=
  let x := s.codeArea p c
  let g := s.areaRead r c x (32 * r.index) 32 (fun s => s.loaded c r.secure x (fun o k => bytesAt r.image.prog o k))
  match p with
  | .stream n =>
    let key := (s.stream n).model
    if s.batchHas c r key 0 0 then { g with s := s } else { g with s := g.s.batchNote c r key 0 0 }
  | _ => g

/-- Words of the sequencer reserve, and of the cluster's control state, that a command finds damaged: it fails at an
uncorrectable one of the reserve, which is then rewritten, and one of the control state fences the cluster (R176, R213; log
entries 99 and 105). -/
def State.reserveRead (s : State) (c : Nat) : State × Bool :=
  let odd := s.oddWords (fun x => decide (x = .reserve c ∨ x = .control (c / 8))) 0 (2 ^ 20)
  if odd = [] then (s, true)
  else
    let s := odd.foldl (fun s w => s.sramVote w.1) s
    let met := odd.map (fun w => (w.1, s.sramMeets w.1))
    let bad := met.filter (fun m => decide (m.2 = some .bad))
    ((s.sramAct met).sramRewrite (bad.map (·.1)), bad.isEmpty)

/-- The command that a program issues next, where it may issue one: core, run and the 32 bytes.  A command that cannot be
read fails, and so does one past the program's last (R131, R213; log entry 99). -/
def State.issue (s : State) (p : ProgRef) : State × Option (Nat × Run × Blob) :=
  match s.progCore p, s.progRun p with
  | some c, some r =>
    if s.mayIssue p c r then
      let v := s.reserveRead c
      let g := v.1.fetch p c r
      if v.2 && g.ok && g.s.coreRunning c && decide (r.index < r.image.cmds) then (g.s, some (c, r, g.data))
      else ((g.s.failed p).settled, none)
    else (s, none)
  | _, _ => (s, none)

/-- 64-byte beats that a command writes to its stack: HOSTMEM, HISTORY, and OUTPUT of a ripening program (R158, R162). -/
def Run.beats (r : Run) (p : ProgRef) (cmd : Blob) (i n : Nat) : Nat :=
  let w := cmdWord cmd i
  match r.image.bufs[opBuf w]? with
  | none => 0
  | some b =>
    let ripens := match p with | .ripen _ => true | _ => false
    if n ≠ 0 ∧ (b.kind = 5 ∨ b.kind = 6 ∨ (b.kind = 4 ∧ ripens = true)) then
      let a := b.offset + opOff r.reg w
      (a + n - 1) / 64 - a / 64 + 1
    else 0

/-- A program waits for a credit: its items are counted once, at the toll's entry of OD 0x3210 (R163). -/
def State.awaitCredit (s : State) (p : ProgRef) (r : Run) (sub items : Nat) : State :=
  (if r.counted then s else s.count 0x3210 sub items).setRun p { r with tollWait := true, counted := true }

/-- A HINT with FLAG holds the program's MATMUL and VECTOR back until its lead has passed (R169). -/
def State.held (s : State) (r : Run) : Bool := decide (s.timeNs < r.hintHold)

/-- Write a command's result and count what it met; the program goes on. -/
def State.finishCommand (s : State) (p : ProgRef) (c : Nat) (r : Run) (cmd : Blob) (k : TeCount) (i n : Nat) (v : Blob) : State :=
  let x := s.result p c r cmd i n v
  if x.1.ok && x.1.s.coreRunning c then
    (((x.1.s.takeBeats p c (r.beats p cmd i n) r.counted).teCount p c k).goOn p c x.2 (r.index + 1)).settled
  else (x.1.s.failed p).settled

/-- Read the operands of a command in order. -/
def State.operands (s : State) (p : ProgRef) (c : Nat) (r : Run) (cmd : Blob) (reads : List (Nat × Nat)) :
    State × List Blob × Bool :=
  reads.foldl (fun (a : State × List Blob × Bool) x =>
    let g := a.1.operand p c r cmd x.1 x.2
    (g.s, a.2.1 ++ [g.data], a.2.2 && g.ok)) (s, [], true)

/-- Run a memory command that the sequencer has issued. -/
def State.runIssued (s : State) (p : ProgRef) (c : Nat) (r : Run) (cmd : Blob) (fx : ExecFx) (w : Work) : State :=
  if fx.residueFail then (s.fenceOne c 4).settled
  else
    let got := s.operands p c r cmd w.reads
    if !got.2.2 || !got.1.coreRunning c then (got.1.failed p).settled
    else
      let out := w.compute got.2.1
      match w.write with
      | none => (got.1.teCount p c out.2).goOn p c r (r.index + 1)
      | some (i, n) => got.1.finishCommand p c r cmd out.2 i n out.1

/-- Issue a memory command of opcode `op`. -/
def State.runCommand (s : State) (p : ProgRef) (op : Nat) (fx : ExecFx) (extra : Run → Blob → Bool)
    (work : TeMode → Run → Blob → Work) : State :=
  match (s.upsets fx.upsets).issue p with
  | (t, none) => t
  | (t, some (c, r, cmd)) =>
    let w := work (t.teMode p r) r cmd
    let beats := match w.write with | some (i, n) => r.beats p cmd i n | none => 0
    if cmdOp cmd ≠ op ∨ s.waitsForSeal r cmd ∨ (op ≤ 2 ∧ s.held r) then s.upsets fx.upsets
    else if !r.inBounds cmd || !extra r cmd then (t.boundsFault p c r).settled
    else if beats ≠ 0 ∧ s.hbmFull c then (s.upsets fx.upsets).awaitCredit p r 5 beats
    else t.runIssued p c r cmd fx w

/-- Issue a command that touches no buffer. -/
def State.plainCommand (s : State) (p : ProgRef) (op : Nat) (f : State → Nat → Run → Blob → State) : State :=
  match s.issue p with
  | (t, none) => t
  | (t, some (c, r, cmd)) => if cmdOp cmd ≠ op then s else f t c r cmd

/-! ## Commands -/

/-- NOP (R156): only the index advances. -/
def execNop (p : ProgRef) (s : State) : Out :=
  s.act (fun s => s.plainCommand p 0x00 (fun s c r _ => s.goOn p c r (r.index + 1)))

/-- MATMUL (R120 to R131). -/
def execMatmul (p : ProgRef) (fx : ExecFx) (s : State) : Out :=
  s.act (fun s => s.runCommand p 0x01 fx
    (fun r cmd => !decide (cmdFa cmd = 6) || decide (countOf r.reg (cmdWord cmd 5) % 16 = 0))
    (fun m r cmd =>
      let k := countOf r.reg (cmdWord cmd 5)
      let rows := countOf r.reg (cmdWord cmd 6)
      let cols := countOf r.reg (cmdWord cmd 7)
      let us := usesAt cmd r.reg
      { reads := (us.filter (fun u => !u.write)).map (fun u => (u.word, u.len)),
        write := if rows = 0 ∨ cols = 0 then none else some (3, rows * rowBytes (cmdFo cmd) cols),
        compute := fun d =>
          if rows = 0 ∨ cols = 0 then (0, {})
          else matmul m (cmdFa cmd) (cmdFb cmd) (cmdFo cmd) (cmdParam cmd 5) (cmdParam cmd 6) k rows cols
            (d.getD 0 0) (d.getD 1 0) (if cmdFlag cmd then d[2]? else none) }))

/-- VECTOR (R112, R126, R156).  DESIGN CHOICE (log entry 94): a reduction with group length 0, which makes no element operation and
writes nothing, reads its operand all the same. -/
def execVector (p : ProgRef) (fx : ExecFx) (s : State) : Out :=
  s.act (fun s => s.runCommand p 0x02 fx (fun _ _ => true)
    (fun m r cmd =>
      let n := countOf r.reg (cmdWord cmd 5)
      let len := countOf r.reg (cmdWord cmd 6)
      let sub := cmdSub cmd
      let u := vecUses sub
      { reads := [(1, rowBytes (cmdFa cmd) n), (2, if u.2.1 then rowBytes (cmdFb cmd) n else 0),
                  (4, if u.2.2 then rowBytes (cmdFo cmd) n else 0)],
        write := some (3, rowBytes (cmdFo cmd) (vecOut sub n len)),
        compute := fun d => vector m sub (cmdFa cmd) (cmdFb cmd) (cmdFo cmd) (cmdParam cmd 5) n len
          (d.getD 0 0) (d.getD 1 0) (d.getD 2 0) }))

/-- COPY (R156). -/
def execCopy (p : ProgRef) (fx : ExecFx) (s : State) : Out :=
  s.act (fun s => s.runCommand p 0x03 fx (fun _ _ => true)
    (fun _ r cmd =>
      let n := countOf r.reg (cmdWord cmd 5)
      { reads := [(1, n)], write := some (3, n), compute := fun d => (d.getD 0 0, {}) }))

/-- Length of GATHER's table: from its offset to the end of its buffer (R160). -/
def Run.tableLen (r : Run) (cmd : Blob) : Nat :=
  match r.image.bufs[opBuf (cmdWord cmd 1)]? with
  | some b => b.len - opOff r.reg (cmdWord cmd 1)
  | none => 0

/-- Read the rows of a table that the indices name, in order. -/
def State.rows (s : State) (p : ProgRef) (c : Nat) (r : Run) (kind base row : Nat) (idx : List Nat) :
    State × List Blob × Bool :=
  idx.foldl (fun (a : State × List Blob × Bool) i =>
    let g : Got := if row = 0 then ⟨a.1, 0, true⟩ else a.1.readArea p c r kind (base + i * row) row
    (g.s, a.2.1 ++ [g.data], a.2.2 && g.ok)) (s, [], true)

/-- Run a GATHER that the sequencer has issued: indices, then rows (R156, R160). -/
def State.gather (s : State) (p : ProgRef) (c : Nat) (r : Run) (cmd : Blob) : State :=
  let n := countOf r.reg (cmdWord cmd 5)
  let row := countOf r.reg (cmdWord cmd 6)
  let ix := s.operand p c r cmd 2 (4 * n)
  if !ix.ok || !ix.s.coreRunning c then (ix.s.failed p).settled
  else
    let idx := (upTo n).map (fun i => bytesAt ix.data (4 * i) 4)
    match r.image.bufs[opBuf (cmdWord cmd 1)]? with
    | none => s
    | some b =>
      if row ≠ 0 ∧ idx.any (fun i => decide (r.tableLen cmd / row ≤ i)) then (ix.s.boundsFault p c r).settled
      else
        let got := ix.s.rows p c r b.kind (b.offset + opOff r.reg (cmdWord cmd 1)) row idx
        if !got.2.2 || !got.1.coreRunning c then (got.1.failed p).settled
        else got.1.finishCommand p c r cmd {} 3 (n * row) (packBytes (got.2.1.map (fun d => (row, d))))

/-- GATHER. -/
def execGather (p : ProgRef) (fx : ExecFx) (s : State) : Out :=
  s.act (fun s =>
    match (s.upsets fx.upsets).issue p with
    | (t, none) => t
    | (t, some (c, r, cmd)) =>
      if cmdOp cmd ≠ 0x04 ∨ s.waitsForSeal r cmd then s.upsets fx.upsets
      else if !r.inBounds cmd then (t.boundsFault p c r).settled
      else
        let beats := r.beats p cmd 3 (countOf r.reg (cmdWord cmd 5) * countOf r.reg (cmdWord cmd 6))
        if beats ≠ 0 ∧ s.hbmFull c then (s.upsets fx.upsets).awaitCredit p r 5 beats
        else t.gather p c r cmd)

/-- SCALAR (R156): set, add, load or minimum. -/
def execScalar (p : ProgRef) (fx : ExecFx) (s : State) : Out :=
  s.act (fun s =>
    match (s.upsets fx.upsets).issue p with
    | (t, none) => t
    | (t, some (c, r, cmd)) =>
      let d := fld (cmdWord cmd 3) 0 4
      let imm := cmdWord cmd 2
      let put := fun (s : State) v => s.goOn p c { r with regs := tabPut 0 r.regs d v } (r.index + 1)
      if cmdOp cmd ≠ 0x05 ∨ s.waitsForSeal r cmd then s.upsets fx.upsets
      else if !r.inBounds cmd then (t.boundsFault p c r).settled
      else
        match cmdSub cmd with
        | 0 => put t imm
        | 1 => put t ((r.reg d + imm) % 2 ^ 32)
        | 2 =>
          let g := t.operand p c r cmd 1 4
          if !g.ok || !g.s.coreRunning c then (g.s.failed p).settled else put g.s g.data
        | _ => put t (min (r.reg d) imm))

/-- SKIP (R156): the next commands are passed over when the test holds. -/
def execSkip (p : ProgRef) (s : State) : Out :=
  s.act (fun s => s.plainCommand p 0x06 (fun s c r cmd =>
    let a := r.reg (fld (cmdWord cmd 1) 0 4)
    let imm := cmdWord cmd 2
    let taken := match cmdSub cmd with
      | 0 => decide (a = imm)
      | 1 => decide (a ≠ imm)
      | 2 => decide (a < imm)
      | _ => decide (imm ≤ a)
    s.goOn p c r (if taken then r.index + 1 + fld (cmdWord cmd 3) 0 8 else r.index + 1)))

/-- HINT (R169): a message through the toll, never waiting, one for a whole batch (R150); FLAG holds MATMUL and VECTOR for
the lead. -/
def execHint (p : ProgRef) (s : State) : Out :=
  s.act (fun s => s.plainCommand p 0x08 (fun s c r cmd =>
    let lead := fld (cmdWord cmd 1) 0 24
    let msg : HintMsg := { source := c, level := fld (cmdWord cmd 2) 0 16, lead := lead,
                           duration := fld (cmdWord cmd 3) 0 24, issued := s.timeNs, owner := some p }
    let s := if s.leads p c r then s.sendHint (c / 8) msg else s
    s.goOn p c { r with hintHold := if cmdFlag cmd then max r.hintHold (s.timeNs + lead) else r.hintHold } (r.index + 1)))

/-- FENCE (R165): reads and SRAM writes are complete when they act; the HBM scope waits for beats that wait for a credit, the
toll scope for its consumers. -/
def execFence (p : ProgRef) (s : State) : Out :=
  s.act (fun s => s.plainCommand p 0x09 (fun s c r cmd =>
    if (bitAt (cmdWord cmd 1) 2 && s.tollsPending p) || (bitAt (cmdWord cmd 1) 1 && s.writesPending p) then s.setRun p { r with fenceWait := true }
    else s.goOn p c r (r.index + 1)))

/-- Programs of a submission group, those that wait for their core among them. -/
def State.groupRuns (s : State) (g : Nat) : List (ProgRef × Run) :=
  ((s.te.host.filter (fun x => decide (x.2.group = g))).map (fun x => (ProgRef.host x.1, x.2))) ++
  ((s.te.ripen.filter (fun x => decide (x.2.group = g))).map (fun x => (ProgRef.ripen x.1, x.2))) ++
  ((s.te.ripenQ.filter (fun x => decide (x.2.group = g))).map (fun x => (ProgRef.ripen x.1, x.2)))

/-- Programs waiting at a barrier that every participant has reached go on (R166). -/
def State.releaseBarrier (s : State) (g i : Nat) : State :=
  (s.groupRuns g).foldl (fun s x =>
    let r : Run := x.2
    let among := fun (core : Nat) => decide (16 ≤ i) || decide (core / 8 = r.core / 8)
    let need := tabGet 0 r.arrivals i
    let all : Bool := (s.groupRuns g).all (fun y => !among y.2.core || decide (need ≤ tabGet 0 y.2.arrivals i)) &&
      r.gone.all (fun y => !among y.1 || decide (need ≤ tabGet 0 y.2 i))
    if r.barrier = some i ∧ r.status = 0 ∧ all
    then s.goOn x.1 r.core { r with barrier := none } (r.index + 1) else s) s

/-- BARRIER (R166, R167). -/
def execBarrier (p : ProgRef) (s : State) : Out :=
  s.act (fun s => s.plainCommand p 0x0A (fun s _ r cmd =>
    let i := fld (cmdWord cmd 1) 0 5
    if s.tollsPending p || s.writesPending p then s.setRun p { r with fenceWait := true }
    else
      let s := s.setRun p { r with arrivals := tabMod 0 r.arrivals i (· + 1), barrier := some i, fenceWait := false }
      if i ∈ r.broken then s.settled else (s.releaseBarrier r.group i).settled))

/-- 10 ms after a barrier's first arrival: it breaks for the program named and every participant (R167). -/
def execBarrierTimeout (p : ProgRef) (ident : Nat) (s : State) : Out :=
  s.act (fun s =>
    match s.progRun p with
    | none => s
    | some r =>
      if r.barrier ≠ some ident then s
      else
        let mark := fun (x : Run) =>
          if 16 ≤ ident ∨ x.core / 8 = r.core / 8 then { x with broken := ordInsert x.broken ident } else x
        ((s.fixGroup r.group r.core mark).setRun p (mark r)).settled)

/-- A step event of a result record (R228): the event, and whether it keeps R229. -/
def parseEvent (b : Blob) : Event × Bool :=
  let w := bytesAt b 0 4
  let e : Event := { ident := fld w 0 24, state := fld w 24 2, time := bytesAt b 4 4, change := q32Of (bytesAt b 8 8) }
  (e, decide (fld w 26 6 = 0 ∧ e.state ≠ 3 ∧ e.time ≤ 2000000000))

/-- The record that an EMIT of `n` bytes makes (R228, R229). -/
def resultOf (stream epoch frame n : Nat) (b : Blob) (second : Bool) : Result :=
  let evs := (upTo 4).map (fun i => parseEvent (bytesAt b (168 + 16 * i) 16))
  { stream := stream, epoch := epoch, frame := frame, bins := (upTo 21).map (fun i => q32Of (bytesAt b (8 * i) 8)),
    events := evs.map (·.1), whey := q32Of (bytesAt b 232 8),
    malformed := decide (n ≠ 240) || second || !(evs.all (·.2)) }

/-- EMIT (R162, R228): a result record to the merge, or a wait for a credit. -/
def execEmit (p : ProgRef) (fx : ExecFx) (s : State) : Out :=
  s.act (fun s =>
    match (s.upsets fx.upsets).issue p, p with
    | (t, some (c, r, cmd)), .stream n =>
      let len := countOf r.reg (cmdWord cmd 5)
      let key := 128 + c
      if cmdOp cmd ≠ 0x0B ∨ s.waitsForSeal r cmd then s.upsets fx.upsets
      else if !r.inBounds cmd then (t.boundsFault p c r).settled
      else if 16 ≤ tabGet 0 s.te.credits key then (s.upsets fx.upsets).awaitCredit p r 3 1
      else
        let g := t.operand p c r cmd 1 len
        if !g.ok || !g.s.coreRunning c then (g.s.failed p).settled
        else
          let rec_ := resultOf n r.epoch r.frame len g.data r.emitted
          let s := g.s
          let s := { s with te := { s.te with credits := tabMod 0 s.te.credits key (· + 1),
                                              emitQ := s.te.emitQ ++ [(c, rec_)] } }
          s.goOn p c { r with emitted := true } (r.index + 1)
    | (t, _), _ => t)

/-- END (R149, R191, R246). -/
def execProgEnd (p : ProgRef) (cycles : Nat) (s : State) : Out :=
  s.act (fun s => s.plainCommand p 0x0F (fun s c r _ =>
    match p with
    | .stream n => s.endStream n
    | .host _ =>
      let s := s.setCore c (fun k => { k with issuing := some p })
      ((s.setRun p { r with completed := r.completed + 1 }).endHost c stOk (cycles % 2 ^ 64)).settled
    | .ripen _ => (s.endRipen c true).settled))

/-- A lower-class command yields at its tile boundary while work of a higher class is ready, or in a slot that it may not
use, and resumes afterwards (R37, R133, R488). -/
def execTileYield (core : Nat) (s : State) : Out :=
  s.act (fun s =>
    let stops := ((tabFind s.te.host core).isSome && !s.classFree core (.host core)) ||
      ((tabFind s.te.ripen core).isSome && !s.classFree core (.ripen core))
    if s.coreRunning core then s.setCore core (fun k => { k with yielded := stops }) else s)

/-- A gated cluster with queued work resumes its clock (R135). -/
def execClusterWake (cluster : Nat) (s : State) : Out :=
  s.act (fun s =>
    if s.cd.running && !s.clusterIdle cluster then { s with te := { s.te with gated := setBit s.te.gated cluster false } }
    else s)

/-- Number of a toll in the table of R162. -/
def tollNo : Toll → Nat
  | .intake => 0 | .emitM => 1 | .mergeCe => 2 | .hint => 3 | .hbmWr => 4 | .load => 5

/-- Let the programs of a core that wait for a credit go on. -/
def State.endTollWait (s : State) (c : Nat) : State :=
  let free := fun (x : Nat × Run) => (x.1, if x.1 = c then { x.2 with tollWait := false } else x.2)
  let s := { s with te := { s.te with host := s.te.host.map free,
                                      ripen := s.te.ripen.map free } }
  (s.streamsOn c).foldl (fun s n => s.setStream n (fun t => { t with run := t.run.map (fun r => { r with tollWait := false }) })) s

/-- The oldest beat of a core that waits is issued: a credit has come back (R162, R163). -/
def State.sendBeat (s : State) (c : Nat) : State :=
  match s.te.beatsWait.find? (fun b => decide (b.core = c)) with
  | some b =>
    let rest := replaceFirst b (if b.waits ≤ 1 then [] else [{ b with waits := b.waits - 1 }]) s.te.beatsWait
    { s with te := { s.te with beatsWait := rest } }
  | none => s

/-- A consumer returns a credit of a toll, having finished with the item (R162). -/
def execTollCreditReturn (toll : Toll) (unit : Nat) (s : State) : Out :=
  s.act (fun s =>
    let key := tollNo toll * 128 + unit
    let free := { s with te := { s.te with credits := tabMod 0 s.te.credits key (· - 1) } }
    match toll with
    | .emitM => free.endTollWait unit
    | .hbmWr =>
      -- the oldest beat that waits is issued with the credit
      if s.te.beatsWait.any (fun b => decide (b.core = unit)) then s.sendBeat unit |>.settled
      else (free.endTollWait unit).settled
    | .intake => free.takeIntake unit
    | .load => s.returnCopy unit
    | .mergeCe | .hint => free)

/-- The sequencer watchdog: cause 2 (R137). -/
def execSequencerWatchdogExpiry (core : Nat) (s : State) : Out :=
  s.act (fun s => if s.cd.running && s.coreRunning core then (s.fenceOne core 2).settled else s)

end Sys2Proof.Machine
end

