-- ==== Sys2Proof/Machine/Merge.lean ====
section
/-! DEFINITION. The forecast merge: acceptance of result records, shelf events, the residual, the split and the merged
record (R188, R229 to R242, R248). -/

namespace Sys2Proof.Machine

open Sys2Proof

/-! ## Acceptance (R188, R229, R231) -/

/-- A result written into the merge store: its words are good again (R211, R248). -/
def State.storeResult (s : State) (n : Nat) (r : Result) : State :=
  let s := s.discardResult n
  { s with te := { s.te with store := tabInsert s.te.store n r } }

/-- Take the oldest result record of a core's toll. -/
def State.acceptResult (s : State) (core : Nat) : State :=
  match s.te.emitQ.find? (fun e => decide (e.1 = core)) with
  | none => s
  | some e =>
    let r := e.2
    let s := { s with te := { s.te with emitQ := s.te.emitQ.erase e } }
    let n := r.stream
    if r.epoch ≠ (s.stream n).epoch then (s.count (0x3700 + n) 5).count 0x3211 0
    else if r.malformed then s.count (0x3A00 + n) 4
    else
      let s := s.storeResult n r
      if r.frame < s.te.mergeStarted then s.count (0x3A00 + n) 3 else s

/-! ## Contributions (R231 to R233) -/

/-- The 256 bytes of a stored result (R228). -/
def Result.bytes (r : Result) : Blob :=
  packBytes ([(2, r.stream), (2, r.epoch), (4, 0), (8, r.frame)] ++ r.bins.map (fun q => (8, q32Raw q)) ++
    r.events.flatMap (fun e => [(4, e.ident + e.state <<< 24), (4, e.time), (8, q32Raw e.change)]) ++ [(8, q32Raw r.whey)])

/-- What the merge reads of a stored result: words whose valid bit is lost as zero, and words that the check code delivers
changed (R204, R207, R248). -/
def State.mergeRead (s : State) (n : Nat) (r : Result) : Result :=
  let mine := fun (a : Nat) => decide (a / 2 ^ 20 = n + 1)
  let errs := s.te.mergeMem.errs.filter (fun e => mine e.1 && !decide (e.1 ∈ s.te.mergeLost))
  let lost := s.te.mergeLost.filter mine
  if errs = [] ∧ lost = [] then r
  else
    let b := lost.foldl (fun (b : Blob) a => setBytes b (a % 2 ^ 20) 4 0) r.bytes
    let b := errs.foldl (fun (b : Blob) e => b ^^^ ((eccDecode e.2).residual <<< (8 * (e.1 % 2 ^ 20)))) b
    { resultOf n (bytesAt b 2 2) (bytesAt b 8 8) 240 (b >>> 128) false with stream := r.stream }

/-- Streams that contribute to merge frame `j`, with their results as the merge reads them. -/
def State.contributing (s : State) (j : Nat) : List (Nat × Result) :=
  (s.te.store.map (fun x => (x.1, s.mergeRead x.1 x.2))).filter (fun x =>
    let t := s.stream x.1
    t.loaded && t.slot.isSome && decide (x.2.frame ≤ j ∧ j ≤ x.2.frame + 7))

/-- Sum of a value over results. -/
def sumOver (l : List (Nat × Result)) (f : Result → Rat) : Rat := (l.map (fun x => f x.2)).foldl (· + ·) 0

/-- Bin `n` of a result. -/
def Result.bin (r : Result) (n : Nat) : Rat := q32Val (r.bins.getD n ⟨0, 0⟩)

/-- The announcements of one identifier: state, time in ns after the close of frame `j`, change. -/
def announcements (l : List (Nat × Result)) (j ident : Nat) : List (Nat × Int × Rat) :=
  l.flatMap (fun x => (x.2.events.filter (fun e => decide (e.ident = ident))).map (fun e =>
    (e.state, (e.time : Int) - 1000 * ((j : Int) - x.2.frame), q32Val e.change)))

/-- A shelf event: identifier, state, time, change. -/
structure Shelf where
  ident : Nat
  state : Nat
  time : Int
  change : Rat
  deriving DecidableEq, Repr

/-- Combine the announcements of one identifier. -/
def combine (ident : Nat) (a : List (Nat × Int × Rat)) : Shelf :=
  let mag := fun (l : List (Nat × Int × Rat)) => (l.map (fun x => absR x.2.2)).foldl (· + ·) (0 : Rat)
  let conf := a.filter (fun x => decide (x.1 = 1))
  { ident := ident, change := (a.map (fun x => x.2.2)).foldl (· + ·) (0 : Rat),
    time := (a.map (fun x => x.2.1)).foldl min ((a.map (fun x => x.2.1)).headD 0),
    state := if a.all (fun x => decide (x.1 = 2)) then 2
             else if conf ≠ [] ∧ mag a ≤ 2 * mag conf then 1 else 0 }

/-- Insert an event into a list in order of time, then identifier. -/
def eventInsert (e : Shelf) : List Shelf → List Shelf
  | [] => [e]
  | x :: t => if e.time < x.time ∨ (e.time = x.time ∧ e.ident < x.ident) then e :: x :: t else x :: eventInsert e t

/-- The 16 earliest shelf events still to come, earliest first (R233). -/
def shelfEvents (l : List (Nat × Result)) (j : Nat) : List Shelf :=
  let ids := (l.flatMap (fun x => (x.2.events.map (·.ident)).filter (· ≠ 0))).foldl ordInsert []
  (((ids.map (fun i => combine i (announcements l j i))).filter (fun e => decide (0 ≤ e.time))).foldl
    (fun t e => eventInsert e t) []).take 16

/-- Classify shelf events at their first appearance: an event is remembered, wherever it is absent from a merge frame, until
the time last announced for it has passed (R242). -/
def State.classify (s : State) (l : List (Nat × Result)) (j : Nat) (es : List Shelf) : State :=
  let newest := (l.map (fun x => x.2.frame)).foldl max 0
  let close := 1000 * (j + 1)
  let known := s.te.classified.filter (fun e => decide (close ≤ e.2))
  let s := { s with te := { s.te with classified := known } }
  es.foldl (fun s e =>
    let s := if (tabFind s.te.classified e.ident).isSome then s
      else
        let lead := e.time + 1000 * ((j : Int) - newest)
        s.count 0x3030 (if 16000 ≤ lead then 3 else if 12000 ≤ lead then 4 else 5)
    { s with te := { s.te with classified := tabInsert s.te.classified e.ident (close + e.time.toNat) } }) s

/-! ## The split (R236, R237) -/

/-- Upper end of horizon bin `n`, µs (R228). -/
def binEnd (n : Nat) : Nat := if n < 20 then 2 ^ (n + 1) else 2000000

/-- The mean of the forecast over `(0, W]`, each bin weighted by its overlap. -/
def windowMean (f : List Rat) (w : Nat) : Rat :=
  let lo := fun n => if n = 0 then 0 else binEnd (n - 1)
  ((upTo 21).map (fun n => f.getD n 0 * ((min (binEnd n) w - min (lo n) w : Nat) : Rat))).foldl (· + ·) 0 / (w : Rat)

/-- What the split computes, in per-unit. -/
structure Split where
  g : Rat := 0
  t : Rat := 0
  s0 : Rat := 0
  s1 : Rat := 0
  y0 : Rat := 0
  y1 : Rat := 0
  limited : Bool := false
  rampGiven : Bool := false
  step : Option Shelf := none
  deriving DecidableEq, Repr

/-- A power in W as per-unit of 1.0 MW. -/
def perUnit (w : Nat) : Rat := (w : Rat) / 1000000

/-- Storage limits of R236, never beyond R21 and R22, per-unit: discharge, charge. -/
def State.storageLimits (s : State) : Rat × Rat :=
  (perUnit (min s.se.disTotal s.swingFast), perUnit (min s.se.chgTotal s.swingFast))

/-- The split of a frame under profile `p`. -/
def State.split (s : State) (p : Nat) (f : List Rat) (c : Rat) (es : List Shelf) : Split :=
  let i := 0x3010 + p
  let ramp := (s.effv i 2 : Rat) / 1000 / 1000000
  let gain := (s.effv i 3 : Rat) / 1000000
  let gridLimit := s.gridLimitW / 1000000
  let fill := (s.odv 0x3003 1 : Rat) / 100
  let lim := s.storageLimits
  let dis := lim.1
  let chg := lim.2
  let prev := match s.te.gPrev with | some g => g | none => sigVal s.ce.kept.grid.value
  let f0 := f.getD 0 0
  let t := windowMean f (s.effv i 1) + gain * ((s.odv 0x3003 2 : Rat) - 100 * s.se.socBulk)
  let t := min (max t 0) gridLimit
  let g := prev + clampR (t - prev) (-ramp) ramp
  let g := min g gridLimit
  let y0 := min (fill * max 0 (g - f0)) c
  let s0 := f0 + y0 - g
  let beyond := decide (dis < s0 ∨ s0 < -chg)
  let s0' := if beyond then clampR s0 (-chg) dis else s0
  let g' := if beyond then min (f0 + y0 - s0') gridLimit else g
  let e := es.find? (fun e => decide (e.time ≤ 32000 ∧ e.state ≠ 2))
  match e with
  | some ev =>
    let y1 := min (fill * max 0 (g' - (f0 + ev.change))) c
    { g := g', t := t, s0 := s0', s1 := clampR (f0 + ev.change + y1 - g') (-chg) dis, y0 := y0, y1 := y1,
      limited := beyond, rampGiven := beyond, step := some ev }
  | none =>
    { g := g', t := t, s0 := s0', s1 := s0', y0 := y0, y1 := y0, limited := beyond, rampGiven := beyond }

/-- Level of a whey power. -/
def wheyLevel (y c : Rat) : Nat := if c = 0 then 0 else min 65535 (natRat (65535 * y / c))

/-- The whey entry of a contributing stream: level and start. -/
def Split.entry (x : Split) (c : Rat) : Nat × Nat :=
  match x.step with
  | some e =>
    if (e.change < 0 ∧ x.y1 ≠ x.y0) ∨ (0 < e.change ∧ x.y1 < x.y0) then (wheyLevel x.y1 c, e.time.toNat)
    else (wheyLevel x.y0 c, u32Max)
  | none => (wheyLevel x.y0 c, u32Max)

/-! ## The merge run (R230, R234, R235, R238, R248) -/

/-- The merge frame due: the oldest closed frame that has not been merged, and none older than the frame whose merged record
falls due now. -/
def State.mergeFrame (s : State) : Option Nat :=
  let j := max s.te.mergeNext (s.intake - 6)
  if s.intake ≤ j then none else some j

/-- Every stream that runs in frame `j` has had its result accepted or dropped, or has ended (R230). -/
def State.resultsIn (s : State) (j : Nat) : Bool :=
  !s.te.streams.any (fun p => match p.2.run with | some r => decide (r.frame = j) && !r.emitted | none => false) &&
  !s.te.emitQ.any (fun e => decide (e.2.frame = j))

/-- The merge run of frame `j` may start: 4 µs after its close, or with every result in (R230). -/
def State.mergeReady (s : State) (j : Nat) : Bool := decide (j + 5 ≤ s.intake) || s.resultsIn j

/-- Frames older than `j` that were never merged have run over; frame `j` starts (R230). -/
def State.mergeStart (s : State) (j : Nat) : State :=
  let s := if s.te.mergeNext < j then s.count 0x3030 2 (j - s.te.mergeNext) else s
  { s with te := { s.te with mergeNext := max s.te.mergeNext j, mergeStarted := max s.te.mergeStarted (j + 1) } }

/-- The merge run of frame `j` stops without emitting (R230, R248). -/
def State.mergeStop (s : State) (j : Nat) : State :=
  let s := s.count 0x3030 2
  { s with te := { s.te with mergeNext := j + 1 } }

/-- The address of a word of the merge store: of its program and state, or of a stream's result. -/
def mergeAddr (u : MergeUpset) : Nat := (match u.stream with | none => 0 | some n => n + 1) * 2 ^ 20 + 4 * u.word

/-- Upsets strike the merge store: its program and state, and the results that it holds. -/
def State.mergeStrike (s : State) (us : List MergeUpset) : State :=
  let held := us.filter (fun u => match u.stream with | some n => (tabFind s.te.store n).isSome | none => true)
  let m := held.foldl (fun (m : Mem) u =>
    { m with errs := tabMod 0 m.errs (mergeAddr u) (fun e => e ^^^ fld u.mask 0 39),
             votes := tabMod 0 m.votes (mergeAddr u / 4) (fun v => v ^^^ fld u.mask 39 3) }) s.te.mergeMem
  { s with te := { s.te with mergeMem := m } }

/-- The merge run compares the copies of the valid bits that have been struck (R207): a word whose majority changes becomes
invalid, or holds an open codeword again. -/
def State.mergeVote (s : State) : State :=
  s.te.mergeMem.votes.foldl (fun (s : State) v =>
    let a := 4 * v.1
    let m : Mem := s.te.mergeMem
    let m := { m with votes := tabErase m.votes v.1 }
    let s := { s with te := { s.te with mergeMem := m } }
    let s := if v.2 = 7 then s else s.disagreed 1
    if !outvoted v.2 then s
    else if a ∈ s.te.mergeLost then
      let m := { m with errs := tabPut 0 m.errs a (Config.strayWord a % 2 ^ 39) }
      { s with te := { s.te with mergeMem := m, mergeLost := s.te.mergeLost.filter (· ≠ a) } }
    else { s with te := { s.te with mergeLost := ordInsert s.te.mergeLost a } }) s

/-- The merge run reads its store: corrected words are counted, an uncorrectable one discards the result it belongs to, or
stops the run where it lies in the program or state; the second component says so (R248).  DESIGN CHOICE (log entry 106): a
word of the program or state that has lost its valid bit, and reads zero, stops the run too. -/
def State.mergeErrors (s : State) : State × Bool :=
  let met := s.te.mergeMem.errs.filter (fun e => decide (e.1 ∉ s.te.mergeLost))
  let lost := s.te.mergeLost.any (fun a => decide (a < 2 ^ 20))
  met.foldl (fun (x : State × Bool) e =>
    match eccDecode e.2 with
    | .clean _ => x
    | .corrected _ => (x.1.count 0x3030 10, x.2)
    | .bad =>
      let s := x.1.count 0x3030 11
      let d := s.draw
      let s := (d.2.logLimited 16 1024 0xA001 (packBytes [(8, d.1 % 2 ^ 64), (2, 0), (1, 2)])).raise irqMemory
      if e.1 < 2 ^ 20 then (s, true)
      else
        (s.discardResult (e.1 / 2 ^ 20 - 1), x.2)) (s, lost)

/-- The merged record of frame `j`. -/
def State.mergedRecord (s : State) (j : Nat) (l : List (Nat × Result)) (residual : Rat) (es : List Shelf) : Merged × Split :=
  let p := s.profile
  let f := (upTo 21).map (fun n => residual + sumOver l (fun r => r.bin n))
  let c := sumOver l (fun r => q32Val r.whey)
  let x : Split := if p < 3 then s.split p f c es else {}
  let missing := (s.te.streams.filter (fun t => t.2.loaded)).length - l.length
  let q := fun (v : Rat) => q32Mk v 30
  let whey : Tab (Nat × Nat) := l.map (fun r => (r.1, if p < 3 then x.entry c else (0, u32Max)))
  ({ frame := j, profile := p,
     flags := b2n (decide (p < 3)) + 2 * b2n (decide (0 < missing)) + 4 * b2n x.limited + 8 * b2n x.rampGiven,
     contributing := l.length, missing := missing, g := q x.g, t := q x.t, s0 := q x.s0, s1 := q x.s1,
     step := match x.step with | some e => e.ident | none => 0,
     stepTime := match x.step with | some e => e.time.toNat | none => 0,
     residual := q residual, f := f.map q, y0 := q x.y0,
     events := es.map (fun e => { ident := e.ident, state := e.state, time := e.time.toNat, change := q e.change }),
     whey := whey }, x)

/-- The residual of a merge frame: the load that the CE last measured less the forecast of the contributing streams, held
once no measurement has arrived for 3 Gangway frames (R232). -/
def State.residualOf (s : State) (l : List (Nat × Result)) : Rat :=
  match s.ce.toMerge with
  | some m => if s.te.noMeas < 3 then sigVal m - sumOver l (fun r => r.bin 0) else s.te.residual
  | none => s.te.residual

/-- The merge of frame `j` completes: its record enters the MERGE_CE toll. -/
def State.mergeEmit (s : State) (j : Nat) : State :=
  let l := s.contributing j
  let residual := s.residualOf l
  let es := shelfEvents l j
  let s := s.classify l j es
  let m := s.mergedRecord j l residual es
  let levels := fun n => (tabGet (0, u32Max) m.1.whey n).1
  let streams := tabMap ({} : Stream) id (s.te.streams.map (fun x => (x.1, { x.2 with whey := levels x.1 })))
  { s with te := { s.te with
    residual := residual, mergeNext := j + 1, gPrev := some m.2.g,
    mergeQ := s.te.mergeQ ++ [m.1], credits := tabMod 0 s.te.credits (2 * 128) (· + 1), streams := streams } }

/-- MERGE_RUN: a run that may start; it waits where the toll has no credit. -/
def State.mergeRun (s : State) (us : List MergeUpset) : State :=
  let s := s.mergeStrike us
  match s.mergeFrame with
  | none => s
  | some j =>
    if !s.cd.running || !s.mergeReady j then s
    else
      let waited := decide (j < s.te.mergeStarted)
      let e := (s.mergeStart j).mergeVote.mergeErrors
      if e.2 then e.1.mergeStop j
      else if 4 ≤ tabGet 0 s.te.credits (2 * 128) then (if waited then e.1 else e.1.count 0x3210 4)
      else e.1.mergeEmit j

/-- MERGE_OVERRUN (R230): 5 µs after the close of a frame, its run is not complete. -/
def State.mergeOverrun (s : State) : State :=
  match s.mergeFrame with
  | none => s
  | some j => if s.cd.running && decide (j + 6 ≤ s.intake) then (s.mergeStart j).mergeStop j else s

end Sys2Proof.Machine
end

