-- ==== Sys2Proof/Machine/Cells.lean ====
section
/-! DEFINITION. The cell monitoring ports: frames, sweeps, starting and losing a port, tap classification, the open-wire
test, substitution and the string check (R419 to R442). -/

namespace Sys2Proof.Machine

open Sys2Proof

/-! ## Ports -/

def State.port (s : State) (p : Nat) : Port := tabGet {} s.cells.ports p
def State.setPort (s : State) (p : Nat) (f : Port → Port) : State :=
  { s with cells := { s.cells with ports := tabMod {} s.cells.ports p f } }
def State.populated (s : State) (p : Nat) : Bool := bitAt (s.odv 0x5002 0) p
def State.populatedPorts (s : State) : List Nat := (upTo 32).filter s.populated


/-- The ports of the present sweep (R440): those populated when its SAMPLE went out. -/
def State.sweptPorts (s : State) : List Nat := (upTo 32).filter (fun p => bitAt s.cells.swept p)

/-- The configuration of a port as a SAMPLE sent now takes it (R440). -/
def State.portCfg (s : State) (p : Nat) : PortCfg :=
  { n := s.odv (0x5100 + p) 6, t := s.odv (0x5100 + p) 8, mode := s.odv (0x5100 + p) 1, window := s.odv (0x5100 + p) 2,
    chan := s.odv (0x5100 + p) 4, first := s.odv (0x5100 + p) 5, delta := s.odv 0x5003 1, tol := s.odv 0x5003 2 }

/-- Something is sent on a port only while its bit is set (R421). -/
def State.onLine (s : State) (p : Nat) (f : State → State) : State := if s.populated p then f s else s

/-- The module transmits on cell ports in this state (R421). -/
def State.sweeping (s : State) : Bool := holdsLeaseMode s.mode

/-- Log an event of a port or channel, at most one of a code per second (R441). -/
def State.cellLog (s : State) (event source : Nat) (params : Blob) : State := s.logLimited 1 source event params

/-- Send a frame on a port (R423): header, payload and CRC-16; `answered` commands wait for an answer. -/
def State.cellSend (s : State) (p typ len : Nat) (payload : Blob) (answered : Bool) : State :=
  let q := (s.port p).seq
  let crc := crc16 (3 + len) (packBytes [(1, typ), (1, q), (1, len), (len, payload)])
  let s := s.setPort p (fun o => { o with seq := (q + 1) % 256, waiting := if answered then some (typ, q) else o.waiting })
  (s.count (0x5100 + p) 11).emit (.cellFrame p typ q len payload crc)

/-- The sample instant of sweep `n` on a port, ns of module time (R427). -/
def State.sampleInstant (s : State) (p n : Nat) : Nat :=
  let t := 10000000 * n
  if s.odv (0x5100 + p) 1 = 1 then t
  else
    let a := s.odv (0x5100 + p) 9
    let period := if a = 0xFF then 4000 else 4000 * 2 ^ (s.effv (0x1340 + a) 4)
    let phase := if a = 0xFF then 0 else 16 * s.effv (0x1340 + a) 3
    let off := phase + 16 * s.odv (0x5100 + p) 10
    t + (((off : Int) - (t : Int)) % (period : Int)).toNat

/-- A tap was tested within the last 10 s, before sweep `n` (R435). -/
def Port.testedLately (o : Port) (k n : Nat) : Bool :=
  let t := tabGet 0 o.tested k
  decide (t ≠ 0 ∧ n < t - 1 + 1000)

/-- The next tap of the routine cycle at sweep `n` (R435).  DESIGN CHOICE (log entry 108): a tap that tested intact while it
was SUSPECT is not tested again within 10 s (R436), and the cycle passes it over for that time; with every tap passed over
the routine makes no test. -/
def Port.routineTap (o : Port) (cells n : Nat) : Option Nat :=
  ((upTo (cells + 1)).map (fun k => (o.nextRoutine + k) % (cells + 1))).find? (fun k =>
    let t := tabGet 0 o.spared k
    decide (t = 0 ∨ t - 1 + 1000 ≤ n))

/-- The tap that the SAMPLE of sweep `n` tests; 0xFF for none (R435). After a void test no tap is loaded until a sweep
without a load has delivered, the first that can be the reference of the test made again (R436; log entry 108). -/
def Port.chooseTap (o : Port) (cells n period : Nat) : Nat :=
  let taps := upTo (cells + 1)
  if o.voided then 0xFF
  else match taps.filter (fun k => bitAt o.suspects k && !o.testedLately k n) with
  | k :: _ => k
  | [] =>
    let due := decide (o.lastRoutine ≠ 0 ∧ o.lastRoutine - 1 + 100 * period / (cells + 1) ≤ n)
    match if due then o.routineTap cells n else none with
    | some k => k
    | none =>
      match taps.filter (fun k => bitAt o.openTaps k && !o.testedLately k n) with
      | k :: _ => k
      | [] => 0xFF

/-- Send SAMPLE (R426, R428): the delay runs from the last CRC bit, 11.2 µs after the frame starts, less the one-way
delay of the port, in units of 10 ns (log entry 10). -/
def State.sendSample (s : State) (p : Nat) : State := s.onLine p fun s =>
  let o := s.port p
  let n := s.cells.sweep
  let cells := s.odv (0x5100 + p) 6
  let tap := o.chooseTap cells n (s.odv 0x5003 3)
  let wait : Int := (s.sampleInstant p n : Int) - (s.timeNs + 11200 + o.delay : Nat)
  let units := (clampI (rneDiv wait 10) 0 500000).toNat
  let q := o.seq
  let s := s.cellSend p 3 6 (packBytes [(4, units), (1, tap), (1, 0)]) false
  s.setPort p (fun o => { o with sample := some (q, tap), sampleDue := false, cfg := s.portCfg p })

/-- CONFIGURE with the port's mode and window in 4 µs units (R424): it is no longer due, until its exchange fails. -/
def State.sendConfigure (s : State) (p : Nat) : State := s.onLine p fun s =>
  let mode := s.odv (0x5100 + p) 1
  let window := if mode = 1 then s.odv (0x5100 + p) 2 / 4 else 0
  let s := s.cellSend p 2 4 (packBytes [(1, mode), (1, 0), (2, window)]) true
  s.setPort p (fun o => { o with configure := false, configuredAt := s.intake })

/-- HELLO. -/
def State.sendHello (s : State) (p : Nat) : State := s.onLine p (fun s => s.cellSend p 1 0 0 true)

/-- READ. -/
def State.sendRead (s : State) (p : Nat) : State :=
  s.onLine p (fun s => (s.cellSend p 4 0 0 true).setPort p (fun o => { o with reads := o.reads + 1 }))

/-- The port enters STARTING (R430). -/
def State.portStart (s : State) (p : Nat) (greeted : Bool) : State :=
  s.setPort p (fun o => { o with st := 1, prev := o.st, greeted := greeted, configure := true, silent := 0, staleRun := 0,
                                 sample := none, data := none, sampleDue := false, waiting := none, med := none, voided := false })

/-- The port enters MISMATCH (R430), logged with the type, N and T that its board reported (R441). -/
def State.portMismatch (s : State) (p : Nat) : State :=
  let s := s.setPort p (fun o => { o with st := 3, sampleDue := false, sample := none })
  let o := s.port p
  s.cellLog 0x5104 p (packBytes [(1, p), (1, o.boardType), (1, o.boardN), (1, o.boardT)])

/-- The port is declared FAILED (R432). -/
def State.portFail (s : State) (p cause : Nat) : State :=
  let s := s.setPort p (fun o => { o with st := 4, sampleDue := false })
  (s.cellLog 0x5102 p (packBytes [(1, p), (1, cause)])).raise irqCell

/-- A board that has answered HELLO needs CONFIGURE before its next SAMPLE (R430, R431, R440). -/
def Port.configureDue (o : Port) : Bool := o.configure && (decide (o.st = 2) || (decide (o.st = 1) && o.greeted))

/-- Go on after an exchange where a SAMPLE waits for it: CONFIGURE as long as it is due, then the SAMPLE (R430). -/
def State.portGoOn (s : State) (p : Nat) : State :=
  let o := s.port p
  if !o.sampleDue then s else if o.configureDue then s.sendConfigure p else s.sendSample p

/-- An attempt has failed: the answer was missing (cause 1) or dropped (cause 2). READ is sent up to three more times
(R428); CONFIGURE is sent again before the next SAMPLE, so at once where one waits (R430; log entry 108). -/
def State.answerFailed (s : State) (p typ cause : Nat) : State :=
  let s := s.setPort p (fun o => { o with waiting := none, cause := cause, configure := o.configure || decide (typ = 2) })
  if typ = 4 then (if (s.port p).reads < 4 then s.sendRead p else s)
  else s.portGoOn p

/-- An answer that breaks R426 is dropped and counted. -/
def State.answerDropped (s : State) (p typ : Nat) : State :=
  (s.count (0x5100 + p) 12).answerFailed p typ 2

/-- The status that an answer brings: DUAL_MASTER is logged and raised at its onset (R424, R440). -/
def State.takeStatus (s : State) (p status : Nat) : State :=
  let onset := bitAt status 3 && !(s.port p).dual
  let s := s.setPort p (fun o => { o with status := status, dual := bitAt status 3 })
  if onset then (s.cellLog 0x5108 p p).raise irqCell else s

/-- The frame is the good answer of a type and length to the command the port waits for (R423, R426). -/
def State.answerGood (s : State) (p typ len : Nat) (f : CellFrame) : Bool :=
  match (s.port p).waiting with
  | some (c, q) =>
    decide (c + 0x80 = typ ∧ f.typ = typ ∧ f.len = len ∧ f.seq = q) &&
    decide (crc16 (3 + f.len) (packBytes [(1, f.typ), (1, f.seq), (1, f.len), (f.len, f.payload)]) = f.crc)
  | none => false

/-! ## Commands of a sweep -/

/-- SWEEP_SAMPLE (R428 step 1, R430, R440): the sweep of the nearest frame 2,500 n begins. -/
def State.sweepSample (s : State) : State :=
  let n := (s.frame + 625) / 2500
  let s := { s with cells := { s.cells with inSweep := true, sweep := n, swept := s.odv 0x5002 0, stringTol := s.odv 0x5003 4 } }
  (upTo 32).foldl (fun s p =>
    if !s.populated p then
      (if (s.port p).st = 0 then s else s.setPort p (fun _ => {}))
    else
      let s := if (s.port p).st = 0 then s.portStart p false else s
      let s := s.setPort p (fun o => { o with sample := none, data := none, reads := 0, cfg := s.portCfg p })
      let o := s.port p
      if o.st = 1 ∨ o.st = 2 then
        let s := s.setPort p (fun o => { o with sampleDue := true })
        if o.st = 1 ∧ !o.greeted then s.sendHello p else s.portGoOn p
      else s) s

/-- SWEEP_READ (R428 step 2): a SAMPLE that still waits for its exchange is not sent in this sweep any more (log
entry 108). -/
def State.sweepRead (s : State) : State :=
  let s := { s with cells := { s.cells with ports := tabMap {} (fun o => { o with sampleDue := false }) s.cells.ports } }
  s.populatedPorts.foldl (fun s p =>
    let o := s.port p
    if (o.st = 1 ∨ o.st = 2) ∧ o.sample ≠ none then (s.setPort p (fun o => { o with reads := 0 })).sendRead p else s) s

/-- CELL_ANSWER_TIMEOUT (R426). -/
def State.cellTimeout (s : State) (p : Nat) : State :=
  match (s.port p).waiting with
  | some (typ, _) => (s.count (0x5100 + p) 13).answerFailed p typ 1
  | none => s

/-- HELLO_ACK (R426, R430, R432). -/
def State.helloAck (s : State) (p : Nat) (f : CellFrame) : State :=
  match (s.port p).waiting with
  | some (1, _) =>
    if s.answerGood p 0x81 8 f then
      let typ := bytesAt f.payload 0 1
      let n := bytesAt f.payload 1 1
      let t := bytesAt f.payload 2 1
      let s := s.setPort p (fun o => { o with waiting := none, delay := (f.turnaround - 4000) / 2, firmware := bytesAt f.payload 4 2,
                                              boardType := typ, boardN := n, boardT := t })
      let s := s.takeStatus p (bytesAt f.payload 6 2)
      if typ = s.odv (0x5100 + p) 7 ∧ n = s.odv (0x5100 + p) 6 ∧ t = s.odv (0x5100 + p) 8 then
        let s := if (s.port p).st = 1 then s.setPort p (fun o => { o with greeted := true }) else s.portStart p true
        s.sendConfigure p
      else s.portMismatch p
    else s.answerDropped p 1
  | some (c, _) => s.answerDropped p c
  | none => s

/-- CONFIGURE_ACK (R430). -/
def State.configureAck (s : State) (p : Nat) (f : CellFrame) : State :=
  match (s.port p).waiting with
  | some (2, _) =>
    if s.answerGood p 0x82 2 f then
      let s := s.setPort p (fun o => { o with waiting := none })
      if f.payload % 65536 = 0 then s.portGoOn p
      else s.portMismatch p
    else s.answerDropped p 2
  | some (c, _) => s.answerDropped p c
  | none => s

/-- DATA (R424, R428, R431, R440). -/
def State.cellData (s : State) (p : Nat) (f : CellFrame) : State :=
  let o := s.port p
  match o.waiting with
  | some (4, _) =>
    if s.answerGood p 0x84 (8 + 2 * o.cfg.n + 2 * o.cfg.t) f then
      let status := bytesAt f.payload 2 2
      (s.setPort p (fun o => { o with waiting := none, data := some f.payload,
                                      configure := o.configure || bitAt status 4 })).takeStatus p status
    else s.answerDropped p 4
  | some (c, _) => s.answerDropped p c
  | none => s

/-! ## Evaluation at the close -/

/-- Insert into a rising list. -/
def ratInsert (x : Rat) : List Rat → List Rat
  | [] => [x]
  | y :: t => if x ≤ y then x :: y :: t else y :: ratInsert x t

/-- Sort rising. -/
def ratSort : List Rat → List Rat
  | [] => []
  | x :: t => ratInsert x (ratSort t)

/-- The median, exact mean of the two middle values where their number is even. -/
def median (l : List Rat) : Rat :=
  let m := ratSort l
  let n := m.length
  if n % 2 = 1 then m.getD (n / 2) 0 else (m.getD (n / 2 - 1) 0 + m.getD (n / 2) 0) / 2


/-- The quantities of R433 in units of 200 µV. -/
structure TapView where
  c : List Int
  med : Rat
  diff : Rat
  delta : Rat
  tau : Rat
  deriving DecidableEq, Repr

/-- Deviation of cell `k` from the median, counted from 1. -/
def TapView.d (v : TapView) (k : Nat) : Rat := (v.c.getD (k - 1) 0 : Rat) - v.med

/-- Taps that rule 1 of R434 makes suspect. -/
def TapView.inner (v : TapView) : List Nat :=
  if absR v.diff ≤ v.tau then
    ((upTo v.c.length).filter (fun k => decide (1 ≤ k ∧ v.delta ≤ v.d k ∧ v.d (k + 1) ≤ -v.delta ∧
      absR (v.d k + v.d (k + 1)) ≤ 50 + absR (v.d k) / 10)))
  else []

/-- Taps that rule 2 of R434 makes suspect. -/
def TapView.ends (v : TapView) : List Nat :=
  if v.tau < absR v.diff then
    (if absR (v.diff - v.d 1) ≤ v.tau then [0] else []) ++
    (if absR (v.diff - v.d v.c.length) ≤ v.tau then [v.c.length] else [])
  else []

/-- The outcome of R434 for a board: suspect taps, block sense fault, deviating cells. -/
def TapView.classify (v : TapView) : List Nat × Bool × List Nat :=
  let n := v.c.length
  let beyond := decide (v.tau < absR v.diff)
  if n < 4 then ([], beyond, [])
  else if v.inner ≠ [] then (v.inner, false, [])
  else if v.ends ≠ [] then (v.ends, false, [])
  else if beyond then ([], true, [])
  else ([], false, ((upTo n).map (· + 1)).filter (fun k => decide (v.delta ≤ absR (v.d k))))

/-- Cells across the test load of tap `k` (R435). -/
def testedCells (k n : Nat) : List Nat :=
  if k = 0xFF then [] else (if k = 0 then [1] else if k + 1 ≤ n then [k, k + 1] else [k])

/-- The first tap at or above `k` that is intact, or none up to `n`. -/
def intactFrom (bad : Nat → Bool) (n : Nat) : Nat → Nat → Option Nat
  | 0, _ => none
  | fuel + 1, k => if n < k then none else if bad k then intactFrom bad n fuel (k + 1) else some k

/-- The last tap at or below `k` that is intact. -/
def intactBelow (bad : Nat → Bool) : Nat → Option Nat
  | 0 => if bad 0 then none else some 0
  | k + 1 => if bad (k + 1) then intactBelow bad k else some (k + 1)

/-- Sum of raw readings `a + 1` to `b`. -/
def sumCells (c : List Int) (a b : Nat) : Int := ((c.take b).drop a).foldl (· + ·) 0

/-- The substituted value of cell `i` (R437): none when its taps are both intact; `some none` when it has no value. -/
def substitute (c : List Int) (bad : Nat → Bool) (block : Option Rat) (i : Nat) : Option (Option Int) :=
  let n := c.length
  if !bad (i - 1) && !bad i then none
  else
    match intactBelow bad (i - 1), intactFrom bad n (n + 1) i with
    | some a, some b => some (some (rneRat ((sumCells c a b : Rat) / ((b - a : Nat) : Rat))))
    | lo, hi =>
      let a := lo.getD 0
      let b := hi.getD n
      match block with
      | some blk => some (some (rneRat ((blk - ((sumCells c 0 n - sumCells c a b : Int) : Rat)) / ((b - a : Nat) : Rat))))
      | none => some none

/-- Publish a delivered board (R429, R433 to R438). -/
def State.deliver (s : State) (p : Nat) (payload : Blob) (tap : Nat) : State :=
  let o := s.port p
  let n := o.cfg.n
  let c := (upTo n).map (fun i => signed 16 (bytesAt payload (8 + 2 * i) 2))
  let temps := (upTo o.cfg.t).map (fun i => signed 16 (bytesAt payload (8 + 2 * n + 2 * i) 2))
  let block := bytesAt payload 4 4
  let blockU : Rat := (block : Rat) / 2
  let sum : Int := c.foldl (· + ·) 0
  let view : TapView :=
    { c := c, med := if n = 0 then 0 else median (c.map (fun (x : Int) => (x : Rat))), diff := (sum : Rat) - blockU,
      delta := 5 * (o.cfg.delta : Rat), tau := 5 * ((o.cfg.tol : Rat) * (n : Rat) + 20) }
  let first := decide (o.st = 1)
  let med0 := if first then none else o.med
  let sweep := s.cells.sweep
  -- the open-wire test
  let j := if tap = 0 then 1 else tap
  let loaded := c.getD (j - 1) 0
  let judged : Option Bool :=
    if tap = 0xFF then none else med0.map (fun m => decide ((loaded : Rat) ≤ m / 2))
  let wasOpen := bitAt o.openTaps tap
  let wasSuspect := bitAt o.suspects tap
  let routine := o.routineTap n sweep
  let pattern := if tap = 0xFF then view.classify else ([], o.blockSense, [])
  let openA := if judged = some true then setBit o.openTaps tap true else o.openTaps
  let suspA := if judged = none then o.suspects else setBit o.suspects tap false
  let suspB := pattern.1.foldl (fun m k => if bitAt openA k then m else setBit m k true) suspA
  let clearA := match judged with
    | some true => tabPut 0 o.clearing tap 0
    | some false => if wasOpen then tabPut 0 o.clearing tap 11 else o.clearing
    | none => o.clearing
  -- patterns on a clearing tap end its clearing; every other close counts
  let clearB := tabMap 0 (fun x => x) ((clearA.map (fun q => (q.1, if q.1 ∈ pattern.1 then 0 else q.2 - 1))))
  let cleared := (clearA.filter (fun q => decide (q.1 ∉ pattern.1 ∧ q.2 = 1))).map (·.1)
  let openB := cleared.foldl (fun m k => setBit m k false) openA
  let blockSense := if tap = 0xFF then
      (if view.tau < absR view.diff then o.blockSense || pattern.2.1 else false) else o.blockSense
  let bad (k : Nat) : Bool := bitAt openB k || decide (k = tap)
  let blockV := if blockSense then none else some blockU
  let subsV := (upTo n).map (fun i => substitute c bad blockV (i + 1))
  let touched := (subsV.filter (fun x => decide (x ≠ none))).length
  let unusable := decide (4 < touched)
  let testing := testedCells tap n
  let flags := (upTo n).map (fun i =>
    let k := i + 1
    let opn := bitAt openB i || bitAt openB k
    b2n (unusable || opn || decide (subsV.getD i none = some none)) + 4 * b2n opn +
    8 * b2n (bitAt suspB i || bitAt suspB k) + 16 * b2n (decide (k ∈ testing)) +
    32 * b2n (decide (k ∈ pattern.2.2)) +
    64 * b2n (!unusable && (match subsV.getD i none with | some (some _) => true | _ => false)))
  let values := (upTo n).map (fun i =>
    match unusable, subsV.getD i none with
    | false, some (some v) => v
    | _, _ => c.getD i 0)
  let s := s.setPort p (fun o => { o with
    st := 2, values := values, raw := c, flags := flags, block := block, temps := temps, sweep := sweep,
    openTaps := openB, suspects := suspB, blockSense := blockSense, unusable := unusable,
    med := if tap = 0xFF then some view.med else med0,
    voided := decide (tap ≠ 0xFF ∧ judged = none),
    dualShown := o.dual,
    refRaw := if tap = 0xFF then c else o.refRaw,
    tested := if judged = none then o.tested else tabPut 0 o.tested tap (sweep + 1),
    spared := if judged = some false ∧ wasSuspect then tabPut 0 o.spared tap (sweep + 1) else o.spared,
    nextRoutine := if judged ≠ none ∧ routine = some tap then (tap + 1) % (n + 1) else o.nextRoutine,
    lastRoutine := if first then sweep + 1
      else if judged ≠ none ∧ routine = some tap then sweep + 1 else o.lastRoutine,
    clearing := clearB, silent := 0, staleRun := 0 })
  let s := if judged = some true then
      let d := rneRat ((o.refRaw.getD (j - 1) 0 : Rat) - med0.getD 0)
      ((s.count (0x5100 + p) 15).cellLog 0x5105 p
        (packBytes [(1, p), (1, tap), (2, unsigned 16 (clampI d (-32768) 32767)), (2, unsigned 16 loaded)])).raise irqCell
    else s
  let s := if judged = some false ∧ wasSuspect then s.count (0x5100 + p) 16 else s
  let s := cleared.foldl (fun s k => (s.cellLog 0x5106 p (packBytes [(1, p), (1, k)])).raise irqCell) s
  if first ∧ (o.prev = 3 ∨ o.prev = 4) then (s.cellLog 0x5103 p (packBytes [(1, p), (1, o.prev)])).raise irqCell else s

/-- The averaging window of this sweep began before the CONFIGURE that set it up (R430). -/
def State.windowEarly (s : State) (p : Nat) : Bool :=
  let o := s.port p
  decide (o.cfg.mode = 1 ∧ 10000 * s.cells.sweep < o.cfg.window + o.configuredAt)

/-- The cell flags of a port that did not deliver: STALE on each of its cells, also before its first delivery (R429). -/
def Port.staleFlags (o : Port) : List Nat :=
  (upTo (max o.cfg.n o.flags.length)).map (fun i => o.flags.getD i 0 ||| 2)

/-- One port at the close (R428 step 4, R430 to R432). -/
def State.closePort (s : State) (p : Nat) : State :=
  let o := s.port p
  let delivers : Option (Blob × Nat) :=
    if o.st = 1 ∨ o.st = 2 then
      match o.sample, o.data with
      | some (q, tap), some d =>
        if bytesAt d 0 1 = q ∧ bytesAt d 1 1 = tap ∧ !bitAt (bytesAt d 2 2) 0 ∧ !bitAt (bytesAt d 2 2) 4 ∧
          !s.windowEarly p then some (d, tap) else none
      | _, _ => none
    else none
  match delivers with
  | some (d, tap) => s.deliver p d tap
  | none =>
    let cause := match o.data with
      | some d => if bitAt (bytesAt d 2 2) 4 then 3 else if bitAt (bytesAt d 2 2) 0 then 4 else o.cause
      | none => o.cause
    let s := s.count (0x5100 + p) 14
    let s := s.setPort p (fun o => { o with flags := o.staleFlags, dualShown := o.dual })
    if o.st = 2 then
      if s.windowEarly p then s
      else
        let s := s.setPort p (fun o => { o with staleRun := o.staleRun + 1 })
        let s := if o.staleRun = 0 then s.cellLog 0x5101 p (packBytes [(1, p), (1, cause)]) else s
        if o.staleRun = 2 then s.portFail p cause else s
    else if o.st = 1 ∧ !o.greeted then
      let s := s.setPort p (fun o => { o with silent := o.silent + 1 })
      if o.silent = 2 then s.portFail p cause else s
    else s

/-- The port delivered in this sweep. -/
def State.fresh (s : State) (p : Nat) : Bool :=
  decide ((s.port p).st = 2 ∧ (s.port p).sweep = s.cells.sweep ∧ (s.port p).staleRun = 0)

/-- The ports of a storage channel in the present sweep (R440, R443). -/
def State.portsOf (s : State) (ch : Nat) : List Nat :=
  s.sweptPorts.filter (fun p => decide ((s.port p).cfg.chan = ch))

/-- The string check of one channel (R439). -/
def State.stringCheck (s : State) (ch : Nat) : State :=
  let ports := s.portsOf ch
  let convs := s.convsOf ch
  if !s.served ch || convs = [] || ports = [] || ports.any (fun p => !s.fresh p || (s.port p).blockSense) then s
  else
    let sum := (ports.map (fun p => (s.port p).block)).sum
    let mean : Rat := ((convs.map (fun a => s.word a 3)).sum : Rat) * 1000 / (convs.length : Rat)
    let conv := natRat mean
    let beyond := decide (mean * (s.cells.stringTol : Rat) / 1000 + 20000 < absR ((sum : Rat) - mean))
    let s := if beyond then s.count (0x5400 + ch) 4 else s
    let o := if beyond then tabGet 0 s.cells.overRun ch + 1 else 0
    let k := if beyond then 0 else tabGet 0 s.cells.okRun ch + 1
    let s := { s with cells := { s.cells with sums := tabPut 0 s.cells.sums ch sum, convs := tabPut 0 s.cells.convs ch conv,
                                              overRun := tabPut 0 s.cells.overRun ch o, okRun := tabPut 0 s.cells.okRun ch k } }
    let isSet := bitAt s.cells.stringSum ch
    if 3 ≤ o ∧ !isSet then
      let s := { s with cells := { s.cells with stringSum := setBit s.cells.stringSum ch true } }
      (s.cellLog 0x5107 ch (packBytes [(1, ch), (1, 1), (4, sum), (4, conv)])).raise irqCell
    else if 10 ≤ k ∧ isSet then
      let s := { s with cells := { s.cells with stringSum := setBit s.cells.stringSum ch false } }
      s.cellLog 0x5107 ch (packBytes [(1, ch), (1, 0), (4, sum), (4, conv)])
    else s

/-- The sweep closes (R428 to R432, R439): the cell part. -/
def State.sweepCloseCells (s : State) : State :=
  let ports := s.sweptPorts
  let before := ports.any (fun p => decide ((s.port p).st ≠ 2))
  let s := ports.foldl (fun s p => s.closePort p) s
  let incomplete := before || ports.any (fun p => !s.fresh p)
  let s := s.count 0x5001 1
  let s := if incomplete then s.count 0x5001 3 else s
  let s := { s with cells := { s.cells with lastResult := b2n incomplete, inSweep := false } }
  (upTo 8).foldl (fun s ch => s.stringCheck ch) s

/-- PORT_RETRY (R432): HELLO on a FAILED or MISMATCH port. -/
def State.portRetry (s : State) (p : Nat) : State :=
  let o := s.port p
  if s.populated p ∧ (o.st = 3 ∨ o.st = 4) then s.sendHello p else s

/-- Ports on entry to TAKEOVER: every populated port enters STARTING (R430). -/
def State.cellsTakeover (s : State) : State := s.populatedPorts.foldl (fun s p => s.portStart p false) s

/-- The sweep in progress is abandoned (R440), at a lease loss. -/
def State.cellsAbandon (s : State) : State :=
  let ports := tabMap {} (fun o => { o with waiting := none, sample := none, data := none, sampleDue := false })
    s.cells.ports
  { s with cells := { s.cells with inSweep := false, ports := ports } }

/-- A write to a port's mode, window, reference node or offset asks for CONFIGURE before the next SAMPLE (R440). -/
def State.portConfigChanged (s : State) (p sub : Nat) : State :=
  if sub ∈ [1, 2, 9, 10] ∧ ((s.port p).st = 1 ∨ (s.port p).st = 2) then s.setPort p (fun o => { o with configure := true }) else s

/-- A write of the population, in place of `old`: a port whose bit becomes set enters STARTING (R430). -/
def State.cellPopulationChanged (s : State) (old : Nat) : State :=
  s.populatedPorts.foldl (fun s p => if bitAt old p then s else s.portStart p false) s

/-- Ports FAILED, OD 0x5001.05. -/
def State.failedPorts (s : State) : Nat := maskOf 32 (fun p => decide ((s.port p).st = 4))

/-- I16 items of a BLOB. -/
def itemsI16 (l : List Int) : Blob := itemBytes 2 (l.map (unsigned 16))

end Sys2Proof.Machine
end

