-- ==== Sys2Proof/Machine/Se.lean ====
section
/-! DEFINITION. Storage state estimation: charge counting, the charge scale, full and cutoff, learned values, rest and
recalibration, limits, and the SE record (R443 to R468). -/

namespace Sys2Proof.Machine

open Sys2Proof

/-! ## Channels -/

def State.chan (s : State) (ch : Nat) : SeChan := tabGet {} s.se.chans ch
def State.setChan (s : State) (ch : Nat) (f : SeChan → SeChan) : State :=
  { s with se := { s.se with chans := tabMod {} s.se.chans ch f } }

/-- Channel class in effect (R443): a change of OD 0x6100 + ch .01 takes effect at the next sweep close (R466). -/
def State.chClass (s : State) (ch : Nat) : Nat := (s.chan ch).cls
def State.chUsed (s : State) (ch : Nat) : Bool := decide (s.chClass ch = 1 ∨ s.chClass ch = 2)

/-- Log an event of a channel, at most one of a code per second, and raise STORAGE (R467). -/
def State.seLog (s : State) (event ch : Nat) (params : Blob) : State :=
  (s.logLimited 1 ch event params).raise irqStorage

/-- A trigger of the SE record (R462): merged into one pending write. -/
def State.seTrigger (s : State) : State := { s with se := { s.se with pending := true } }

/-! ## Counting charge (R445 to R448) -/

/-- Two's complement of 64 bits. -/
def wrap64 (x : Int) : Int := signed 64 (unsigned 64 x)

/-- The integrator adds `d` µC, and Q falls by it. -/
def State.addCharge (s : State) (ch : Nat) (d : Int) : State :=
  s.setChan ch (fun c => { c with integ := wrap64 (c.integ + d), q := c.q - d })

/-- One bit of a current-sense bitstream (R64, R445). -/
def State.senseBit (s : State) (ch : Nat) (bit : Bool) : State :=
  if (s.chan ch).csLost then s
  else
    let f : Int := s.odv (0x6100 + ch) 5
    let d := if bit then f else -f
    (s.addCharge ch d).setChan ch (fun c => { c with bits := c.bits + d })

/-- Offset trim, mA. -/
def State.trim (s : State) (ch : Nat) : Int := signed 32 (s.odv (0x6100 + ch) 0x18)

/-- The 1 ms step of the offset trim (R445). -/
def State.trimTick (s : State) : State := (upTo 8).foldl (fun s ch => s.addCharge ch (-(s.trim ch))) s

/-- The conditions of R450 at one instant. -/
def State.fullNow (s : State) (ch : Nat) : Bool :=
  let c := s.chan ch
  s.chUsed ch && decide (c.current < 0 ∧ -c.current ≤ ((s.odv (0x6100 + ch) 0x0B % 65536 : Nat) : Rat) / 10) &&
  (match c.vHigh with | some v => decide ((s.odv (0x6100 + ch) 0x0A : Rat) ≤ v) | none => false) && !c.csLost

/-- The window of R450: it runs while the conditions hold, and any interruption restarts it. They are looked at where
current or cell values change: at each snapshot and each close (log entry 109). -/
def State.fullWatch (s : State) (ch : Nat) : State :=
  let since := if s.fullNow ch then some ((s.chan ch).fullSince.getD s.intake) else none
  if since = (s.chan ch).fullSince then s else s.setChan ch (fun c => { c with fullSince := since })

/-- The channel currents at a snapshot (R446). -/
def State.senseCurrents (s : State) : State :=
  (upTo 8).foldl (fun s ch =>
    let c := s.chan ch
    let i : Rat := ((c.bits - c.bitHist.getD 63 0 : Int) : Rat) / 256 - (s.trim ch : Rat) / 1000
    (s.setChan ch (fun c => { c with current := i, bitHist := (c.bits :: c.bitHist).take 64 })).fullWatch ch) s

/-- The estimated current of a channel that has lost its port, A (R447). -/
def State.estimatedCurrent (s : State) (ch : Nat) : Rat :=
  if s.served ch then
    (((s.convsOf ch).map (fun a => signed 16 (s.word a 4))).foldl (· + ·) 0 : Int) * 5 / 100
  else (s.chan ch).held

/-- The frame's estimated charge of every lost channel (R447; log entry 11). -/
def State.lostCharge (s : State) : State :=
  (upTo 8).foldl (fun s ch =>
    if (s.chan ch).csLost then
      (s.addCharge ch (rneRat (4 * s.estimatedCurrent ch))).setChan ch
        (fun c => { c with estTime := sat64 c.estTime 4, lossTime := sat32 c.lossTime 4 })
    else s) s

/-- CS_LOST (R65, R447). -/
def State.csLost (s : State) (ch : Nat) : State :=
  if (s.chan ch).csLost then s
  else
    let s := s.setChan ch (fun c => { c with csLost := true, countEst := true, held := c.current, lossTime := 0, fullSince := none,
                                             clean := false })
    s.seLog 0x6106 ch (packBytes [(1, ch), (1, 1), (2, 0), (4, 0)])

/-- The return of the port (R65, R447). -/
def State.csReturn (s : State) (ch : Nat) : State :=
  let c := s.chan ch
  if c.csLost then
    let s := s.setChan ch (fun c => { c with csLost := false })
    s.seLog 0x6106 ch (packBytes [(1, ch), (1, 0), (2, 0), (4, c.lossTime)])
  else s

/-! ## The charge scale (R449) -/

/-- The OCV table, mV. -/
def State.ocv (s : State) (ch : Nat) : List Nat :=
  let b := s.odv (0x6100 + ch) 0x14
  (upTo 21).map (item 2 b)

/-- Linear interpolation of the table from index `i`: rested cell voltage to Q / C. -/
def ocvSearch : List Nat → Nat → Rat → Rat
  | a :: b :: t, i, v =>
    if v ≤ (b : Rat) then ((i : Rat) + (v - a) / ((b : Rat) - a)) * 5 / 100 else ocvSearch (b :: t) (i + 1) v
  | _, _, _ => 1

/-- OCV⁻¹ of a voltage in mV: 0 below the first point, 1 above the last. -/
def State.ocvInv (s : State) (ch : Nat) (v : Rat) : Rat :=
  let l := s.ocv ch
  if v < (l.getD 0 0 : Rat) then 0 else ocvSearch l 0 v

/-- Capacity C, 0.1 C. -/
def State.capacity (s : State) (ch : Nat) : Nat := (s.chan ch).cap.getD (s.odv (0x6100 + ch) 6)

/-- C in µC. -/
def State.capMicro (s : State) (ch : Nat) : Rat := (s.capacity ch : Rat) * 100000

/-- Learned resistance r, µΩ per cell. -/
def State.resist (s : State) (ch : Nat) : Rat := (s.chan ch).res.getD (s.odv (0x6100 + ch) 7 : Rat)

/-- Voltage of a current over the cell resistance, mV. -/
def State.dropMv (s : State) (ch : Nat) (amps : Rat) : Rat := amps * s.resist ch / 1000

/-- Q_zero, µC. -/
def State.qZero (s : State) (ch : Nat) : Rat :=
  s.capMicro ch *
    s.ocvInv ch ((s.odv (0x6100 + ch) 8 : Rat) + s.dropMv ch (s.odv (0x6100 + ch) 0x0D : Rat))

/-- Q_base, µC. -/
def State.qBase (s : State) (ch : Nat) : Rat :=
  let z := s.qZero ch
  if s.chClass ch = 2 then z + (s.odv (0x6100 + ch) 0x12 : Rat) / 1000 * (s.capMicro ch - z) else z

/-- A ratio; open where the span is zero (log entry 12). -/
def share (x span : Rat) : Rat := if span = 0 then Config.openShare x span else x / span

/-- The reported state of charge, 0 to 1. -/
def State.soc (s : State) (ch : Nat) : Rat :=
  clampR (share ((((s.chan ch).q : Int) : Rat) - s.qBase ch) (s.capMicro ch - s.qBase ch)) 0 1

/-- Set or clear RESERVE_REACHED of a reserved channel (R449). -/
def State.reserveCheck (s : State) (ch : Nat) : State :=
  if s.chClass ch = 2 then
    let c := s.chan ch
    let v := s.soc ch
    if !c.reserve && decide (v ≤ 0) then
      (s.setChan ch (fun c => { c with reserve := true })).seLog 0x6109 ch (packBytes [(1, ch), (1, 1)])
    else if c.reserve && decide ((2 : Rat) / 100 ≤ v) then
      (s.setChan ch (fun c => { c with reserve := false })).seLog 0x6109 ch (packBytes [(1, ch), (1, 0)])
    else s
  else if (s.chan ch).reserve then
    (s.setChan ch (fun c => { c with reserve := false })).seLog 0x6109 ch (packBytes [(1, ch), (1, 0)])
  else s

/-! ## Full (R450) -/

/-- The conditions have held for the taper time OD 0x6100 + ch .0B, s. -/
def State.taperDone (s : State) (ch : Nat) : Bool :=
  match (s.chan ch).fullSince with
  | some t => decide (t + 1000000 * (s.odv (0x6100 + ch) 0x0B / 65536) ≤ s.intake)
  | none => false

/-- FULL_DETECT: the conditions have held for the taper time. -/
def State.fullDetect (s : State) (ch : Nat) : State :=
  if s.fullNow ch && s.taperDone ch && !(s.chan ch).full then
    let cap := s.capacity ch
    let s := s.setChan ch (fun c => { c with full := true, q := (cap : Int) * 100000, anchor := some c.integ,
                                             anchored := true, clean := true })
    (s.seLog 0x6101 ch (packBytes [(1, ch), (3, 0), (4, cap)])).seTrigger
  else s

/-- FULL clears after a net 2 % of C (R450). -/
def State.fullClear (s : State) (ch : Nat) : State :=
  let c := s.chan ch
  match c.full, c.anchor with
  | true, some a =>
    if s.capMicro ch * 2 / 100 ≤ ((wrap64 (c.integ - a) : Int) : Rat) then s.setChan ch (fun c => { c with full := false })
    else s
  | _, _ => s

/-! ## The close of a sweep -/

/-- The value of a channel's cell, mV, and whether it is SUBSTITUTED; none without a value (R429, R458). -/
def State.cellValue (s : State) (ch i : Nat) : Option (Rat × Bool) :=
  let covers (p : Nat) : Bool :=
    let cfg := (s.port p).cfg
    decide (cfg.first ≤ i ∧ i < cfg.first + cfg.n)
  match (s.portsOf ch).filter covers with
  | p :: _ =>
    let o := s.port p
    let k := i - o.cfg.first
    match o.values[k]?, o.flags[k]? with
    | some v, some f =>
      if bitAt f 0 && !bitAt f 6 then none else some ((v : Rat) / 5, bitAt f 6)
    | _, _ => none
  | [] => none

/-- The values of a channel's cells. -/
def State.cellValues (s : State) (ch : Nat) : List (Option (Rat × Bool)) :=
  (upTo (s.odv (0x6100 + ch) 4)).map (s.cellValue ch)

/-- Least and greatest of a list. -/
def minOf : List Rat → Option Rat
  | [] => none
  | x :: t => some (t.foldl min x)
def maxOf : List Rat → Option Rat
  | [] => none
  | x :: t => some (t.foldl max x)

/-- Temperatures of a channel (R458): highest with blind boards, highest valid, lowest, and whether a board is blind. -/
def State.chanTemps (s : State) (ch : Nat) : Option Int × Option Int × Option Int × Bool :=
  let ports := s.portsOf ch
  let valid := ((ports.map (fun p => (s.port p).temps)).flatten).filter (fun t => decide (t ≠ -32768))
  let blind := ports.any (fun p =>
    decide ((s.port p).temps ≠ []) && (s.port p).temps.all (fun t => decide (t = -32768)))
  match valid with
  | [] => (none, none, none, blind)
  | x :: t =>
    let hi := t.foldl max x
    (some (if blind then hi + 1000 else hi), some hi, some (t.foldl min x), blind)

/-- Views of the cells at a close: lowest, highest, sum and mean of the values, mV. -/
def State.viewCells (s : State) (ch : Nat) : State :=
  let vals := s.cellValues ch
  let have_ := vals.filterMap (fun o => o.map (·.1))
  let sum := have_.foldl (· + ·) (0 : Rat)
  let t := s.chanTemps ch
  let noVal := (upTo vals.length).foldl (fun m i =>
    match vals.getD i none with
    | some _ => tabPut 0 m i 0
    | none => tabPut 0 m i (tabGet 0 m i + 1)) (s.chan ch).noValue
  let unseenNow := noVal.any (fun q => decide (3 ≤ q.2 ∧ q.1 < vals.length))
  let allSeen := vals.all (fun o => o.isSome)
  let was := (s.chan ch).unseen
  let s := s.setChan ch (fun c => { c with
    vLow := minOf have_, vHigh := maxOf have_, volts := sum / 1000, hot := t.1, hotValid := t.2.1, cold := t.2.2.1,
    tempBlind := t.2.2.2,
    noValue := noVal, unseen := if unseenNow then true else if allSeen then false else c.unseen })
  if unseenNow && !was then s.seLog 0x6107 ch (packBytes [(1, ch), (1, 1)])
  else if allSeen && was then s.seLog 0x6107 ch (packBytes [(1, ch), (1, 0)])
  else s

/-- A current in 0.1 A as I32. -/
def deci32 (x : Rat) : Nat := unsigned 32 (clampI (rneRat (x * 10)) (-(2 ^ 31)) (2 ^ 31 - 1))

/-- Q or C in 0.1 C. -/
def deciC (q : Int) : Int := clampI (rneDiv q 100000) (-(2 ^ 31)) (2 ^ 31 - 1)

/-- A cutoff (R452). -/
def State.cutoff (s : State) (ch : Nat) (vLow : Rat) : State :=
  let c := s.chan ch
  let f := s.ocvInv ch (vLow + s.dropMv ch c.current)
  let nominal : Rat := (s.odv (0x6100 + ch) 6 : Rat)
  let learned : Option Nat :=
    match c.anchor with
    | some a =>
      if c.anchored ∧ c.clean ∧ f < 1 then
        let x : Rat := ((wrap64 (c.integ - a) : Int) : Rat) / 100000 / (1 - f)
        if nominal / 2 ≤ x ∧ x ≤ nominal * 3 / 2 then some (natRat x) else none
      else none
    | none => none
  let old := s.capacity ch
  let s := match learned with
    | some x =>
      (s.setChan ch (fun c => { c with cap := some x, learnPend := false, countEst := false })).seLog 0x6103 ch
        (packBytes [(1, ch), (3, 0), (4, old), (4, x)])
    | none => s
  let q := rneRat (f * s.capMicro ch)
  (s.setChan ch (fun c => { c with q := q, anchored := false })).seTrigger

/-- End of discharge at a close (R451). -/
def State.cutoffCheck (s : State) (ch : Nat) : State :=
  let c := s.chan ch
  match c.vLow with
  | none => s
  | some v =>
    let stop : Rat := (s.odv (0x6100 + ch) 8 : Rat)
    let mv := natRat v
    if !c.cutoff && decide (0 < c.current ∧ v ≤ stop) then
      let s := (s.setChan ch (fun c => { c with cutoff := true })).cutoff ch v
      s.seLog 0x6102 ch (packBytes [(1, ch), (1, 1), (2, mv), (4, deci32 c.current)])
    else if c.cutoff && decide (stop + (s.odv (0x6100 + ch) 0x17 : Rat) ≤ v) then
      (s.setChan ch (fun c => { c with cutoff := false })).seLog 0x6102 ch
        (packBytes [(1, ch), (1, 0), (2, mv), (4, deci32 c.current)])
    else s

/-- Mean of the cell values, mV. -/
def State.meanMv (s : State) (ch : Nat) : Option Rat :=
  let have_ := (s.cellValues ch).filterMap (fun o => o.map (·.1))
  if have_ = [] then none else some (have_.foldl (· + ·) (0 : Rat) / (have_.length : Rat))

/-- The resistance sample of a close (R453). -/
def State.resistSample (s : State) (ch : Nat) : State :=
  let c := s.chan ch
  let complete := (s.cellValues ch).all (fun o => o.isSome)
  let mean := s.meanMv ch
  let s' := s.setChan ch (fun c => { c with closeCurrent := some c.current, closeMean := mean })
  match c.closeCurrent, c.closeMean, mean with
  | some i0, some m0, some m1 =>
    let di := c.current - i0
    if complete ∧ di ≠ 0 ∧ (s.odv (0x6100 + ch) 0x1A : Rat) ≤ absR di then
      let rs := -(m1 - m0) / di * 1000
      let nominal : Rat := (s.odv (0x6100 + ch) 7 : Rat)
      if nominal / 10 ≤ rs ∧ rs ≤ nominal * 10 then
        let r := s.resist ch
        s'.setChan ch (fun c => { c with res := some (r + (rs - r) / 64) })
      else s'
    else s'
  | _, _, _ => s'

/-- Counter against voltage (R454). -/
def State.disagreeCheck (s : State) (ch : Nat) : State :=
  let c := s.chan ch
  match c.vLow with
  | some v =>
    if !c.disagree && decide (((c.q : Int) : Rat) ≤ s.qBase ch ∧
        (s.odv (0x6100 + ch) 8 : Rat) + (s.odv (0x6100 + ch) 0x16 : Rat) ≤ v) then
      (s.setChan ch (fun c => { c with disagree := true })).seLog 0x6104 ch (packBytes [(1, ch), (1, 1)])
    else s
  | none => s

/-- Rest and recalibration at a close (R455, R466). -/
def State.restCheck (s : State) (ch : Nat) : State :=
  let c := s.chan ch
  let band : Rat := (s.odv (0x6100 + ch) 0x15 : Rat) / 10
  if absR c.current ≤ band ∧ !c.csLost then
    let s := s.setChan ch (fun c => { c with rest := sat32 c.rest 10 })
    let c := s.chan ch
    let vals := s.cellValues ch
    let plain := vals.all (fun o => match o with | some (_, sub) => !sub | none => false)
    if 1800000 ≤ c.rest ∧ !c.restDone ∧ plain ∧ s.cells.lastResult = 0 then
      let s := s.setChan ch (fun c => { c with restDone := true })
      if !(c.disagree || c.countEst || c.learnPend || decide (s.odv (0x6100 + ch) 0x19 = 1)) then s
      else match s.meanMv ch with
      | some m =>
        let before := deciC c.q
        let q := rneRat (s.capMicro ch * s.ocvInv ch m)
        let was := c.disagree
        let s := s.setChan ch (fun c => { c with q := q, disagree := false, countEst := false })
        let s := if was then s.seLog 0x6104 ch (packBytes [(1, ch), (1, 0)]) else s
        (s.seLog 0x6105 ch (packBytes [(1, ch), (3, 0), (4, unsigned 32 before), (4, unsigned 32 (deciC q))])).seTrigger
      | none => s
    else s
  else s.setChan ch (fun c => { c with rest := 0, restDone := false })

/-- A reset of learned values sets Q at the first close after it (R460). -/
def State.resetAtClose (s : State) (ch : Nat) : State :=
  let c := s.chan ch
  if c.resetQ then
    match s.meanMv ch with
    | some m =>
      let q := rneRat (s.capMicro ch * s.ocvInv ch (m + s.dropMv ch c.current))
      s.setChan ch (fun c => { c with q := q, resetQ := false })
    | none => s
  else s

/-- A change of class takes effect at a close (R466): CUTOFF, DISAGREE and RESERVE_REACHED are logged where they clear
(R467), with the lowest cell value of the close before. -/
def State.classAtClose (s : State) (ch : Nat) : State :=
  let k := s.odv (0x6100 + ch) 1
  let c := s.chan ch
  if c.cls = k then s
  else
    let s := s.setChan ch (fun c => { c with cls := k, full := false, cutoff := false, disagree := false, fullSince := none })
    let s := if c.cutoff then s.seLog 0x6102 ch
        (packBytes [(1, ch), (1, 0), (2, natRat (c.vLow.getD 0)), (4, deci32 c.current)]) else s
    let s := if c.disagree then s.seLog 0x6104 ch (packBytes [(1, ch), (1, 0)]) else s
    if k = 2 then s else s.reserveCheck ch

/-- The SE part of a close. -/
def State.sweepCloseSe (s : State) : State :=
  (upTo 8).foldl (fun s ch =>
    let s := s.classAtClose ch
    if s.chUsed ch then
      (((((((s.viewCells ch).fullWatch ch).resetAtClose ch).cutoffCheck ch).resistSample ch).disagreeCheck ch).restCheck ch).reserveCheck ch
    else s) s

/-! ## Limits (R456 to R459) -/

/-- The temperature factor over a low and a high limit, 0.01 °C. -/
def tempFactor (hot cold : Option Int) (lo hi : Int) : Rat :=
  match hot, cold with
  | some h, some c =>
    if hi < h ∨ c < lo then 0 else if hi - 1000 < h then ((hi - h : Int) : Rat) / 1000 else 1
  | _, _ => 0

/-- Watts from a rational, downwards. -/
def watts (x : Rat) : Nat := (floorRat x).toNat

/-- The discharge, charge and continuous limits of a channel, W: the cell values and the current are those of the newest
close (R456). -/
def State.limitsOf (s : State) (ch : Nat) : Nat × Nat × Nat :=
  let c := s.chan ch
  let o (i : Nat) : Rat := (s.odv (0x6100 + ch) i : Rat)
  match c.vLow, c.vHigh with
  | some lo, some hi =>
    let r := s.resist ch
    let amps := c.closeCurrent.getD c.current
    let iDis := max 0 (min (o 0x0E) (amps + (lo - o 8) * 1000 / r))
    let iChg := max 0 (min (o 0x0F) (-amps + (o 9 - hi) * 1000 / r))
    let q : Rat := ((c.q : Int) : Rat)
    let cap := s.capMicro ch
    let base := s.qBase ch
    let span := if base < q then q - base
      else if c.cutoff then 0
      else cap * max (s.ocvInv ch (lo + s.dropMv ch amps) - s.ocvInv ch (o 8 + s.dropMv ch amps)) (5 / 1000)
    let eDis := span / 1000000 * c.volts
    let eChg := max 0 (cap - q) / 1000000 * c.volts
    let lims := s.odv (0x6100 + ch) 0x13
    let lim (j : Nat) : Int := signed 16 (item 2 lims j)
    let mChg := tempFactor c.hot c.cold (lim 0) (lim 1)
    let mDis := tempFactor c.hot c.cold (lim 2) (lim 3)
    let conv : Rat := 200000 * ((s.convsOf ch).length : Rat)
    let none_ := c.unseen || !s.served ch || decide (s.mode = .standbyCold ∨ s.mode = .boot)
    let dis := if none_ || c.cutoff || (decide (s.chClass ch = 2) && c.reserve) then 0
      else watts (mDis * min (c.volts * iDis) (min conv (eDis * 1000 / o 0x10)))
    let chg := if none_ || c.full || decide (o 9 ≤ hi) then 0
      else watts (mChg * min (c.volts * iChg) (min conv (eChg * 1000 / o 0x10)))
    (dis, chg, min dis (watts (mDis * eDis * 1000 / o 0x11)))
  | _, _ => (0, 0, 0)

/-- Channels of soc_bulk and L (R459). -/
def State.bulkChans (s : State) : List Nat :=
  (upTo 8).filter (fun ch => s.served ch && s.chUsed ch && !bitAt (s.odv 0x2003 2) ch)

/-- LIMIT_UPDATE. -/
def State.limitUpdate (s : State) : State :=
  let s := (upTo 8).foldl (fun s ch =>
    if s.chUsed ch then
      let s := (s.fullClear ch).reserveCheck ch
      let l := s.limitsOf ch
      s.setChan ch (fun c => { c with disLimit := l.1, chgLimit := l.2.1, contLimit := l.2.2 })
    else s.setChan ch (fun c => { c with disLimit := 0, chgLimit := 0, contLimit := 0 })) s
  let served := (upTo 8).filter s.served
  let bulk := s.bulkChans
  let dis := (served.map (fun ch => (s.chan ch).disLimit)).sum
  let chg := (served.map (fun ch => (s.chan ch).chgLimit)).sum
  let cont := (bulk.map (fun ch => (s.chan ch).contLimit)).sum
  let soc : Rat :=
    if bulk = [] then (s.odv 0x3003 2 : Rat) / 100
    else clampR (share ((bulk.map (fun ch => (((s.chan ch).q : Int) : Rat) - s.qBase ch)).foldl (· + ·) 0)
      ((bulk.map (fun ch => s.capMicro ch - s.qBase ch)).foldl (· + ·) 0)) 0 1
  { s with se := { s.se with socBulk := soc, disTotal := dis, chgTotal := chg, contTotal := cont } }

/-! ## Learned values and the SE record (R460 to R464) -/

/-- RESET_LEARNED_VALUES. -/
def State.resetLearned (s : State) (mask : Nat) : State :=
  let s := (bitsOf 8 mask).foldl (fun s ch =>
    let cap := s.odv (0x6100 + ch) 6
    let r : Rat := (s.odv (0x6100 + ch) 7 : Rat)
    let was := (s.chan ch).disagree
    let s := s.setChan ch (fun c => { c with cap := some cap, res := some r, resetQ := true, learnPend := true,
                                             countEst := true, full := false, anchor := none, anchored := false,
                                             disagree := false })
    if was then s.seLog 0x6104 ch (packBytes [(1, ch), (1, 0)]) else s) s
  (s.seLog 0x6108 0 mask).seTrigger

/-- Flags of the SE record and the checkpoint. -/
def SeChan.recordFlags (c : SeChan) : Nat :=
  b2n c.full + 4 * b2n c.disagree + 8 * b2n c.countEst + 16 * b2n c.learnPend

/-- All flags, OD 0x6200 + ch .06. -/
def State.chanFlags (s : State) (ch : Nat) : Nat :=
  let c := s.chan ch
  b2n c.full + 2 * b2n c.cutoff + 4 * b2n c.disagree + 8 * b2n c.countEst + 16 * b2n c.learnPend + 32 * b2n c.csLost +
  64 * b2n c.unseen + 128 * b2n c.tempBlind + 256 * b2n c.reserve + 512 * b2n c.bridge + 1024 * b2n (s.served ch)

/-- r in µΩ as U32. -/
def State.resistU32 (s : State) (ch : Nat) : Nat := min (natRat (s.resist ch)) u32Max

/-- The SE record (R462). -/
def State.seBytes (s : State) (seq : Nat) : Blob :=
  let body := packBytes ([(4, 0x44585345), (4, seq), (2, 1), (6, 0)] ++
    ((upTo 8).map (fun ch => [(4, s.capacity ch), (4, unsigned 32 (deciC (s.chan ch).q)), (4, s.resistU32 ch),
      (2, (s.chan ch).recordFlags), (34, 0)])).flatten)
  body + (crc32 0x190 body) <<< (8 * 0x190)

/-- A record write is due (R462): a trigger waits and the write before lies 10 s back, or 600 s have passed since the
write before, counted from the start of module time where there was none (log entry 109). -/
def State.seDue (s : State) : Bool :=
  let gap := match s.se.lastWrite with
    | none => true
    | some t => decide (t + 10000000 ≤ s.intake)
  (s.se.pending && gap) || decide (s.se.lastWrite.getD 0 + 600000000 ≤ s.intake)

/-- SE_RECORD_WRITE (R462, R463). -/
def State.seRecordWrite (s : State) : State :=
  if s.seDue then
    if !s.power.inRange || s.power.leaving then
      ({ s with se := { s.se with pending := false } }).count 0x6001 6
    else
      let seq := s.nvr.nextSeq .se
      let s := s.nvrWrite ⟨.se, seq, s.seBytes seq⟩
      { s with se := { s.se with pending := false, lastWrite := some s.intake } }
  else s

/-- A channel restored from 14 bytes of a record: C, Q, r and flags. The anchor of a restored FULL is the integrator value
at which Q was C, so that FULL clears after a net 2 % of C; it completes no cycle of R452 (log entry 109). -/
def SeChan.restore (c : SeChan) (cap q r flags : Nat) : SeChan :=
  let micro := signed 32 q * 100000
  { c with cap := some cap, q := micro, res := some (r : Rat), full := bitAt flags 0,
           disagree := bitAt flags 2, countEst := bitAt flags 3, learnPend := bitAt flags 4,
           anchor := if bitAt flags 0 then some (wrap64 (c.integ - ((cap : Int) * 100000 - micro))) else none,
           anchored := false, clean := false }

/-- What a channel keeps over a boot on a powered SIOD (R445, R447, R468): its count, a lost port with its held current
and lost time, and the counter of estimated time. The class of the configuration takes effect. -/
def SeChan.kept (c : SeChan) (cls : Nat) : SeChan :=
  { integ := c.integ, bits := c.bits, bitHist := c.bitHist, current := c.current, csLost := c.csLost, held := c.held,
    estTime := c.estTime, lossTime := c.lossTime, cls := cls }

/-- SE at boot (R464); the integrators stay as they are. -/
def State.seBoot (s : State) : State :=
  match s.nvr.newest .se with
  | some rec =>
    let s := (upTo 8).foldl (fun s ch =>
      let at_ := 0x10 + 48 * ch
      let cls := s.odv (0x6100 + ch) 1
      s.setChan ch (fun c =>
        { ((c.kept cls).restore (bytesAt rec.data at_ 4) (bytesAt rec.data (at_ + 4) 4) (bytesAt rec.data (at_ + 8) 4) (bytesAt rec.data (at_ + 12) 2)) with
          countEst := true })) s
    { s with se := { s.se with seqUsed := rec.seq } }
  | none =>
    (upTo 8).foldl (fun s ch =>
      let cap := s.odv (0x6100 + ch) 6
      let r : Rat := (s.odv (0x6100 + ch) 7 : Rat)
      let cls := s.odv (0x6100 + ch) 1
      s.setChan ch (fun c => { c.kept cls with cap := some cap, res := some r, learnPend := true, countEst := true })) s

end Sys2Proof.Machine
end

