-- ==== Sys2Proof/Machine/Bm.lean ====
section
/-! DEFINITION. The rack budget manager: the budget, the job groups and their power model, the sharing by tiers, the
device limits, the deficit, the throttle reasons, staggered releases, landing energy and the suspension of forecast
cores (R251 to R274). -/

namespace Sys2Proof.Machine

open Sys2Proof

/-! ## Landings and links -/

def State.landing (s : State) (l : Nat) : Landing := tabGet {} s.ferry.landings l
def State.setLanding (s : State) (l : Nat) (f : Landing → Landing) : State :=
  { s with ferry := { s.ferry with landings := tabMod {} s.ferry.landings l f } }
def State.link (s : State) (l : Nat) : Link := tabGet {} s.ferry.links l
def State.setLink (s : State) (l : Nat) (f : Link → Link) : State :=
  { s with ferry := { s.ferry with links := tabMod {} s.ferry.links l f } }

/-- Landings attached to a berth, ascending. -/
def State.attached (s : State) : List Nat := (s.ferry.landings.filter (fun p => p.2.place.isSome)).map (·.1)

/-- A record has been accepted in one of the last 64 intake frames (R330, R342): the newest was accepted in frame
`plusOne − 1`. -/
def State.recent (s : State) (plusOne : Nat) : Bool := decide (plusOne ≠ 0 ∧ s.intake < plusOne + 64)

/-- A landing is in service (R342). -/
def State.landingIn (s : State) (l : Nat) : Bool :=
  let x := s.landing l
  match x.place with
  | some p => decide ((s.link p.1).st = 4) && !x.nonCompliant && s.recent x.lastAcc
  | none => false

/-- Landings in service, OD 0x9020.05. -/
def State.landingsIn (s : State) : List Nat := s.attached.filter s.landingIn

/-! ## Job groups (R255 to R257) -/

/-- The group of a landing in effect; 0xFF for none. -/
def State.groupOf (s : State) (l : Nat) : Nat := item 1 (s.effv 0x4002 0) l

def State.group (s : State) (g : Nat) : JobGroup := tabGet {} s.bm.groups g
def State.setGroup (s : State) (g : Nat) (f : JobGroup → JobGroup) : State :=
  { s with bm := { s.bm with groups := tabMod {} s.bm.groups g f } }

/-- Landings of a group in service, ascending. -/
def State.members (s : State) (g : Nat) : List Nat := s.landingsIn.filter (fun l => decide (s.groupOf l = g))

/-- A group as one period sees it: its configuration, n_g, c_g, the lowest reported ceiling and its cause. -/
structure GroupView where
  g : Nat
  fLo : Nat
  fBase : Nat
  fMax : Nat
  step : Nat
  pLo : Nat
  pHi : Nat
  fixed : Bool
  prio : Nat
  n : Nat
  c : Rat
  low : Nat
  cause : Nat
  deriving DecidableEq, Repr

/-- The view of a group with `n` landings and factor `c`. -/
def State.groupView (s : State) (g n : Nat) (c : Rat) (low cause : Nat) : GroupView :=
  let v := fun k => s.effv (0x4100 + g) k
  { g := g, fLo := v 1, fBase := v 2, fMax := v 3, step := v 4, pLo := v 5, pHi := v 6, fixed := decide (v 7 = 1),
    prio := v 8, n := n, c := c, low := low, cause := cause }

/-- p_g(f), W (R257). -/
def GroupView.power (v : GroupView) (f : Nat) : Rat :=
  let nc : Rat := (v.n : Rat) * v.c
  if f < v.fLo then nc * (v.pLo : Rat) * (f : Rat) / (v.fLo : Rat)
  else if v.fMax = v.fLo then nc * (v.pLo : Rat)
  else nc * ((v.pLo : Rat) + ((v.pHi : Rat) - (v.pLo : Rat)) * ((f : Rat) - (v.fLo : Rat)) / ((v.fMax : Rat) - (v.fLo : Rat)))

/-- top_g and ceil_g (R258). -/
def GroupView.top (v : GroupView) : Nat := if v.fixed then v.fBase else v.fMax
def GroupView.ceil (v : GroupView) : Nat := min v.top v.low

/-- Mean of the powers a landing reported in this period (R254, R257). -/
def Landing.meanPower (x : Landing) : Rat := if x.powerCount = 0 then 0 else (x.powerSum : Rat) / (x.powerCount : Rat)

/-- Sum of rationals. -/
def sumR (l : List Rat) : Rat := l.foldl (· + ·) (0 : Rat)

/-- The correction factor after one more period (R257): only a period with a barrier wait does not count.  Before the first
period with any power the factor is the one it starts at (log entry 12). -/
def State.correct (s : State) (g : Nat) : State :=
  let x := s.group g
  let got := sumR ((s.members g).map (fun l => (s.landing l).meanPower))
  if x.waited ∨ (x.inService = 0 ∧ x.history = [] ∧ got = 0) then s
  else
    let hist := ((got, (s.groupView g x.inService 1 0xFFFF 0).power x.grant) :: x.history).take 100
    let ratio := share (sumR (hist.map (·.1))) (sumR (hist.map (·.2)))
    s.setGroup g (fun x => { x with history := hist, factor := clampR ratio (1 / 2) 2 })

/-- Power of the landings that no group's share covers, W (R254, R342, R343). -/
def State.unmanagedPower (s : State) : Rat :=
  sumR ((s.ferry.landings.filter (fun p => !(s.landingIn p.1 && decide (s.groupOf p.1 < 64)))).map (fun p => p.2.meanPower))

/-- The groups with landings in service, ascending, as the period sees them. -/
def State.groupViews (s : State) : List GroupView :=
  ((upTo 64).map (fun g =>
    let ms := s.members g
    if ms = [] then []
    else
      let low := ms.foldl (fun (b : Nat × Nat) l =>
        let x := s.landing l
        if x.ceiling < b.1 then (x.ceiling, x.ceilCause) else b) (0xFFFF, 0)
      [s.groupView g ms.length (s.group g).factor low.1 low.2])).flatten

/-! ## Sharing (R258) -/

/-- The power of all groups at their grants. -/
def totalPower (vs : List GroupView) (fs : List Nat) : Rat := sumR (List.zipWith GroupView.power vs fs)

/-- The largest multiple of 1/1024 from 0 to 1 that a condition admits; 0 where it admits none. -/
def largest1024 (ok : Nat → Bool) : Nat := ((upTo 1025).reverse.find? ok).getD 0

/-- The grant a fraction `x` of 1/1024 of an interval gives, rounded down to a multiple of the step. -/
def stepDown (lo hi step x : Nat) : Nat := (lo * 1024 + x * (hi - lo)) / (1024 * step) * step

/-- One class of tier 2 (`boost` false) or tier 3 at a fraction `x`. -/
def classAt (vs : List GroupView) (ceil : GroupView → Nat) (fs : List Nat) (k : Nat) (boost : Bool) (x : Nat) : List Nat :=
  List.zipWith (fun (v : GroupView) f =>
    if v.prio = k ∧ !(boost && v.fixed) then
      min (ceil v) (if boost then stepDown v.fBase v.fMax v.step x else stepDown v.fLo v.fBase v.step x)
    else f) vs fs

/-- The total fits a power; no bound always fits. -/
def fits (vs : List GroupView) (fs : List Nat) (aeff : Option Rat) : Bool :=
  match aeff with
  | some a => decide (totalPower vs fs ≤ a)
  | none => true

/-- The tier-1 grants. -/
def floorGrants (vs : List GroupView) (ceil : GroupView → Nat) : List Nat := vs.map (fun v => min v.fLo (ceil v))

/-- The sharing procedure: tier 1, then tier 2 and tier 3 by class, stopping at the first class that does not reach its
end. -/
def shareOut (vs : List GroupView) (ceil : GroupView → Nat) (aeff : Option Rat) : List Nat :=
  ([(3, false), (2, false), (1, false), (0, false), (3, true), (2, true), (1, true), (0, true)].foldl
    (fun (st : List Nat × Bool) (k : Nat × Bool) =>
      if st.2 then st
      else
        let x := largest1024 (fun x => fits vs (classAt vs ceil st.1 k.1 k.2 x) aeff)
        (classAt vs ceil st.1 k.1 k.2 x, decide (x < 1024))) (floorGrants vs ceil, false)).1

/-- The lowering of R259: class by class, lowest priority first, until the planned draw fits. -/
def lowerGroups (vs : List GroupView) (t1 fs : List Nat) (ok : List Nat → Bool) : List Nat :=
  [0, 1, 2, 3].foldl (fun fs k =>
    if ok fs then fs
    else
      let low := fun (y : Nat) => List.zipWith (fun (v : GroupView) (p : Nat × Nat) =>
        if v.prio = k then min p.1 (y * v.fLo / (1024 * v.step) * v.step) else p.2) vs (t1.zip fs)
      low (largest1024 (fun y => ok (low y)))) fs

/-! ## The budget (R252, R253) -/

/-- A written budget, or the refresh timeout, at a period boundary; then every other waiting value of the period. -/
def State.applyBudget (s : State) : State :=
  let s :=
    if (tabFind s.eff (okey 0x4001 1)).isSome then { s with bm := { s.bm with source := 0, refreshDue := false } }
    else if s.bm.refreshDue ∧ s.odv 0x4001 4 ≠ 0 then
      let boot := s.odv 0x4001 2
      let s := s.odPut (okey 0x4001 1) boot
      let s := { s with bm := { s.bm with source := 1, refreshDue := false } }
      (s.logEvent 0x4001 boot).raise irqBudget
    else s
  s.takeEffect .period

/-! ## The period (R258 to R270) -/

/-- What one period works from: A, the bound of the grid ramp, the bound of the rectifiers and the storage, and the
storage headroom h. -/
structure Bounds where
  a : Rat
  rise : Option Rat
  cap : Rat
  h : Rat
  deriving DecidableEq, Repr

/-- The groups' total of the last period; in the first period after a takeover, that of the run grants it starts from, and
nothing where it starts from none (R258, R273, R521). -/
def State.lastTotal (s : State) : Rat :=
  if s.bm.fresh then sumR (s.groupViews.map (fun v => if (s.group v.g).grant = 0 then 0 else v.power (s.group v.g).grant))
  else s.bm.total

/-- The bounds of the sharing. -/
def State.bounds (s : State) (u : Rat) : Bounds :=
  let house : Rat := (s.effv 0x4001 3 : Rat)
  let s0 : Rat := match s.ce.newest with | some m => q32Val m.s0 * 1000000 | none => 0
  let h := max 0 ((min s.se.disTotal s.swingFast : Nat) - s0 : Rat)
  { a := (s.effv 0x4001 1 : Rat) - house - u,
    rise := if s.profile < 3 then some (s.lastTotal + (s.effv (0x3010 + s.profile) 2 : Rat) / 10 + h) else none,
    cap := (s.rectCapacity : Rat) + (s.se.contTotal : Rat) - house - u, h := h }

/-- Aeff of R258. -/
def Bounds.eff (b : Bounds) : Rat :=
  match b.rise with
  | some r => min (min b.a r) b.cap
  | none => min b.a b.cap

/-- Binding reason and mask of a throttled group (R269). -/
def reasonsOf (b : Bounds) (v : GroupView) (f : Nat) (lowered : Bool) (aloneCap aloneRise aloneA : Nat) : Nat × Nat :=
  if v.fBase ≤ f then (0xFF, 0)
  else
    let rest := match b.rise with | some r => min b.a r | none => b.a
    let rising := match b.rise with | some r => decide (r < b.a ∧ r ≤ b.cap) | none => false
    let holds := [decide (v.cause = 2 ∧ f = v.ceil), decide (v.cause = 1 ∧ f = v.ceil),
      lowered || decide (b.cap < rest), rising && decide (b.h = 0), rising && decide (0 < b.h)]
    let mask := b2n (decide (v.cause = 2 ∧ v.low < v.fBase)) + 2 * b2n (decide (v.cause = 1 ∧ v.low < v.fBase)) +
      4 * b2n (lowered || decide (aloneCap < v.fBase)) +
      8 * b2n (b.rise.isSome && decide (aloneRise < v.fBase) && decide (b.h = 0)) +
      16 * b2n (b.rise.isSome && decide (aloneRise < v.fBase) && decide (0 < b.h)) +
      32 * b2n (decide (aloneA < v.fBase))
    ((([0, 1, 2, 3, 4].filter (fun i => holds.getD i false)).head?).getD 5, mask)

/-- The deficit of a period (R260). -/
def State.setDeficit (s : State) (d : Rat) : State :=
  let s := { s with bm := { s.bm with deficit := d } }
  if 0 < d then
    let s := s.count64 0x4020 3 100
    let onset := !s.bm.inDeficit
    let s := { s with bm := { s.bm with inDeficit := true, quiet := 0 } }
    if onset then ((s.count 0x4020 4).logEvent 0x4002 (min (natRat d) u32Max)).raise irqBudget else s
  else
    let q := s.bm.quiet + 1
    { s with bm := { s.bm with quiet := min q 10, inDeficit := s.bm.inDeficit && decide (q < 10) } }

/-- Durations of the binding reasons (R270). -/
def State.addDurations (s : State) : State :=
  let s := s.bm.groups.foldl (fun s p => if p.2.binding < 6 then s.count64 (0x4200 + p.1) (7 + p.2.binding) 100 else s) s
  if s.bm.dieBinding < 6 then s.count64 0x4030 (3 + s.bm.dieBinding) 100 else s

/-- The run grants, planned draw, grid limit, deficit and reasons of a period.  DEDUCED (log entry 101): a group with no
landing in service runs at its floor under every sharing, so each limit that is in force alone keeps it there (R257, R269). -/
def State.runPeriod (s : State) (u : Rat) : State :=
  let vs := s.groupViews
  let b := s.bounds u
  let house : Rat := (s.effv 0x4001 3 : Rat)
  let cr : Rat := (s.rectCapacity : Rat)
  let lim : Rat := (s.se.contTotal : Rat)
  let budget : Rat := (s.effv 0x4001 1 : Rat)
  let t1 := floorGrants vs GroupView.ceil
  let f0 := shareOut vs GroupView.ceil (some b.eff)
  let ok := fun (fs : List Nat) => decide (totalPower vs fs + house + u - lim ≤ cr)
  let fs := lowerGroups vs t1 f0 ok
  let total := totalPower vs fs
  let p := total + house + u
  let carried := if p ≤ budget then 0 else min (p - budget) lim
  let d := if p ≤ budget then 0 else p - budget - carried
  let grid := if p ≤ budget then min cr budget else min cr (budget + d)
  let aloneCap := shareOut vs GroupView.top (some b.cap)
  let aloneRise := shareOut vs GroupView.top b.rise
  let aloneA := shareOut vs GroupView.top (some b.a)
  let s := { s with bm := { s.bm with
    deviceLimit := !ok f0, total := total, fresh := false, planned := p, gridLimit := some grid, share := carried, unmanaged := u,
    groups := tabMap {} (fun (x : JobGroup) => { x with binding := 0xFF, mask := 0, inService := 0, power := 0 }) s.bm.groups } }
  -- a group with no landing in service runs at its floor under every sharing, throttled where that is below its base (R257,
  -- R269; log entry 101)
  let s := (upTo 64).foldl (fun s g => if vs.any (fun v => decide (v.g = g)) then s
    else
      let f := s.effv (0x4100 + g) 1
      let r := reasonsOf b (s.groupView g 0 1 0xFFFF 0) f false f f f
      s.setGroup g (fun x => { x with grant := f, binding := r.1, mask := r.2 })) s
  let s := (upTo vs.length).foldl (fun s i =>
    match vs[i]? with
    | some v =>
      let f := fs.getD i 0
      let r := reasonsOf b v f (decide (f < t1.getD i 0)) (aloneCap.getD i 0) (aloneRise.getD i 0) (aloneA.getD i 0)
      s.setGroup v.g (fun x => { x with grant := f, inService := v.n, power := v.power f, binding := r.1, mask := r.2 })
    | none => s) s
  s.setDeficit d

/-- The BM computes grants in this state (R27, R273, R274). -/
def State.bmRuns (s : State) : Bool :=
  match s.mode with
  | .active | .degraded => true
  | .takeover => s.ce.inService
  | _ => false

/-- The budget manager's part of a period boundary. -/
def State.budgetPeriod (s : State) : State :=
  let s :=
    -- no period runs in SAFE_HOLD; the cap of the MPC takes effect all the same (R274, R489)
    if s.mode = .safeHold then { s with eff := s.eff.filter (fun p => decide (p.1 / 256 ≠ 0x7010)) }
    else
      let runs := s.bmRuns
      let s := if runs then (upTo 64).foldl State.correct s else s
      let u := s.unmanagedPower
      let s := s.applyBudget
      if runs then s.runPeriod u else s
  let s := if s.bmRuns || decide (s.mode = .safeHold) then s.addDurations else s
  let ls := tabMap {} (fun (x : Landing) => { x with powerSum := 0, powerCount := 0 }) s.ferry.landings
  let gs := tabMap {} (fun (x : JobGroup) => { x with waited := false }) s.bm.groups
  { s with ferry := { s.ferry with landings := ls }, bm := { s.bm with groups := gs } }

/-! ## Barriers and releases (R264 to R266) -/

/-- What the BM takes from an accepted record of a landing: reported power, a barrier wait or its end. -/
def State.bmRecord (s : State) (l : Nat) : State :=
  let x := s.landing l
  let g := s.groupOf l
  let s := s.setLanding l (fun x => { x with powerSum := x.powerSum + x.power, powerCount := x.powerCount + 1 })
  if 64 ≤ g then s
  else if bitAt x.status 1 then
    let s := s.setGroup g (fun y => { y with waited := true })
    if x.freed = some x.barrier then s
    else s.setLanding l (fun x => { x with held := some x.barrier, freed := none })
  else
    match x.held with
    | none => s.setLanding l (fun x => { x with freed := none })
    | some b =>
      if !bitAt x.status 0 then s.setLanding l (fun x => { x with held := none, freed := none })
      else if (s.group g).relAt.isSome ∧ b ∈ (s.group g).relIds then s
      else s.setGroup g (fun y => { y with resumed := true })

/-- The barriers at which landings of a group are held and which no release in force covers. -/
def State.heldAt (s : State) (g : Nat) : List Nat :=
  let y := s.group g
  ((s.attached.filter (fun l => decide (s.groupOf l = g))).filterMap (fun l => (s.landing l).held)).filter
    (fun b => !(y.relAt.isSome && decide (b ∈ y.relIds)))

/-- Start of a release and the shelf event it follows (R265): the rise that matches a barrier, or the frame boundary at
which a landing reports computing again. -/
def State.releaseStart (s : State) (g : Nat) (ids : List Nat) : Option (Nat × Nat) :=
  let named := match s.ce.newest with
    | some m => if s.cd.running then
        (m.events.find? (fun e => decide (e.ident ∈ ids ∧ e.ident ≠ 0 ∧ 0 < e.change.v ∧ e.state ≠ 2))).map
          (fun e => (1000 * (m.frame + 1) + e.time, e.ident)) else none
    | none => none
  match named with
  | some t => some t
  | none => if (s.group g).resumed then some (4000 * (s.intake / 4), 0) else none

/-- BARRIER_RELEASE. -/
def State.barrierRelease (s : State) (g : Nat) : State :=
  let ids := s.heldAt g
  if ids = [] ∨ 64 ≤ g then s
  else
    match s.releaseStart g ids with
    | none => s
    | some t =>
      let s := s.count (0x4200 + g) 13
      let r := s.odv (0x4200 + g) 13
      let d := s.odv 0x4003 0
      let ms := s.members g
      let s := (upTo ms.length).foldl (fun s k =>
        let step := (50 * k / ms.length + r) % 50
        s.setLanding (ms.getD k 0) (fun x => { x with comingAt := some (t.1 + step * d * 20) })) s
      s.setGroup g (fun y => { y with relAt := some t.1, relEvent := t.2, relEnd := t.1 + d * 1000, relIds := ids,
                                      resumed := false })

/-- Starts that have passed, releases that have ended and releases whose event has been withdrawn, at time `now`. -/
def State.releaseProgress (s : State) (now : Nat) : State :=
  let s := s.bm.groups.foldl (fun s p =>
    match p.2.relAt with
    | none => s
    | some t =>
      let gone := match s.ce.newest with
        | some m => s.cd.running && decide (p.2.relEvent ≠ 0 ∧ now < t) &&
            m.events.any (fun e => decide (e.ident = p.2.relEvent ∧ e.state = 2))
        | none => false
      let mine := s.attached.filter (fun l => decide (s.groupOf l = p.1))
      if gone then
        let s := mine.foldl (fun s l => s.setLanding l (fun x => { x with comingAt := none })) s
        s.setGroup p.1 (fun y => { y with relAt := none, relIds := [] })
      else if p.2.relEnd ≤ now then
        let s := mine.foldl (fun s l => s.setLanding l (fun x =>
          match x.held with
          | some b => if x.comingAt = none ∧ b ∈ p.2.relIds then { x with held := none, freed := some b } else x
          | none => x)) s
        s.setGroup p.1 (fun y => { y with relAt := none, relIds := [] })
      else s) s
  let start := fun (x : Landing) =>
    match x.comingAt with
    | some t => if t ≤ now then { x with comingAt := none, held := none, freed := x.held } else x
    | none => x
  { s with ferry := { s.ferry with landings := tabMap {} start s.ferry.landings } }

/-! ## Energy (R272) -/

/-- Energy of every attached landing over the intake frame `j` that has closed. -/
def State.addEnergy (s : State) (j : Nat) : State :=
  let step := fun (x : Landing) =>
    if x.place = none then x
    else if x.lastAcc = j + 1 then { x with energy := sat64 x.energy x.power, missed := 0 }
    else
      let m := x.missed + 1
      if m ≤ 7 then { x with energy := sat64 x.energy x.power, missed := m }
      else { x with missed := 8, unreported := sat32 x.unreported 1 }
  { s with ferry := { s.ferry with landings := tabMap {} step s.ferry.landings } }

/-! ## Suspension of forecast cores (R267, R268) -/

/-- Running cores that hold forecast streams and are not suspended, ascending. -/
def State.forecastCores (s : State) : List Nat :=
  (upTo 96).filter (fun c => decide ((s.core c).st = 2) && !(s.core c).suspended && decide (s.streamsOn c ≠ []))

/-- Suspend one core while CAP_UNMET holds, and count the complete periods without it, to 100; `was` says that CAP_UNMET
held in the period that ends. -/
def State.suspendCore (s : State) (was : Bool) : State :=
  if !s.bm.capUnmet then { s with te := { s.te with calm := if was then 0 else min (s.te.calm + 1) 100 } }
  else
    let s := { s with te := { s.te with calm := 0 } }
    let cs := s.forecastCores
    if cs.length ≤ s.odv 0x4004 0 then s
    else
      match cs.getLast? with
      | some c =>
        let s := s.setCore c (fun k => { k with suspended := true })
        { s with te := { s.te with suspended := c :: s.te.suspended } }
      | none => s

/-- CORE_RESUME: one core per period, so the next one waits for the next boundary. -/
def State.resumeCore (s : State) : State :=
  match s.te.suspended with
  | c :: t => if 100 ≤ s.te.calm ∧ !s.bm.capUnmet then
      let s := s.setCore c (fun k => { k with suspended := false })
      { s with te := { s.te with suspended := t, calm := 99 } }
    else s
  | [] => s

end Sys2Proof.Machine
end

