-- ==== Sys2Proof/Machine/Ce.lean ====
section
/-! DEFINITION. The control engine: the snapshot's sources, loop runs, arbitration, the output stage, repetitive
controllers, branches and their selection, commands and supervision (R276 to R312). -/

namespace Sys2Proof.Machine

open Sys2Proof

/-! ## Arithmetic (R281) -/

/-- The accumulator limits: 72 bits at shift 61. -/
def accMin : Int := -(2 ^ 71)
def accMax : Int := 2 ^ 71 - 1

/-- A saturated accumulator, and whether it saturated. -/
def accSat (x : Int) : Int × Bool := (clampI x accMin accMax, decide (clampI x accMin accMax ≠ x))

/-- Product of a signal and a coefficient at the accumulator shift. -/
def mulAcc (sig : Int) (q : Q32) : Int × Bool := accSat (sig * q.v * 2 ^ (31 - q.s))

/-- Sum of accumulators. -/
def addAcc (a b : Int) : Int × Bool := accSat (a + b)

/-- An accumulator as a signal, and whether the conversion saturated. -/
def accSignal (a : Int) : Int × Bool :=
  let r := rneShift a 31
  (satSig r, decide (satSig r ≠ r))

/-- A sum of signals, and whether it saturated. -/
def sumSig (a b : Int) : Int × Bool := (satSig (a + b), decide (satSig (a + b) ≠ a + b))

/-- A dictionary value as a signal (R280). -/
def State.sig (s : State) (i sub : Nat) : Int := toSignal (q32Of (s.odv i sub))

/-- A dictionary value as a coefficient. -/
def State.coef (s : State) (i sub : Nat) : Q32 := q32Of (s.odv i sub)

/-- A power in W as a signal. -/
def wattSig (w : Rat) : Int := ratSig (w / 1000000)

/-! ## State access -/

def CeDyn.loop (d : CeDyn) (n : Nat) : Loop := tabGet {} d.loops n
def CeDyn.setLoop (d : CeDyn) (n : Nat) (f : Loop → Loop) : CeDyn := { d with loops := tabMod {} d.loops n f }
def CeDyn.group (d : CeDyn) (g : Nat) : Group := tabGet {} d.groups g
def CeDyn.rc (d : CeDyn) (r : Nat) : Rc := tabGet {} d.rcs r
def CeDyn.setRc (d : CeDyn) (r : Nat) (f : Rc → Rc) : CeDyn := { d with rcs := tabMod {} d.rcs r f }

/-- Change the kept state and every branch that waits for selection. -/
def State.ceAll (s : State) (f : CeDyn → CeDyn) : State :=
  { s with ce := { s.ce with kept := f s.ce.kept, branchA := s.ce.branchA.map f, branchB := s.ce.branchB.map f } }

/-- Group and repetitive controller of a loop, if configured. -/
def State.loopGroup (s : State) (n : Nat) : Option Nat :=
  if s.odv (0x2100 + n) 16 < 16 then some (s.odv (0x2100 + n) 16) else none
def State.loopRc (s : State) (n : Nat) : Option Nat :=
  if s.odv (0x2100 + n) 17 < 4 then some (s.odv (0x2100 + n) 17) else none

/-- The loop that names a controller, OD 0x2600 + r .0C. -/
def State.rcLoop (s : State) (r : Nat) : Option Nat := (upTo 64).find? (fun n => decide (s.loopRc n = some r))

/-- The loop runs in frame `k` (R284). -/
def State.loopRuns (s : State) (n k : Nat) : Bool :=
  decide (k % max 1 (s.odv (0x2100 + n) 14) = s.odv (0x2100 + n) 15)

/-- The CE runs loops in this state (R278). -/
def State.ceRuns (s : State) : Bool :=
  s.ce.inService && decide (s.mode = .active ∨ s.mode = .degraded ∨ s.mode = .takeover)

/-! ## The snapshot (R276, R286, R299, R300) -/

/-- What a frame's snapshot latches. -/
structure CeIn where
  k : Nat
  lMeas : Int
  rect : Int
  stor : Int
  stale : Bool
  g : Int
  t : Int
  plain : Bool
  deriving DecidableEq, Repr

/-- Sum of word 0 over nodes. -/
def State.sumWord0 (s : State) (l : List Nat) : Int := (l.map (fun a => s.wordSignal a 0)).foldl (· + ·) 0

/-- The measurements of some node in service are missing from the third frame on; an empty sum is whole (R300). -/
def State.measStale (s : State) : Bool := s.inServiceNodes.any (fun a => s.word0Missing a || !(s.node a).word0)

/-- The committed record as signals: G, T, S0, S1 (R280). -/
def recordSignals (m : Merged) : Int × Int × Int × Int := (toSignal m.g, toSignal m.t, toSignal m.s0, toSignal m.s1)

/-- The snapshot of frame `k`, with the substitutes of plain regulation. -/
def State.snapshot (s : State) (k : Nat) : CeIn :=
  let rect := satSig (s.sumWord0 s.rectsIn)
  let stor := satSig (s.sumWord0 s.convsIn)
  let l := satSig (s.sumWord0 s.rectsIn + s.sumWord0 s.convsIn)
  let stale := s.measStale
  match s.ce.record with
  | some m =>
    let r := recordSignals m
    { k := k, lMeas := l, rect := rect, stor := stor, stale := stale, g := r.1, t := r.2.1, plain := false }
  | none =>
    let step := wattSig ((s.odv 0x2002 0 : Rat) * 4 / 1000)
    let g := s.ce.kept.gLast
    { k := k, lMeas := l, rect := rect, stor := stor, stale := stale,
      g := if stale then g else satSig (g + clampI (l - g) (-step) step), t := 0, plain := true }

/-- A published value of a storage channel as a signal. -/
def State.seSource (s : State) (ch i : Nat) : Int :=
  let c := s.chan ch
  if i = 0 then ratSig (s.soc ch)
  else if i = 1 then wattSig c.disLimit
  else if i = 2 then wattSig c.chgLimit
  else if i = 3 then ratSig (c.current / 1250)
  else if i = 4 then ratSig (c.volts / 800)
  else ratSig (((c.hotValid.getD 0 : Int) : Rat) / 10000)

/-- A node's measurement word is missing (R379): also where the node is absent. -/
def State.sourceMissing (s : State) (a w : Nat) : Bool :=
  !s.present a || (if w = 0 then s.word0Missing a || !(s.node a).word0 else s.wordMissing a w)

/-- The value of a source, and whether it is whole; `d` is the state kept before the frame and `pair` the storage reference
of the branch. -/
def State.source (s : State) (d : CeDyn) (x : CeIn) (pair : Int) (code : Nat) : Int × Bool :=
  let sub := !(x.plain && x.stale)
  if code = 0 then (0, true)
  else if 0x1000 ≤ code ∧ code < 0x1180 then
    (s.wordSignal ((code - 0x1000) / 16) (code % 16), !s.sourceMissing ((code - 0x1000) / 16) (code % 16))
  else if code = 0x2000 then (x.lMeas, !x.stale)
  else if code = 0x2001 then (x.rect, !x.stale)
  else if code = 0x2002 then (x.stor, !x.stale)
  else if code = 0x2003 then (x.g, sub)
  else if code = 0x2004 then (pair, sub)
  else if code = 0x2005 then (x.t, sub)
  else if 0x3000 ≤ code ∧ code < 0x3040 then (s.seSource ((code - 0x3000) / 8) (code % 8), true)
  else if 0x4000 ≤ code ∧ code < 0x4040 then ((d.loop (code - 0x4000)).out, true)
  else if 0x4100 ≤ code ∧ code < 0x4110 then ((d.group (code - 0x4100)).out, true)
  else if 0x5000 ≤ code ∧ code < 0x5010 then (s.sig 0x2008 (code - 0x5000 + 1), true)
  else (0, true)

/-! ## One loop's run (R285, R287 to R289, R309) -/

/-- Kp e, Kff ff and rc. -/
def State.loopTerms (s : State) (n : Nat) (e ff rc : Int) : Terms × Bool :=
  let p := mulAcc e (s.coef (0x2100 + n) 5)
  let f := mulAcc ff (s.coef (0x2100 + n) 7)
  ({ p := p.1, f := f.1, rc := rc }, p.2 || f.2)

/-- An accumulator plus the terms, formed from left to right (R281, R285). -/
def Terms.addTo (t : Terms) (a : Int) : Int × Bool :=
  let x := addAcc a t.p
  let y := addAcc x.1 t.f
  let z := addAcc y.1 t.rc
  (z.1, x.2 || y.2 || z.2)

/-- A value less the terms, formed from left to right: the integrator that would deliver it, and whether a sum saturated (R281,
R289, R293). -/
def Terms.takeFrom (t : Terms) (v : Int) : Int × Bool :=
  let x := addAcc (v * 2 ^ 31) (-t.p)
  let y := addAcc x.1 (-t.f)
  let z := addAcc y.1 (-t.rc)
  (z.1, x.2 || y.2 || z.2)

/-- An accumulator between int_min and int_max. -/
def State.intClamp (s : State) (n : Nat) (a : Int) : Int :=
  clampI a (s.sig (0x2100 + n) 10 * 2 ^ 31) (s.sig (0x2100 + n) 11 * 2 ^ 31)

/-- The term of the repetitive controller of a closed loop, at the accumulator shift: zero while it is unaligned (R305,
R306, R307). -/
def State.rcTerm (s : State) (d : CeDyn) (n : Nat) : Int × Bool :=
  match s.loopRc n with
  | none => (0, false)
  | some r =>
    let c := d.rc r
    let size := max 1 (s.odv (0x2600 + r) 1)
    if c.aligned then accSat (tabGet 0 c.table ((c.index + s.odv (0x2600 + r) 2) % size) * 2 ^ (61 - s.odv (0x2600 + r) 5))
    else (0, false)

/-- A mode command takes effect at the loop's run frame: the loop, and whether a sum saturated (R289, R291, R308). -/
def State.takeMode (s : State) (n : Nat) (l : Loop) (cmd : Nat) (ff rc : Int) : Loop × Bool :=
  let same := fun (l : Loop) => (l, false)
  let l := { l with command := none, followErr := decide (cmd = 3) && l.followErr }
  if cmd = 2 then
    if l.mode = 2 then (l, false)
    else
      let t := s.loopTerms n 0 ff rc
      let want := t.1.takeFrom l.delivered
      let i := s.intClamp n want.1
      ({ l with mode := 2, fresh := true, integ := i, limiter := l.limiter || decide (i ≠ want.1), timer := 0, fired := false,
                stale := false }, t.2 || want.2)
  else if cmd = 1 ∨ cmd = 3 then
    same { l with mode := 1, counted := false, stale := false, timer := 0, fired := false, manual := l.delivered,
                  newManual := some l.delivered, out := l.delivered }
  else same { l with mode := 0, counted := false, stale := false, timer := 0, fired := false, winner := false }

/-- The transition limiter of R288 on a computed output, from the output `base` that the loop delivered last. -/
def limitStep (l : Loop) (base want step : Int) : Int × Bool :=
  if l.limiter then
    let u := base + clampI (want - base) (-step) step
    (u, decide (step < absI (u - want)))
  else (want, false)

/-- A closed loop's run with every source whole: the loop, and whether something saturated. -/
def State.closedRun (s : State) (n : Nat) (l : Loop) (m tgt ff rc : Int) : Loop × Bool :=
  let b := 0x2100 + n
  let ramp := s.sig b 12
  let sp := if l.fresh then m else satSig (l.sp + clampI (tgt - l.sp) (-ramp) ramp)
  let e := sumSig sp (-m)
  let ki := mulAcc e.1 (s.coef b 6)
  let i0 := addAcc l.integ ki.1
  let i := s.intClamp n i0.1
  let t := s.loopTerms n e.1 ff rc
  let acc := t.1.addTo i
  let u := accSignal acc.1
  let want := clampI u.1 (s.sig b 8) (s.sig b 9)
  let o := limitStep l l.delivered want (s.sig b 13)
  let atInt := decide (i = s.sig b 10 * 2 ^ 31 ∨ i = s.sig b 11 * 2 ^ 31)
  let atOut := decide (want = s.sig b 8 ∨ want = s.sig b 9)
  let sat := e.2 || ki.2 || i0.2 || t.2 || acc.2 || u.2
  ({ l with sp := sp, fresh := false, err := e.1, integ := i, terms := t.1, out := o.1, limiter := o.2, limited := l.limiter,
            ramping := decide (sp ≠ tgt), meas := m, intLimit := atInt, outLimit := atOut,
            intRuns := sat32 l.intRuns (b2n atInt),
            outRuns := sat32 l.outRuns (b2n atOut) }, sat)

/-- An open loop's run: the manual output through the limiter, and whether a term saturated (R282, R283, R288).  DEDUCED (log
entry 37): an open member of a group takes no part in arbitration, so what it delivers, and the limiter starts from, is its
own output, while its integrator tracks the group's. -/
def State.openRun (s : State) (n : Nat) (l : Loop) (m ff : Int) : Loop × Bool :=
  let man := match l.newManual with | some v => v | none => s.sig (0x2200 + n) 2
  let l := if man = l.manual then l else { l with manual := man, limiter := true }
  let o := limitStep l (if (s.loopGroup n).isSome then l.out else l.delivered) man (s.sig (0x2100 + n) 13)
  let t := s.loopTerms n 0 ff 0
  ({ l with sp := m, err := 0, terms := t.1, out := o.1, limiter := o.2, limited := l.limiter,
            ramping := false, meas := m, intLimit := false, outLimit := false }, t.2)

/-- A frame's evaluation in progress: the state, the loops that ran, and those whose run saturated. -/
structure CeRun where
  d : CeDyn
  ran : List Nat
  /-- loops in whose run an error, accumulator, conversion or table entry saturated. R282, R305 -/
  sat : List Nat := []
  deriving DecidableEq, Repr

/-- The run of loop `n` in its run frame. -/
def State.loopRun (s : State) (d0 : CeDyn) (x : CeIn) (pair : Int) (r : CeRun) (n : Nat) : CeRun :=
  let l := r.d.loop n
  if !s.loopRuns n x.k ∨ (l.mode = 0 ∧ l.command = none) then r
  else
    let b := 0x2100 + n
    let inp := s.odv b 1
    let sps := s.odv b 2
    let ffs := s.odv b 4
    let m := s.source d0 x pair inp
    let tgt : Int × Bool := if sps = 0 then (s.sig b 3, true) else s.source d0 x pair sps
    let ff := s.source d0 x pair ffs
    let rc := s.rcTerm r.d n
    let x : Loop × Bool := match l.command with | some c => s.takeMode n l c ff.1 rc.1 | none => (l, false)
    let l := x.1
    let r := if x.2 then { r with sat := ordInsert r.sat n } else r
    if l.mode = 0 then { r with d := r.d.setLoop n (fun _ => l) }
    else if l.mode = 1 then
      let o := s.openRun n l m.1 ff.1
      { r with d := r.d.setLoop n (fun _ => o.1), ran := n :: r.ran, sat := if o.2 then ordInsert r.sat n else r.sat }
    else if !(m.2 && tgt.2 && ff.2) then
      let src := if !m.2 then inp else if !tgt.2 then sps else ffs
      let d := r.d.setLoop n (fun _ => { l with stale := true })
      if l.stale then { r with d := d }
      else { r with d := { d with seen := d.seen ||| 2, staleLog := d.staleLog ++ [(n, src)] } }
    else
      let l := if l.stale then { l with stale := false, limiter := true } else l
      let o := s.closedRun n l m.1 tgt.1 ff.1 rc.1
      { d := r.d.setLoop n (fun _ => o.1), ran := n :: r.ran, sat := if o.2 || rc.2 then ordInsert r.sat n else r.sat }

/-! ## Arbitration, the output stage and tracking (R293 to R297) -/

/-- Members of a group, ascending. -/
def State.groupLoops (s : State) (g : Nat) : List Nat := (upTo 64).filter (fun n => decide (s.loopGroup n = some g))

/-- Arbitration of one group: the lowest output of its closed and frozen members. -/
def State.arbitrate (s : State) (d : CeDyn) (g : Nat) : CeDyn :=
  let ms := s.groupLoops g
  let best := (ms.filter (fun n => decide ((d.loop n).mode = 2))).foldl (fun (b : Option Nat) n =>
    match b with
    | some w => if (d.loop n).out < (d.loop w).out then some n else b
    | none => some n) none
  let d := ms.foldl (fun (d : CeDyn) n => d.setLoop n (fun l => { l with winner := decide (best = some n) })) d
  match best with
  | some w => { d with groups := tabPut {} d.groups g { winner := w, out := (d.loop w).out } }
  | none => { d with groups := tabMod {} d.groups g (fun y => { y with winner := 0xFF }) }

/-- The value a channel's source gives; none while it has no output. -/
def State.channelIn (s : State) (d : CeDyn) (ch : Nat) : Option Int :=
  let code := s.odv (0x2400 + ch) 1
  if code < 64 then (if (d.loop code).mode = 0 then none else some (d.loop code).out)
  else if 0x100 ≤ code ∧ code < 0x110 then
    (if (d.group (code - 0x100)).winner = 0xFF then none else some (d.group (code - 0x100)).out)
  else none

/-- Limits of a channel list as signals: discharge or charge. -/
def State.limitSum (s : State) (l : List Nat) (dis : Bool) : Int :=
  (l.map (fun ch => wattSig (if dis then (s.chan ch).disLimit else (s.chan ch).chgLimit))).foldl (· + ·) 0

/-- Fast channels, and the slow ones of bulk class, among those that converters serve (R296). -/
def State.fastChans (s : State) : List Nat := s.servedChans.filter (fun ch => bitAt (s.odv 0x2003 2) ch)
def State.slowChans (s : State) : List Nat :=
  s.servedChans.filter (fun ch => !bitAt (s.odv 0x2003 2) ch && decide (s.chClass ch = 1))

/-- Share a value among channels in proportion to their limits in its direction (R297). -/
def State.shareChans (s : State) (y : Int) (l : List Nat) : Tab Int :=
  let dis := decide (0 ≤ y)
  let lim := fun ch => wattSig (if dis then (s.chan ch).disLimit else (s.chan ch).chgLimit)
  let total := (l.map lim).foldl (· + ·) 0
  l.foldl (fun t ch => tabPut 0 t ch (if total ≤ 0 then 0 else rneDiv (y * lim ch) total.toNat)) []

/-- A channel after the stage: value, hold flag and the first clamp that acted. -/
def Channel.after (c : Channel) (v : Int) (hold : Bool) (clamp : Nat) : Channel :=
  { value := v, hold := hold, clamps := sat32 c.clamps (b2n (decide (clamp ≠ 0))),
    lastClamp := if clamp ≠ 0 then clamp else if hold then 5 else 0 }

/-- The output stage of a frame. -/
def State.outputStage (s : State) (d : CeDyn) : CeDyn :=
  let gin := s.channelIn d 0
  let sin := s.channelIn d 1
  let g0 := gin.getD d.grid.value
  let hi := wattSig (min s.gridLimitW (s.rectCapacity : Rat))
  let g := clampI g0 0 (max hi 0)
  let x0 := sin.getD d.storage.value
  let swing := wattSig s.swingFast
  let x1 := clampI x0 (-swing) swing
  let x := clampI x1 (-(s.limitSum s.servedChans false)) (s.limitSum s.servedChans true)
  let sus := wattSig s.swingSustained
  let ys := satSig (d.ys + (accSignal (mulAcc (satSig (x - d.ys)) (s.coef 0x2003 1)).1).1)
  let yf := clampI (satSig (x - ys)) (-(s.limitSum s.fastChans false)) (s.limitSum s.fastChans true)
  let yo := clampI (satSig (x - yf)) (-(min (s.limitSum s.slowChans false) sus)) (min (s.limitSum s.slowChans true) sus)
  let y := satSig (yf + yo)
  let gc := if g ≠ g0 then 1 else 0
  let sc := if x1 ≠ x0 then 2 else if x ≠ x1 then 3 else if y ≠ x then 4 else 0
  let parts := (s.shareChans yo s.slowChans).foldl (fun t p => tabPut 0 t p.1 p.2) (s.shareChans yf s.fastChans)
  let rects := s.rectsIn.foldl (fun t a => tabPut 0 t a (rneDiv (g * s.ratingW a) (s.sumRating s.rectsIn))) []
  let refs := parts.foldl (fun t p =>
    (s.convsOf p.1).foldl (fun t a => tabPut 0 t a (rneDiv (p.2 * s.ratingW a) (s.sumRating (s.convsOf p.1)))) t) rects
  { d with grid := d.grid.after g gin.isNone gc, storage := d.storage.after y sin.isNone sc, ys := yo,
           parts := parts, refs := refs, seen := d.seen ||| (if gc ≠ 0 ∨ sc ≠ 0 then 4 else 0) }

/-- The channels that a loop (`false`) or group (`true`) feeds. -/
def State.feeds (s : State) (group : Bool) (n : Nat) : List Nat :=
  (upTo 2).filter (fun ch => decide (s.odv (0x2400 + ch) 1 = if group then 0x100 + n else n))

/-- A clamp acted on a channel in this frame. -/
def CeDyn.clamped (d : CeDyn) (ch : Nat) : Bool :=
  let c := if ch = 0 then d.grid else d.storage
  decide (1 ≤ c.lastClamp ∧ c.lastClamp ≤ 4)

/-- The value a channel delivers. -/
def CeDyn.channel (d : CeDyn) (ch : Nat) : Int := (if ch = 0 then d.grid else d.storage).value

/-- The value a loop tracks after the output stage; none where its own output is the one delivered. -/
def State.trackValue (s : State) (d : CeDyn) (n : Nat) : Option Int :=
  let l := d.loop n
  match s.loopGroup n with
  | some g =>
    match ((s.feeds true g).find? (fun ch => d.clamped ch)).map d.channel with
    | some v => some v
    | none =>
      if (d.group g).winner = n then none
      else if (d.group g).winner = 0xFF then some l.out
      else some (d.group g).out
  | none =>
    let chs := s.feeds false n
    match (chs.filter (fun ch => d.clamped ch) ++ chs).head? with | some ch => some (d.channel ch) | none => some l.out

/-- Tracking of one loop: at once in a run, otherwise at its next run (R293); a frozen loop holds. -/
def State.trackLoop (s : State) (r : CeRun) (n : Nat) : CeRun :=
  let l := r.d.loop n
  if l.mode = 0 ∨ l.stale then r
  else
    let u := s.trackValue r.d n
    if n ∈ r.ran then
      let u := match u with | some v => some v | none => l.track
      match u with
      | some v =>
        let want := l.terms.takeFrom v
        let i := s.intClamp n want.1
        let cut := decide (i = s.sig (0x2100 + n) 10 * 2 ^ 31 ∨ i = s.sig (0x2100 + n) 11 * 2 ^ 31)
        -- a run that meets the limit in its own sum and in its tracking counts once (R282)
        { r with
          d := r.d.setLoop n (fun l => { l with integ := i, delivered := v, track := none, intLimit := cut,
                                                intRuns := sat32 l.intRuns (b2n (cut && !l.intLimit)) })
          sat := if want.2 then ordInsert r.sat n else r.sat }
      | none => { r with d := r.d.setLoop n (fun l => { l with delivered := l.out, track := none }) }
    else
      match u with
      | some v => { r with d := r.d.setLoop n (fun l => { l with track := some v }) }
      | none => r

/-! ## Following error (R308) -/

/-- The following-error timer of a loop that has run. -/
def State.followTimer (s : State) (d : CeDyn) (n : Nat) : CeDyn :=
  let b := 0x2100 + n
  d.setLoop n (fun l =>
    if l.mode ≠ 2 ∨ s.odv b 19 = 0 then { l with timer := 0, fired := false }
    else if s.sig b 18 < absI l.err ∧ (l.winner ∨ s.loopGroup n = none) then
      { l with timer := min (l.timer + 4 * s.odv b 14) u32Max }
    else { l with timer := 0, fired := false })

/-! ## Repetitive controllers (R305 to R307) -/

/-- A nudge or a set index takes effect at the run; a set index discards a nudge. -/
def Rc.place (c : Rc) (size : Nat) : Rc :=
  match c.setIndex with
  | some v => { c with index := v % size, aligned := true, setIndex := none, nudge := none }
  | none =>
    match c.nudge with
    | some k => { c with index := (((c.index : Int) + k) % (size : Int)).toNat, nudge := none }
    | none => { c with index := c.index % size }

/-- The output stage clamps a channel of the loop, fed by it or by its group (R306). -/
def State.loopClamped (s : State) (d : CeDyn) (n : Nat) : Bool :=
  let chs := s.feeds false n ++ (match s.loopGroup n with | some g => s.feeds true g | none => [])
  chs.any (fun ch => d.clamped ch)

/-- A controller's index and table in a run frame of its loop, after the output stage: the index advances in every run frame
(R306). -/
def State.rcRun (s : State) (r : CeRun) (n k : Nat) : CeRun :=
  if !s.loopRuns n k then r
  else
    match s.loopRc n with
    | none => r
    | some q =>
      let i := 0x2600 + q
      let size := max 1 (s.odv i 1)
      let l := r.d.loop n
      let c := r.d.rc q
      let clamp := s.loopClamped r.d n
      let learn := decide (s.odv i 6 = 1) && decide (l.mode = 2) && (l.winner || decide (s.loopGroup n = none)) && !clamp &&
        !l.ramping && !l.limited && !l.stale && c.aligned && decide (n ∈ r.ran)
      let next := (c.index + 1) % size
      if learn then
        let old := tabGet 0 c.table c.index
        let kr := mulAcc l.err (s.coef i 3)
        let add : Rat := ((kr.1 : Int) : Rat) / 2 ^ 61 * 2 ^ s.odv i 5
        let want := rneRat (q32Val (s.coef i 4) * (old : Rat) + add)
        let new := clampI want (-32768) 32767
        let table := tabPut 0 c.table c.index new
        let d := r.d.setRc q (fun c =>
          { c with table := table, index := next, learning := true, valid := ordInsert c.valid (c.index / 2) })
        { r with d := d, sat := if new ≠ want ∨ kr.2 then ordInsert r.sat n else r.sat }
      else { r with d := r.d.setRc q (fun c => { c with index := next, learning := false }) }

/-! ## One evaluation of a frame -/

/-- Count each saturated run once, with SAT_SEEN (R282, R313). -/
def CeRun.counted (r : CeRun) : CeDyn :=
  let d := r.sat.foldl (fun (d : CeDyn) n => d.setLoop n (fun l => { l with satRuns := sat32 l.satRuns 1 })) r.d
  if r.sat = [] then d else { d with seen := d.seen ||| 8 }

/-- The evaluation of a frame on `d`, with `pair` as the storage reference; loops run unless the CE waits for a first
measurement. -/
def State.evaluate (s : State) (d : CeDyn) (x : CeIn) (pair : Int) (run : Bool) : CeDyn :=
  let d1 := { d with gLast := x.g, plain := x.plain, seen := 0, staleLog := [] }
  let d1 := (upTo 4).foldl (fun (d : CeDyn) q =>
    match s.rcLoop q with
    | some n => if s.loopRuns n x.k then d.setRc q (fun c => c.place (max 1 (s.odv (0x2600 + q) 1))) else d
    -- no loop names the controller: a set index waits for no run
    | none => d.setRc q (fun c => if c.setIndex.isSome then c.place (max 1 (s.odv (0x2600 + q) 1)) else c)) d1
  let r : CeRun := if run then (upTo 64).foldl (s.loopRun d x pair) { d := d1, ran := [] } else { d := d1, ran := [] }
  let d2 := (upTo 16).foldl s.arbitrate r.d
  let d3 := s.outputStage (r.ran.foldl s.followTimer d2)
  let r3 : CeRun := if run then (upTo 64).foldl s.trackLoop { r with d := d3 } else { r with d := d3 }
  ((upTo 64).foldl (fun r n => s.rcRun r n x.k) r3).counted

/-- Some node has returned a measurement in this frame (R311). -/
def State.anyFresh (s : State) : Bool := s.presentNodes.any (fun a => (s.node a).fresh)

/-- L_meas at the last snapshot before a module time, of those remembered. -/
def State.lBeforeAt (s : State) (t : Nat) : Option Int :=
  (s.ce.lPast.find? (fun e => decide (4000 * e.1 + 2400 < t))).map (·.2)

/-- How far L_meas has moved since the step time, for the measurement condition of R302, at the snapshot of frame `k`. -/
def State.stepWatch (s : State) (k : Nat) (l : Int) : State :=
  let s := { s with ce := { s.ce with lPast := ((k, l) :: s.ce.lPast).take 8 } }
  if s.ce.stepId = 0 then s
  else if 4000 * k + 2400 < s.ce.stepAt then { s with ce := { s.ce with lBefore := some l, stepMove := none } }
  else { s with ce := { s.ce with stepMove := s.ce.lBefore.map (fun b => l - b) } }

/-- The loop counts as closed (R290). -/
def State.loopClosed (s : State) (n : Nat) : Bool := (s.ce.kept.loop n).counted || (s.ce.kept.loop n).mode == 2

/-- Some closed loop takes the storage reference pair as its feed-forward (R290, R301). -/
def State.pairUsed (s : State) : Bool :=
  (upTo 64).any (fun n => s.loopClosed n && decide (s.odv (0x2100 + n) 4 = 0x2004))

/-- Act on the damaged SRAM words of the SIOD that a block reads: those at addresses of which `p` holds (R204, R212, R213). -/
def State.siodWords (s : State) (p : Nat → Bool) : State :=
  let odd := (s.oddWords (fun a => decide (a = .siod)) 0 (33 * 2 ^ 20)).filter (fun w => p w.1)
  let s := odd.foldl (fun s w => s.sramVote w.1) s
  s.sramAct (odd.map (fun w => (w.1, s.sramMeets w.1)))

/-- A block reads its SRAM: macros `lo` to `hi − 1`. -/
def State.siodRead (s : State) (lo hi : Nat) : State := s.siodWords (fun a => decide (lo ≤ a / 2 ^ 20 ∧ a / 2 ^ 20 < hi))

/-- The word of a controller's table region that holds entry `i`: its address, macro × 1 MiB + offset (R304). -/
def entryWord (r i : Nat) : Nat := (768 + 2 * r) * 2 ^ 20 + i / 2 * 4

/-- The two table entries of a word, at an address from `entryWord`. -/
def CeDyn.tableWord (d : CeDyn) (a : Nat) : Nat :=
  let x := a - 768 * 2 ^ 20
  let t := (d.rc (x / 2 ^ 21)).table
  let i := 2 * (x % 2 ^ 21 / 4)
  unsigned 16 (tabGet 0 t i) + (unsigned 16 (tabGet 0 t (i + 1))) <<< 16

/-- Put a word into a controller's table. -/
def CeDyn.setTableWord (d : CeDyn) (a v : Nat) : CeDyn :=
  let x := a - 768 * 2 ^ 20
  let i := 2 * (x % 2 ^ 21 / 4)
  d.setRc (x / 2 ^ 21) (fun c =>
    { c with table := tabPut 0 (tabPut 0 c.table i (signed 16 v)) (i + 1) (signed 16 (v >>> 16)) })

/-- Controllers' tables as a read delivers their words: a word whose valid bit is lost reads zero, and one with more bits flipped
than the code corrects may be delivered changed (R204, R207). -/
def State.asRead (s : State) (p : Nat → Bool) (d : CeDyn) : CeDyn :=
  let odd := ((s.oddWords (fun a => decide (a = .siod)) 0 (8 * 2 ^ 20)).map (·.1)).filter p
  odd.foldl (fun (d : CeDyn) w => match s.sramMeets w with
    | none => d.setTableWord w 0
    | some e => d.setTableWord w (d.tableWord w ^^^ e.residual)) d

/-- The table words that the controllers read in the frame of a snapshot: the entry of the term, and the one that a learning
run changes (R305, R306). -/
def State.tableWords (s : State) : List Nat :=
  (upTo 4).flatMap (fun r =>
    let c := s.ce.kept.rc r
    let size := max 1 (s.odv (0x2600 + r) 1)
    match s.rcLoop r with
    | some n => if c.aligned && s.loopRuns n s.frame then
        [entryWord r ((c.index + s.odv (0x2600 + r) 2) % size), entryWord r c.index] else []
    | none => [])

/-- The table words that a branch has written: an entry learned is merged into its word, which is written whole (R211). -/
def State.learnedWords (s : State) (d : CeDyn) : List Nat :=
  (upTo 4).filterMap (fun r =>
    let size := max 1 (s.odv (0x2600 + r) 1)
    if (d.rc r).learning ∧ (d.rc r).index ≠ (s.ce.kept.rc r).index then some (entryWord r (((d.rc r).index + size - 1) % size)) else none)

/-- A branch of the frame: it works on the tables as they are read, and writes the words that it learns; a read writes nothing
back (R212). -/
def State.branch (s : State) (x : CeIn) (ws : List Nat) (value : Int) (run : Bool) : CeDyn :=
  let d := s.evaluate (s.asRead (fun a => decide (a ∈ ws)) s.ce.kept) x value run
  let left := ws.filter (fun a => decide (a ∉ s.learnedWords d ∧ (s.asRead (· == a) s.ce.kept).tableWord a ≠ s.ce.kept.tableWord a))
  left.foldl (fun (d : CeDyn) a => d.setTableWord a (s.ce.kept.tableWord a)) d

/-- CE_SNAPSHOT: the frame's branches.  The CE reads its state, SRAM regions 8 to 15 of the CE, in every frame, and the table
entries of the controllers whose loops run (R304). -/
def State.ceSnapshot (s : State) : State :=
  if !s.ceRuns then s
  else
    let x := s.snapshot s.frame
    let run := !s.ce.awaitMeas
    let s := if s.ce.awaitMeas && s.anyFresh then { s with ce := { s.ce with awaitMeas := false } } else s
    let ws := s.tableWords
    let s := ((s.stepWatch s.frame x.lMeas).siodRead 776 784).siodWords (fun a => decide (a ∈ ws))
    let s := { s with ce := { s.ce with lMeas := x.lMeas, lStale := x.stale } }
    match s.ce.record with
    | some m =>
      let r := recordSignals m
      let s0 := r.2.2.1
      let s1 := r.2.2.2
      let a := s.branch x ws s0 run
      if m.step ≠ 0 ∧ s1 ≠ s0 ∧ s.pairUsed then
        { s with ce := { s.ce with branchA := some a, branchB := some (s.branch x ws s1 run) } }
      else { s with ce := { s.ce with branchA := some a, branchB := none } }
    | none =>
      let a := s.branch x ws (satSig (x.lMeas - x.g)) run
      { s with ce := { s.ce with branchA := some a, branchB := none } }

/-! ## The boundary (R298, R302, R303) -/

/-- A change of a step enters the CE from a record, and its saturation is counted (R280, R302). -/
def State.stepEnters (s : State) (e : Option Event) : State :=
  match e with
  | some e => if signalSat e.change then s.count 0x2001 7 else s
  | none => s

/-- The records present are taken, with their credits (R168): the newest, and what they say of the step named. -/
def State.takeRecords (s : State) : State × Option Merged :=
  let rs := s.te.mergeQ
  let s := { s with te := { s.te with mergeQ := [], credits := tabMod 0 s.te.credits (2 * 128) (· - rs.length) } }
  let s := rs.foldl (fun s m =>
    let ev : Option Event := m.events.find? (fun (e : Event) => decide (e.ident = s.ce.stepId ∧ s.ce.stepId ≠ 0))
    let s := s.stepEnters ev
    { s with ce := { s.ce with
      newest := some m,
      named := s.ce.named.map (fun (x : Nat × Nat × Bool) => (x.1, x.2.1, x.2.2 || m.events.any (fun (e : Event) => decide (e.ident = x.1 ∧ e.state = 1)))),
      stepChange := match ev with | some e => toSignal e.change | none => s.ce.stepChange } }) s
  (s, rs.getLast?)

/-- Keep a branch: its state becomes the CE's, with its sticky bits and log entries. -/
def State.keep (s : State) (d : CeDyn) (b : Bool) : State :=
  let s := (s.sramRewrite (s.learnedWords d)).wroteSiod 776 784
  let s := d.loops.foldl (fun s p =>
    match p.2.newManual with
    | some v => s.odPut (okey (0x2200 + p.1) 2) (q32Raw (sigQ v))
    | none => s) s
  let loops := tabMap {} (fun (l : Loop) => { l with newManual := none }) d.loops
  let s := { s with ce := { s.ce with
    kept := { d with loops := loops, seen := 0, staleLog := [] }, lastB := b, lKept := s.ce.lMeas, branchA := none, branchB := none,
    staleSeen := s.ce.staleSeen || bitAt d.seen 1, clampSeen := s.ce.clampSeen || bitAt d.seen 2,
    satSeen := s.ce.satSeen || bitAt d.seen 3,
    toMerge := if s.ce.lStale then s.ce.toMerge else some s.ce.lMeas } }
  let s := d.staleLog.foldl (fun s e => s.logEvent 0x2002 (packBytes [(1, e.1), (1, 0), (2, e.2)])) s
  if d.plain then s.count 0x2001 4 else s

/-- The step named has been CONFIRMED in a record taken since it was first named (R302). -/
def State.stepSure (s : State) : Bool :=
  match tabFind s.ce.named s.ce.stepId with | some x => x.2 | none => false

/-- L_meas had moved by half of the step's change, as the newest record that lists the step gives it, in its direction
(R302). -/
def State.stepSeen (s : State) : Bool :=
  let c := s.ce.stepChange
  match s.ce.stepMove with
  | some m => if 0 < c then decide (c ≤ 2 * m) else if c < 0 then decide (2 * m ≤ c) else false
  | none => false

/-- The selection at the boundary that begins frame `s.frame` (R302). -/
def State.selectBranch (s : State) : State :=
  match s.ce.branchA with
  | none => s
  | some a =>
    match s.ce.branchB with
    | none => s.keep a false
    | some b =>
      let due := decide (s.ce.stepAt < 4000 * (s.frame + 1))
      if due && (s.stepSure || s.stepSeen) then
        let s := (s.keep b true).count 0x2001 2
        if s.stepSure then s else s.count 0x2001 3
      else s.keep a false

/-- Branches are discarded (R303). -/
def State.dropBranches (s : State) : State := { s with ce := { s.ce with branchA := none, branchB := none } }

/-- A transition starts the limiter of every loop that reads the forecast sources (R288). -/
def State.limitForecastLoops (s : State) : State :=
  let reads := fun n => [2, 4].any (fun k => decide (0x2003 ≤ s.odv (0x2100 + n) k ∧ s.odv (0x2100 + n) k ≤ 0x2005))
  let ns := (upTo 64).filter (fun n => decide ((s.ce.kept.loop n).mode ≠ 0) && reads n)
  { s with ce := { s.ce with kept := ns.foldl (fun (d : CeDyn) n => d.setLoop n (fun l => { l with limiter := true })) s.ce.kept } }

/-- The step that a record in use names (R301, R302). -/
def State.commitStep (s : State) (m : Merged) : State :=
  let at_ := 1000 * (m.frame + 1) + m.stepTime
  let ev : Option Event := m.events.find? (fun (e : Event) => decide (e.ident = m.step))
  let change := match ev with | some e => toSignal e.change | none => s.ce.stepChange
  -- the change of a step that was named before has entered as the record was taken
  let s := if m.step = s.ce.stepId then s else s.stepEnters ev
  if m.step = 0 then { s with ce := { s.ce with stepId := 0, lBefore := none, stepMove := none } }
  else
    let sure := ev.any (fun (e : Event) => decide (e.state = 1)) || (match tabFind s.ce.named m.step with | some (_, b) => b | none => false)
    let live := s.ce.named.filter (fun (x : Nat × Nat × Bool) => decide (4000 * s.frame < x.2.1 + 8000))
    { s with ce := { s.ce with stepId := m.step, stepAt := at_, stepChange := change,
                               named := tabInsert live m.step (at_, sure),
                               lBefore := s.lBeforeAt at_,
                               stepMove := if m.step = s.ce.stepId then s.ce.stepMove else none } }

/-- The record is committed for the frame that begins (R298), with the step it names (R302). -/
def State.commitRecord (s : State) (taken : Option Merged) : State :=
  let use : Option Merged := match taken with
    | some m => if m.profile = s.profile ∧ bitAt m.flags 0 then some m else none
    | none => none
  let s := match taken with
    | some m => if m.profile = s.profile then s else s.count 0x2001 5
    | none => s.count 0x3030 1
  let s := match use with
    | some m => s.count 0x2001 7 (([m.g, m.t, m.s0, m.s1].filter signalSat).length)
    | none => s
  let s := match use with
    | some m => s.commitStep m
    | none => s
  let s := if s.ce.profileChanged ∧ use.isNone ≠ s.ce.kept.plain then
      let s := s.limitForecastLoops
      { s with ce := { s.ce with profileChanged := false } }
    else s
  { s with ce := { s.ce with record := use } }

/-! ## Restart (R310, R311) -/

/-- Every loop at its start mode, as a command for its first run. -/
def State.startModes (s : State) : Tab Loop :=
  (upTo 64).foldl (fun t n =>
    let m := s.odv (0x2100 + n) 21
    if m = 0 then t else tabPut {} t n { command := some m, counted := decide (m = 2), limiter := true }) []

/-- CE state without a checkpoint: start modes, everything else as at SIOD power-on; tables and table generations stay. -/
def State.ceCold (s : State) : CeDyn :=
  { loops := s.startModes, plain := s.ce.kept.plain,
    groups := tabMap {} (fun (g : Group) => { out := g.out }) s.ce.kept.groups,
    rcs := tabMap {} (fun (c : Rc) => { c with table := [], aligned := false, learning := false, nudge := none, setIndex := none,
                                               index := 0, mask := 0 }) s.ce.kept.rcs }

/-! ## Commands (R291, R307, R308) -/

/-- A mode command is accepted: it waits for the loop's next run frame. -/
def State.loopCommand (s : State) (n mode : Nat) : State :=
  s.ceAll (fun d => d.setLoop n (fun l => { l with command := some mode, counted := l.counted || decide (mode = 2) }))

/-- FOLLOWING_ERROR_TIMEOUT: while an input is frozen the timer is not evaluated; the opening of action 1 replaces a command
that waits (R291, R308). -/
def State.followTimeout (s : State) (n : Nat) : State :=
  let l := s.ce.kept.loop n
  let b := 0x2100 + n
  if !s.ceRuns ∨ 64 ≤ n ∨ s.odv b 19 = 0 ∨ l.timer < s.odv b 19 ∨ l.fired ∨ l.mode ≠ 2 ∨ l.stale then s
  else
    let mark := fun (l : Loop) => { l with followErr := true, fired := true, followCount := sat32 l.followCount 1,
                                           command := if s.odv b 20 = 1 then some 3 else l.command }
    let s := s.ceAll (fun d => d.setLoop n mark)
    let s := { s with ce := { s.ce with followSeen := true } }
    (s.logEvent 0x2001 (packBytes [(1, n), (3, 0), (4, unsigned 32 l.sp), (4, unsigned 32 l.meas)])).raise irqControl

/-- A controller's table is cleared: its generation advances and its slice mask is cleared (R307, R516). -/
def State.clearTable (s : State) (r : Nat) : State :=
  s.ceAll (fun d => d.setRc r (fun c => { c with table := [], generation := (c.generation + 1) % 2 ^ 32, mask := 0 }))

/-- State of a repetitive controller, OD 0x2600 + r .0B. -/
def State.rcState (s : State) (r : Nat) : Nat :=
  let c := s.ce.kept.rc r
  if !c.aligned then 3 else if c.learning then 1
  else if s.odv (0x2600 + r) 6 = 1 ∧ (s.rcLoop r).isSome then 2 else 0

/-- Flags of a loop, OD 0x2200 + n .08 (R314). -/
def Loop.flags (l : Loop) : Nat :=
  b2n l.stale + 2 * b2n l.followErr + 4 * b2n l.limiter + 8 * b2n l.ramping + 16 * b2n l.winner + 32 * b2n l.intLimit +
  64 * b2n l.outLimit

/-- Number of closed loops. -/
def CeDyn.closed (d : CeDyn) : Nat := (d.loops.filter (fun p => decide (p.2.mode = 2))).length

/-- CE_FRAME_STATUS (R313). -/
def State.ceStatus (s : State) : Nat :=
  b2n s.ceRuns + 2 * b2n s.ce.holding + 4 * b2n s.ce.kept.plain + 8 * b2n s.ce.lastB + (s.ce.kept.closed % 128) <<< 8 +
  (b2n s.ce.followSeen) <<< 16 + (b2n s.ce.staleSeen) <<< 17 + (b2n s.ce.clampSeen) <<< 18 + (b2n s.ce.satSeen) <<< 19

end Sys2Proof.Machine
end

