-- ==== Sys2Proof/Machine/Ferry.lean ====
section
/-! DEFINITION. The Ferry links and the peer lane: frames and fragments, training, attachments and epochs, hint records,
grant records, downstream crossings and publications (R315 to R348, R369 to R373). -/

namespace Sys2Proof.Machine

open Sys2Proof

/-! ## Links (R322, R344) -/

/-- Mode of a link: 0 off, 1 landings, 2 peer; the peer lane is link 48. -/
def State.linkMode (s : State) (l : Nat) : Nat := if l = 48 then 2 else item 1 (s.odv 0x9001 0) l

/-- The link runs in peer mode. -/
def State.peerLink (s : State) (l : Nat) : Bool := decide (s.linkMode l = 2)

def State.linkIsUp (s : State) (l : Nat) : Bool := decide (l < 49) && decide ((s.link l).st = 4)

/-- Shelf position and slot of the module's identity (R50, R340). -/
def State.shelfPos (s : State) : Nat := fld s.power.slotId 1 3
def State.slotNo (s : State) : Nat := s.power.slotId % 2

/-- Message state of a berth. -/
def State.berth (s : State) (l b : Nat) : Berth := tabGet {} s.ferry.berths (l * 128 + b)
def State.setBerth (s : State) (l b : Nat) (f : Berth → Berth) : State :=
  { s with ferry := { s.ferry with berths := tabMod {} s.ferry.berths (l * 128 + b) f } }

/-- The landing attached at a berth. -/
def State.landingAt (s : State) (l b : Nat) : Option Nat :=
  (s.ferry.landings.find? (fun p => decide (p.2.place = some (l, b)))).map (·.1)

/-- Berths attached on a link (R347). -/
def State.berthsOn (s : State) (l : Nat) : Nat :=
  (s.ferry.landings.filter (fun p => match p.2.place with | some q => decide (q.1 = l) | none => false)).length

/-- A frame is dropped under R329 and counted under the given subindex. -/
def State.frameDrop (s : State) (l sub : Nat) : State :=
  (s.count (0x9100 + l) sub).setLink l (fun x => { x with dropSeen := true })

/-- Links in mode 1 or 2 go to DOWN when the Ferry service starts (R81, R322). -/
def State.startLinks (s : State) : State :=
  (upTo 49).foldl (fun s l => s.setLink l (fun x => { x with st := if s.linkMode l = 0 then 0 else 1 })) s

/-- The messages of a link are lost: frames in assembly count as fragment errors (R346). -/
def State.clearBerths (s : State) (l : Nat) : State :=
  let mine := s.ferry.berths.filter (fun p => decide (p.1 / 128 = l))
  let s := mine.foldl (fun s p => if p.2.rx.isSome then s.frameDrop l 12 else s) s
  { s with ferry := { s.ferry with
    berths := s.ferry.berths.filter (fun p => decide (p.1 / 128 ≠ l)),
    peerQ := s.ferry.peerQ.filter (fun q => decide (q.1 ≠ l)) } }

/-- A link goes to DOWN, or to OFF in mode 0: from UP, counted, logged and signalled (R323). -/
def State.dropLink (s : State) (l cause : Nat) : State :=
  let up := s.linkIsUp l
  let s := s.clearBerths l
  let s := s.setLink l (fun x => { x with st := if s.linkMode l = 0 then 0 else 1, training := false, peerNo := none })
  if up then
    let s := s.count (0x9100 + l) 4
    let s := s.setLink l (fun x => { x with downSeen := true })
    (s.logEvent 0x9001 (packBytes [(1, l), (1, cause)])).raise irqFerry
  else s

/-- A link's mode changes in OD 0x9001 (R323, R346): its attachments end at the next boundary. -/
def State.modeChanged (s : State) (l : Nat) : State :=
  if s.services then (s.dropLink l 4).setLink l (fun x => { x with endOld := true }) else s

/-- The SerDes PLL unlocks (R73): every link and the peer lane go down. -/
def State.serdesLost (s : State) : State :=
  let s := { s with clk := { s.clk with serdes := false } }
  (upTo 49).foldl (fun s l => if (s.link l).st ≤ 1 then s.setLink l (fun x => { x with training := false }) else s.dropLink l 3) s

/-- Links train in this state. -/
def State.linkTrains (s : State) (l : Nat) : Bool :=
  s.services && s.clk.serdes && decide (l < 49) && decide (s.linkMode l ≠ 0)

/-- LINK_SIGNAL_DETECTED. -/
def State.linkSignal (s : State) (l : Nat) : State :=
  if s.linkTrains l && decide ((s.link l).st = 1) then s.setLink l (fun x => { x with training := true }) else s

/-- LINK_CODE_LOCK. -/
def State.linkCode (s : State) (l : Nat) : State :=
  if s.linkTrains l && (s.link l).training && decide ((s.link l).st = 1) then s.setLink l (fun x => { x with st := 2 }) else s

/-- LINK_CROSSING_LOCK. -/
def State.linkCrossing (s : State) (l : Nat) : State :=
  if s.linkTrains l && decide ((s.link l).st = 2) then s.setLink l (fun x => { x with st := 3 }) else s

/-- LINK_UP: φ puts the end of the last window between 100 ns and 400 ns before the release instant of R325; the point
within that range, and the phase of a peer connection, are open (log entry 1). -/
def State.linkUp (s : State) (l roundTrip : Nat) : State :=
  if s.linkTrains l && decide ((s.link l).st = 3) then
    let d := s.draw
    let margin := 100 + d.1 % 301
    let phase : Nat := if s.peerLink l then d.1 % 1000 else ((500 - (margin : Int) - (roundTrip : Int)) % 1000).toNat
    d.2.setLink l (fun x => { x with st := 4, training := false, roundTrip := roundTrip, phase := phase, endOld := true })
  else s

/-- LINK_TRAINING_TIMEOUT: training is abandoned and restarts from DOWN. -/
def State.linkTimeout (s : State) (l : Nat) : State :=
  let x := s.link l
  if s.linkTrains l && decide (x.st < 4) && (x.training || decide (2 ≤ x.st))
  then s.setLink l (fun x => { x with st := 1, training := false }) else s

/-! ## Frames (R326 to R329) -/

/-- A frame: header, payload and CRC-32. -/
def frameOf (typ units berth : Nat) (payload : Blob) : Blob :=
  let h := packBytes [(1, typ), (1, units), (1, berth), (1, 0), (4 * units, payload)]
  h + crc32 (4 + 4 * units) h <<< (8 * (4 + 4 * units))

/-- Length in bytes of a frame of `units`. -/
def frameLen (units : Nat) : Nat := 8 + 4 * units

/-- Number of fragments of a frame of `units`. -/
def fragmentsOf (units : Nat) : Nat := ceilDiv (frameLen units) 20

/-- Length in units of each frame type (R327, R512). -/
def unitsOf (typ : Nat) : Nat :=
  if typ = 0x01 ∨ typ = 0x02 then 16 else if typ = 0x10 ∨ typ = 0x11 then 2 else if typ = 0x12 then 1
  else if typ = 0x20 ∨ typ = 0x40 then 4 else if typ = 0x30 then 33 else if typ = 0x31 then 18
  else if typ = 0x42 then 3 else 2

/-- A received frame's type is allowed in its slot, direction and link mode (R327, R344, R373). -/
def State.typeAllowed (s : State) (l b typ : Nat) (record : Bool) : Bool :=
  if record then decide (typ = 0x01) && !s.peerLink l
  else if s.peerLink l then
    decide (b = 0) && (decide (typ = 0x30 ∨ typ = 0x31) || (decide (l = 48) && decide (0x40 ≤ typ ∧ typ ≤ 0x43)))
  else decide (typ = 0x10 ∨ typ = 0x12)

/-- The checks of R329 on a frame of which `n` bytes were received: the subindex that counts the first failure, or 0. -/
def State.frameCheck (s : State) (l b n : Nat) (f : Blob) (record : Bool) : Nat :=
  let typ := bytesAt f 0 1
  let units := bytesAt f 1 1 % 64
  if 60 < units then 8
  else if n < frameLen units ∨ bytesAt f (4 + 4 * units) 4 ≠ crc32 (4 + 4 * units) (bytesAt f 0 (4 + 4 * units)) then 9
  else if !s.typeAllowed l b typ record then 11
  else if units ≠ unitsOf typ then 8
  else if bytesAt f 2 1 % 128 ≠ b then 10
  else if bytesAt f 1 1 / 64 ≠ 0 ∨ bytesAt f 2 1 / 128 ≠ 0 ∨ bytesAt f 3 1 ≠ 0 then 11
  else 0

/-- A message slot of a received crossing (R328): a completed frame that passes its checks acts through its own command
row; one that fails is counted. -/
def State.fragment (s : State) (l b : Nat) (msg : Blob) (lost : Bool) : State :=
  let h := bytesAt msg 0 1
  let first := bitAt h 0
  let last := bitAt h 1
  let here := bitAt h 2 && !lost
  let index := bytesAt msg 1 1
  let body := bytesAt msg 2 20
  let old := (s.berth l b).rx
  let quit := fun (s : State) => s.setBerth l b (fun x => { x with rx := none })
  let take := fun (s : State) (a : Assembly) =>
    let units := bytesAt a.data 1 1 % 64
    if 60 < units then (quit s).frameDrop l 8
    else if last ≠ decide (a.next = fragmentsOf units) then (quit s).frameDrop l 12
    else if last then
      let c := s.frameCheck l b a.len a.data false
      if c = 0 then quit s else (quit s).frameDrop l c
    else s.setBerth l b (fun x => { x with rx := some a })
  if !here then (if old.isSome then (quit s).frameDrop l 12 else s)
  else if first then
    let s := if old.isSome then (quit s).frameDrop l 12 else s
    if index = 0 then take s { data := body, len := 20, next := 1 } else s.frameDrop l 12
  else
    match old with
    | none => s
    | some a =>
      if index = a.next then take s { data := a.data + body <<< (8 * a.len), len := a.len + 20, next := a.next + 1 }
      else (quit s).frameDrop l 12

/-! ## Hint records (R333 to R337, R343) -/

/-- An announcement breaks R337, at release time `t` ns; an empty one has no event, and so no event time. -/
def announceBad (t : Nat) (a : Blob) : Bool :=
  let w := bytesAt a 0 4
  let ahead := signed 32 (unsigned 32 ((bytesAt a 4 4 : Int) - (t : Int)))
  decide (fld w 24 2 = 3 ∨ 4 < fld w 26 4 ∨ fld w 30 2 ≠ 0 ∨ (fld w 0 24 ≠ 0 ∧ 2000000000 < ahead))

/-- A hint record breaks the layout of R336 and R337. -/
def hintBad (t : Nat) (r : Blob) : Bool :=
  decide (bytesAt r 4 1 ≠ 1 ∨ bytesAt r 5 1 / 8 ≠ 0 ∨ 4 < bytesAt r 0x10 1 ∨ bytesAt r 0x11 3 ≠ 0 ∨
    bytesAt r 0x1F 1 ≠ 0) || announceBad t (bytesAt r 0x20 16) || announceBad t (bytesAt r 0x30 16)

/-- The highest grant sent to a landing in the 16 µs before `t` (R343). -/
def Landing.permitted (x : Landing) (t : Nat) : Nat :=
  ((x.sent.filter (fun g => decide (g.1 ≤ t ∧ t ≤ g.1 + 16000))).map (·.2)).foldl max 0

/-- Supervision of the frequency in effect (R343). -/
def State.complyCheck (s : State) (l link t : Nat) : State :=
  let x := s.landing l
  let p := x.permitted t
  if x.cGrant = 0 then s.setLanding l (fun x => { x with overRun := 0, withinRun := 0, nonCompliant := false })
  else if p = 0 ∨ x.frequency ≤ p then
    s.setLanding l (fun x =>
      let w := min (x.withinRun + 1) 10000
      { x with overRun := 0, withinRun := w, nonCompliant := x.nonCompliant && decide (w < 10000) })
  else
    let over_ := min (x.overRun + 1) 100
    let s := s.setLanding l (fun x => { x with overRun := over_, withinRun := 0 })
    if over_ = 100 ∧ !x.nonCompliant then
      let s := (s.setLanding l (fun x => { x with nonCompliant := true })).count 0x9020 4
      let s := s.setLink link (fun y => { y with nonCompSeen := true })
      (s.logEvent 0x9002 l).raise irqFerry
    else s

/-- The copy of an accepted record for the Compute Die enters the INTAKE toll of its cluster, stamped with the open frame
(R162, R223, R224, R335). -/
def State.routeRecord (s : State) (l : Nat) (r : Blob) : State :=
  let e := item 2 (s.effv 0x3002 0) l
  let n := fld e 0 10
  let row := fld e 10 3
  let t := s.stream n
  if !s.cd.running || decide (s.mode = .standbyCold ∨ s.mode = .takeover) then s
  else if !bitAt e 15 ∨ !t.loaded ∨ (s.model t.model).rows ≤ row then s.count 0x3030 8
  else
    match t.slot with
    | none => s
    | some k =>
      let cluster := k / 64
      if 1024 ≤ tabGet 0 s.te.credits cluster then s.count 0x3210 1
      else
        let item : IntakeItem := { cluster := cluster, stream := n, row := row, frame := s.intake, record := r }
        { s with te := { s.te with intakeQ := s.te.intakeQ ++ [item], credits := tabMod 0 s.te.credits cluster (· + 1) } }

/-- A hint record in the window of a berth is accepted or dropped (R333, R335, R337). -/
def State.hintRecord (s : State) (link b : Nat) (r : Blob) : State :=
  let l := bytesAt r 0 2
  let t := s.timeNs + 500
  if (s.landing l).place ≠ some (link, b) ∨ bytesAt r 2 2 ≠ (s.landing l).epoch then
    ((s.count 0x9020 1).count (0x9100 + link) 7).setLink link (fun x => { x with staleSeen := true })
  else if hintBad t r then s.count (0x9100 + link) 15
  else
    let s := s.setLanding l (fun x =>
      { x with lastAcc := s.intake + 1, hereAcc := s.intake + 1, status := bytesAt r 5 1, power := bytesAt r 8 4,
               frequency := bytesAt r 0xC 2, ceiling := bytesAt r 0xE 2, ceilCause := bytesAt r 0x10 1,
               wheyCap := bytesAt r 0x14 4, wheyPower := bytesAt r 0x18 4, barrier := bytesAt r 0x1C 3 })
    ((s.bmRecord l).complyCheck l link t).routeRecord l r

/-- A record slot of a received crossing. -/
def State.recordSlot (s : State) (l b : Nat) (slot : Blob) (lost : Bool) : State :=
  if lost ∨ bytesAt slot 0 1 = 0 then s
  else
    let c := s.frameCheck l b 76 (bytesAt slot 0 76) true
    if c = 0 then s.hintRecord l b (bytesAt slot 4 64) else s.frameDrop l c

/-- CROSSING_RELEASE (R317, R325): the windows of one upstream crossing, in ascending berth. -/
def State.crossingRelease (s : State) (l corrected bad : Nat) (ws : List Window) : State :=
  if !s.services ∨ 49 ≤ l ∨ (s.link l).st < 2 then s
  else
    let s := (s.count (0x9100 + l) 5 corrected).count (0x9100 + l) 6 bad
    let s := if 0 < bad then s.setLink l (fun x => { x with uncorrSeen := true }) else s
    if s.linkIsUp l then
      (upTo 128).foldl (fun s b =>
        match ws.find? (fun w => decide (w.berth = b)) with
        | some w => (s.recordSlot l b w.record w.uncorrectable).fragment l b w.msg w.uncorrectable
        | none => s.fragment l b 0 true) s
    else s

/-! ## Attachments (R330 to R334) -/

/-- Status of an ATTACH request (R330). -/
def State.attachStatus (s : State) (link b : Nat) (p : Blob) : Nat :=
  let l := bytesAt p 0 2
  let flags := bytesAt p 2 1
  let pend := s.ferry.changes.filter (fun c => c.attach)
  if 6143 < l ∨ flags / 2 ≠ 0 ∨ bytesAt p 3 5 ≠ 0 then stRange
  else if !bitAt (item 8 (s.odv 0x9010 0) l) link then stAccess
  else if (match s.landingAt link b with | some k => decide (k ≠ l) | none => false) ||
      pend.any (fun c => decide (c.link = link ∧ c.berth = b ∧ c.landing ≠ l)) then stState
  else if pend.any (fun c => decide (c.landing = l)) then stState
  else
    match (s.landing l).place with
    | some q => if q ≠ (link, b) ∧ s.linkIsUp q.1 ∧ s.recent (s.landing l).hereAcc ∧ !bitAt flags 0 then stState else stOk
    | none => stOk

/-- A landing link that is UP takes ATTACH and DETACH frames. -/
def State.takesAttach (s : State) (link b : Nat) : Bool :=
  s.services && s.linkIsUp link && !s.peerLink link && decide (b < 128)

/-- ATTACH. -/
def State.attachReq (s : State) (link b : Nat) (p : Blob) : State :=
  if !s.takesAttach link b then s
  else
    let l := bytesAt p 0 2
    let st := s.attachStatus link b p
    if st = stOk then
      { s with ferry := { s.ferry with changes := s.ferry.changes ++ [{ attach := true, landing := l, link := link, berth := b }] } }
    else
      (s.count 0x9020 2).setBerth link b (fun x => { x with acks := x.acks ++ [(l, st, (s.landing l).epoch)] })

/-- DETACH. -/
def State.detachReq (s : State) (link b : Nat) (p : Blob) : State :=
  if !s.takesAttach link b then s
  else
    let l := bytesAt p 0 2
    if (s.landing l).place = some (link, b) then
      { s with ferry := { s.ferry with changes := s.ferry.changes ++ [{ attach := false, landing := l, link := link, berth := b }] } }
    else s.count 0x9020 2

/-! ## Grant content (R237, R264, R338, R339) -/

/-- The whey level the newest record gives a landing, its start, and whether the step it assumes is a rise. -/
def State.wheyEntry (s : State) (l now : Nat) : Nat × Nat × Bool :=
  match s.ce.newest with
  | some m =>
    let e := item 2 (s.effv 0x3002 0) l
    if s.profile = 3 ∨ !bitAt e 15 then (0, now, false)
    else
      let w := tabGet (0, u32Max) m.whey (fld e 0 10)
      let rise := (m.events.find? (fun x => decide (x.ident = m.step ∧ m.step ≠ 0))).any (fun x => decide (0 < x.change.v))
      (w.1, if w.2 = u32Max then now else 1000 * (m.frame + 1) + w.2, rise)
  | none => (0, now, false)

/-- A landing is held at a barrier whose rise the newest record names: its release is still to come (R237, R265). -/
def State.riseAwaited (s : State) (l : Nat) : Bool :=
  match (s.landing l).held, s.ce.newest with
  | some b, some m => b != 0 && m.events.any (fun e => decide (e.ident = b ∧ 0 < e.change.v ∧ e.state ≠ 2))
  | _, _ => false

/-- Present and coming whey level of a landing at time `now`: a level that a rise lowers takes effect when the landing's
own grant releases. -/
def State.wheyOf (s : State) (l now : Nat) : Nat × Option (Nat × Nat) :=
  let x := s.landing l
  let present := match x.comingWhey with | some c => if c.2 ≤ now then c.1 else x.whey | none => x.whey
  let w := s.wheyEntry l now
  match x.comingAt with
  | some t =>
    if w.1 < present ∧ now < t ∧ (w.2.2 ∨ w.2.1 ≤ now) then (present, some (w.1, t))
    else if w.2.1 ≤ now then (w.1, none) else (present, some (w.1, w.2.1))
  | none =>
    if s.riseAwaited l ∧ w.1 < present then (present, none)
    else if w.2.1 ≤ now then (w.1, none) else (present, some (w.1, w.2.1))

/-- Commit the grant content of one landing at the frame boundary at `now`. -/
def State.commitLanding (s : State) (now l : Nat) : State :=
  let x := s.landing l
  let g := s.groupOf l
  let inGroup := decide (g < 64)
  let run := (s.group g).grant
  let wait := if s.effv (0x4100 + g) 9 = 0 then s.effv (0x4100 + g) 1 else s.effv (0x4100 + g) 9
  let held := inGroup && x.held.isSome
  let present := if !inGroup then 0 else if held then min wait run else run
  let start := if inGroup then x.comingAt else none
  let w := s.wheyOf l now
  let non := x.nonCompliant && decide (present ≠ 0)
  let new : Landing := { x with
    nonCompliant := non, whey := w.1, comingWhey := w.2, committed := true,
    cFlags := b2n inGroup + 2 * b2n held + 4 * b2n non, cGrant := present,
    cComing := if start.isSome then run else 0, cStart := start.getD u64Max, cWhey := w.1,
    cComingWhey := match w.2 with | some c => c.1 | none => 0,
    cWheyStart := match w.2 with | some c => c.2 | none => u64Max,
    cGroup := if inGroup then g else 0xFF, cProfile := s.profile }
  let fields := fun (y : Landing) =>
    [y.cFlags, y.cGrant, y.cComing, y.cStart, y.cWhey, y.cComingWhey, y.cWheyStart, y.cGroup, y.cProfile]
  -- a second commit of one boundary replaces the first: what changes counts from the content before the boundary
  let old := if x.cOld.1 = now then x.cOld else (now, x.committed, fields x, x.cSeq)
  let same := old.2.1 && decide (old.2.2.1 = fields new)
  s.setLanding l (fun _ => { new with cSeq := if same then old.2.2.2 else (old.2.2.2 + 1) % 65536, cOld := old })

/-- New grants are committed in these states (R27, R339). -/
def State.grants (s : State) : Bool := decide (s.mode = .active ∨ s.mode = .degraded)

/-- The commit of grant content at a Gangway frame boundary. -/
def State.commitGrants (s : State) : State :=
  if s.grants then
    let now := 4000 * s.frame
    let s := s.releaseProgress now
    let s := { s with ferry := { s.ferry with commitTime := now } }
    (s.ferry.landings.map (·.1)).foldl (fun s l => s.commitLanding now l) s
  else s

/-- The 64 bytes of a landing's grant record. -/
def State.grantRecord (s : State) (l : Nat) : Blob :=
  let x := s.landing l
  if x.committed then
    packBytes [(2, l), (2, x.epoch), (1, 1), (1, x.cFlags), (2, x.cSeq), (2, x.cGrant), (2, x.cComing), (2, x.cWhey),
      (2, x.cComingWhey), (8, x.cStart), (8, x.cWheyStart), (8, s.ferry.commitTime), (1, x.cGroup), (1, x.cProfile)]
  else
    packBytes [(2, l), (2, x.epoch), (1, 1), (1, 0), (2, 0), (2, 0), (2, 0), (2, 0), (2, 0), (8, u64Max), (8, u64Max), (8, 0),
      (1, 0xFF), (1, s.ferry.holdProfile)]

/-- End a landing's attachment. -/
def State.freeBerth (s : State) (l : Nat) : State := s.setLanding l (fun x => { x with place := none, hereAcc := 0 })

/-- ATTACHMENT_CHANGE_EFFECT: attachments from before a link went down end, then accepted attaches and detaches apply in
handling order; each landing's epoch rises once (R331, R334). -/
def State.attachEffect (s : State) : State :=
  let ended := (s.ferry.landings.filter (fun p => match p.2.place with
    | some q => (s.link q.1).endOld | none => false)).map (·.1)
  let s := ended.foldl State.freeBerth s
  let s := (upTo 49).foldl (fun s l => if (s.link l).endOld then s.setLink l (fun x => { x with endOld := false }) else s) s
  let cs := s.ferry.changes
  let s := cs.foldl (fun s c =>
    if c.attach then
      let s := if (s.landing c.landing).place.isSome then s.count 0x9020 3 else s
      s.setLanding c.landing (fun x => { x with place := some (c.link, c.berth), hereAcc := 0 })
    else if (s.landing c.landing).place = some (c.link, c.berth) then s.freeBerth c.landing else s) s
  let touched := (cs.map (·.landing)).foldl ordInsert ended
  let s := touched.foldl (fun s l => s.setLanding l (fun x => { x with epoch := nextEpoch x.epoch })) s
  let s := (cs.filter (fun c => c.attach)).foldl (fun s c =>
    let s := s.setBerth c.link c.berth (fun x => { x with acks := x.acks ++ [(c.landing, stOk, (s.landing c.landing).epoch)] })
    if s.grants ∧ !(s.landing c.landing).committed then s.commitLanding (4000 * s.frame) c.landing else s) s
  { s with ferry := { s.ferry with changes := [] } }

/-! ## Peer frames (R344, R345, R372) -/

/-- Precedence of a frame type on a peer connection. -/
def peerRank (typ : Nat) : Nat :=
  if typ = 0x40 then 0 else if typ = 0x42 then 1 else if typ = 0x41 then 2 else if typ = 0x43 then 3
  else if typ = 0x31 then 4 else 5

/-- Queue a frame on an UP peer connection; a waiting PEER_STATE, CONFIGURATION or PEER_AGGREGATE is replaced. -/
def State.peerSend (s : State) (l typ : Nat) (payload : Blob) : State :=
  if !s.linkIsUp l ∨ !s.peerLink l then s
  else
    let n := 4 * unitsOf typ
    let dup := s.ferry.peerQ.any (fun q => decide (q.1 = l ∧ q.2.1 = typ ∧ 3 ≤ peerRank typ))
    let s := if dup ∧ typ = 0x30 then s.count (0x9100 + l) 12 else s
    let q := if dup then s.ferry.peerQ.filter (fun q => decide (¬(q.1 = l ∧ q.2.1 = typ))) else s.ferry.peerQ
    { s with ferry := { s.ferry with peerQ := q ++ [(l, typ, n, payload)] } }.emit (.peer l typ n payload)

/-- The waiting frame of highest precedence of a peer connection. -/
def State.peerNext (s : State) (l : Nat) : Option (Nat × Nat × Nat × Blob) :=
  (s.ferry.peerQ.filter (fun q => decide (q.1 = l))).foldl (fun (b : Option (Nat × Nat × Nat × Blob)) q =>
    match b with
    | some o => if peerRank q.2.1 < peerRank o.2.1 then some q else b
    | none => some q) none

/-- A rational power in W as an I32. -/
def wattsI32 (x : Rat) : Nat := unsigned 32 (clampI (rneRat x) (-(2 ^ 31)) (2 ^ 31 - 1))
/-- A rational as a U32. -/
def wattsU32 (x : Rat) : Nat := min (natRat x) u32Max

/-- Measured storage power: the sum of word 0 of the converters in service. -/
def State.storagePower (s : State) : Rat := sumR (s.convsIn.map (fun a => sigVal (s.wordSignal a 0) * 1000000))

/-- The 132 bytes of PEER_AGGREGATE. -/
def State.aggregateBytes (s : State) : Blob :=
  let bins := match s.ce.newest with
    | some m => if bitAt m.flags 0 && decide (s.profile < 3) then m.f.map (fun q => wattsI32 (q32Val q * 1000000)) else []
    | none => []
  packBytes [(1, s.shelfPos), (1, s.slotNo), (1, modeCode s.mode), (1, s.profile), (4, 0), (8, s.period),
    (4, s.effv 0x4001 1), (4, wattsU32 s.bm.planned), (4, wattsU32 (s.bm.gridLimit.getD 0)), (4, wattsU32 s.bm.deficit),
    (4, wattsU32 (sigVal s.ce.kept.gLast * 1000000)), (4, wattsI32 s.storagePower), (2, s.landingsIn.length),
    (2, (s.bm.groups.filter (fun p => decide (0 < p.2.inService))).length), (4, 0), (84, itemBytes 4 bins)]

/-- PEER_AGGREGATE is sent on every UP peer connection after a period boundary. -/
def State.sendAggregates (s : State) : State :=
  if !s.services ∨ s.mode = .boot then s
  else (upTo 49).foldl (fun s l => s.peerSend l 0x30 s.aggregateBytes) s

/-! ## Frames of the field network (R360, R361) -/

/-- The MAC address of both field network ports (R360). -/
def State.macAddress (s : State) : Blob := itemBytes 1 [0x02, 0x00, 0x44, 0x58, 0x43, 2 * s.shelfPos + s.slotNo]

/-- What the header of a frame from the module says beside its data (R361). -/
structure DapHead where
  /-- 0x81 READ_DATA, 0x82 WRITE_ACK, 0x10 PUBLISH -/
  typ : Nat
  tag : Nat := 0
  index : Nat := 0
  sub : Nat := 0
  signed : Bool := false
  final : Bool := false
  declared : Nat := 0
  offset : Nat := 0
  status : Nat := 0

/-- The 20 bytes of a header before `len` data bytes. -/
def DapHead.bytes (h : DapHead) (len : Nat) : Blob :=
  packBytes [(1, 1), (1, h.typ), (2, h.tag), (2, h.index), (1, h.sub), (1, b2n h.signed + 2 * b2n h.final), (4, h.declared),
    (4, h.offset), (2, len), (2, h.status)]

/-- A frame leaves on a field network port. -/
def State.sendDap (s : State) (port dest : Nat) (h : DapHead) (len : Nat) (data : Blob) : State :=
  s.emit (.dap port dest s.macAddress (s.odv 0x1010 0) (20 + len) (h.bytes len + data <<< 160))

/-! ## Publications (R369, R370) -/

/-- The 72 bytes of the configuration publication. -/
def State.publication (s : State) : Blob :=
  packBytes [(1, s.shelfPos), (1, s.slotNo), (1, modeCode s.mode),
    (1, b2n s.mismatch + 2 * b2n (decide (s.odv 0xB020 0 ≠ 0))), (4, s.generation), (64, s.digest)]

/-- A publication on every path; what R370 does not give of its header is zero (log entry 100). -/
def State.publishAll (s : State) : State :=
  let p := s.publication
  let head : DapHead := { typ := 0x10, declared := 72 }
  let group := s.odv 0x1011 2
  let s := ((s.sendDap 0 group head 72 p).sendDap 1 group head 72 p).count 0x1040 1
  let s := s.attached.foldl (fun s l =>
    match (s.landing l).place with
    | some q => if s.linkIsUp q.1 && !s.peerLink q.1 then s.setBerth q.1 q.2 (fun x => { x with config := some p }) else s
    | none => s) s
  (upTo 49).foldl (fun s l => s.peerSend l 0x31 p) s

/-! ## Downstream crossings (R318, R319, R328, R331, R339, R340, R371) -/

/-- The 22 bytes of a fragment. -/
def fragmentOf (a : Assembly) : Blob :=
  let first := decide (a.next = 0)
  let last := decide (a.len ≤ 20 * (a.next + 1))
  packBytes [(1, b2n first + 2 * b2n last + 4), (1, a.next), (20, bytesAt a.data (20 * a.next) 20)]

/-- The next message of a landing berth starts: ATTACH_ACK, then TIME, then CONFIGURATION. -/
def State.startMessage (s : State) (l b start : Nat) (attached : Bool) : State :=
  let x := s.berth l b
  match x.acks with
  | a :: rest =>
    let f := frameOf 0x11 2 b (packBytes [(2, a.1), (2, a.2.1), (2, a.2.2), (2, 0)])
    s.setBerth l b (fun x => { x with acks := rest, time := x.time || attached, tx := some { data := f, len := 16, next := 0 } })
  | [] =>
    if x.time then
      let d := s.draw
      let delay := ((s.link l).roundTrip - 128 + d.1 % 2) / 2
      let f := frameOf 0x20 4 b (packBytes [(8, start), (4, delay), (1, s.shelfPos), (1, s.slotNo), (2, 0)])
      d.2.setBerth l b (fun x => { x with time := false, sinceTime := 0, tx := some { data := f, len := 24, next := 0 } })
    else
      match x.config with
      | some p => s.setBerth l b (fun x => { x with config := none, tx := some { data := frameOf 0x31 18 b p, len := 80, next := 0 } })
      | none => s

/-- The next message of a peer connection starts. -/
def State.startPeer (s : State) (l : Nat) : State :=
  match s.peerNext l with
  | some q =>
    let s := { s with ferry := { s.ferry with peerQ := s.ferry.peerQ.erase q } }
    s.setBerth l 0 (fun x => { x with tx := some { data := frameOf q.2.1 (q.2.2.1 / 4) 0 q.2.2.2, len := 8 + q.2.2.1, next := 0 } })
  | none => s

/-- The message slot a berth sends in this crossing: the frame in assembly goes on by one fragment. -/
def State.sendFragment (s : State) (l b : Nat) : Blob × State :=
  match (s.berth l b).tx with
  | none => (0, s)
  | some a =>
    let done := decide (a.len ≤ 20 * (a.next + 1))
    (fragmentOf a, s.setBerth l b (fun x => { x with tx := if done then none else some { a with next := a.next + 1 } }))

/-- The record slot of a landing (R339), and the memory of the grant it carried (R343). -/
def State.sendGrant (s : State) (n start b : Nat) : Blob × State :=
  match s.mode with
  | .active | .degraded | .safeHold =>
    let x := s.landing n
    let high := if x.committed then max x.cGrant x.cComing else 0
    (frameOf 0x02 16 b (s.grantRecord n),
      s.setLanding n (fun x => { x with sent := ((start, high) :: x.sent).filter (fun g => decide (start ≤ g.1 + 17000)) }))
  | _ => (0, s)

/-- One berth's downstream window. -/
def State.sendWindow (s : State) (l start b : Nat) : State :=
  let who := s.landingAt l b
  let x := s.berth l b
  let s := if who.isSome then
      s.setBerth l b (fun x => if x.sinceTime + 1 < 1000 then { x with sinceTime := x.sinceTime + 1 }
                               else { x with time := true, sinceTime := 0 }) else s
  let s := if x.tx.isSome then s else s.startMessage l b start who.isSome
  let m := s.sendFragment l b
  match who with
  | some n =>
    let g := m.2.sendGrant n start b
    g.2.emit (.window l b g.1 m.1)
  | none => if m.1 = 0 then m.2 else m.2.emit (.window l b 0 m.1)

/-- The module is the timing master of a peer connection: at the lower shelf position, and at equal position in slot A
(R344).  Which shelf a link of mode 2 leads to is the wiring's, and open (log entry 1). -/
def State.master (s : State) (l : Nat) : Bool :=
  let far := if l = 48 then s.shelfPos else Config.farShelf l
  decide (s.shelfPos < far ∨ (s.shelfPos = far ∧ s.slotNo = 0))

/-- DOWNSTREAM_CROSSING_START (R319, R338, R345).  DEDUCED (log entry 33): where the other end of a peer connection is the master,
the module answers its crossings one by one, from a number that no row brings and that is free. -/
def State.downCrossing (s : State) (l : Nat) : State :=
  if !s.linkTrains l ∨ (s.link l).st = 0 then s
  else
    let start := s.timeNs + (s.link l).phase
    if s.peerLink l then
      let own := s.master l
      -- the other end of a peer connection answers the master's crossings, one by one, from a number that the module does not choose
      let d := s.draw
      let answered := match (s.link l).peerNo with
        | some k => ((k + 1) % 2 ^ 24, s)
        | none => (d.1 % 2 ^ 24, d.2)
      let n := if own then s.intake else answered.1
      let s := if own then s else answered.2.setLink l (fun x => { x with peerNo := some n })
      let s := s.emit (.crossing l (packBytes [(1, if own then 0xC5 else 0xC6), (3, n)]))
      if s.linkIsUp l then
        let s := if (s.berth l 0).tx.isSome then s else s.startPeer l
        let m := s.sendFragment l 0
        if m.1 = 0 then m.2 else m.2.emit (.window l 0 0 m.1)
      else s
    else
      let s := s.emit (.crossing l (packBytes [(1, 0xC5), (3, s.intake)]))
      if s.linkIsUp l then (upTo 128).foldl (fun s b => s.sendWindow l start b) s else s

/-- PEER_AGGREGATE_RECEIVE. -/
def State.aggregateReceive (s : State) (l : Nat) (p : Blob) : State :=
  if s.services && s.linkIsUp l && s.peerLink l then
    { s with aggregates := tabPut 0 s.aggregates l (bytesAt p 0 132) } else s

/-- CONFIGURATION_RECEIVE (R373). -/
def State.configReceive (s : State) (l : Nat) (p : Blob) : State :=
  if s.services && s.linkIsUp l && s.peerLink l then
    { s with peerPubs := tabPut 0 s.peerPubs l (bytesAt p 0 72) } else s

/-- FERRY_LINK_STATUS of a link (R347). -/
def State.ferryStatus (s : State) (l : Nat) : Nat :=
  let x := s.link l
  x.st % 8 + 8 * b2n (s.peerLink l) + s.berthsOn l <<< 4 + (b2n x.dropSeen) <<< 16 + (b2n x.staleSeen) <<< 17 +
  (b2n x.uncorrSeen) <<< 18 + (b2n x.downSeen) <<< 19 + (b2n x.nonCompSeen) <<< 20

/-- One landing's entry of OD 0x9200. -/
def State.landingEntry (s : State) (l : Nat) : Nat :=
  let x := s.landing l
  let st := match x.place with
    | none => 0
    | some _ => if x.nonCompliant then 3 else if s.landingIn l then 2 else 1
  let p := x.place.getD (63, 0)
  pack [(6, p.1), (7, p.2), (3, st), (16, x.epoch)]

end Sys2Proof.Machine
end

