-- ==== Sys2Proof/Machine/Mpc.lean ====
section
/-! DEFINITION. The module power controller and the clock monitor: rails, phase shedding, hint windows, power estimation,
the restriction ladder, sensors, trips and coolant (R55, R72 to R77, R469 to R503). -/

namespace Sys2Proof.Machine

open Sys2Proof

/-! ## Compute operating point (R75 to R77, R487, R491) -/

/-- The highest restriction level (R487). -/
def State.lambdaMax (s : State) : Nat := s.fixedPoint + 15

/-- Opportunistic mode is on and its headroom criterion holds (R77, R491): 10 ms are 5,000 slots. -/
def State.headroomHolds (s : State) : Bool :=
  decide (s.odv 0xB061 0 = 1) && decide (s.lambda = 0) && decide (5000 ≤ s.mpc.headroom)

/-- The MPC may run the compute clock at this point (R77, R487). -/
def State.mayRun (s : State) (p : Nat) : Bool :=
  if s.lambda = 0 then p == s.fixedPoint || (s.headroomHolds && decide (s.fixedPoint ≤ p ∧ p ≤ 7))
  else p == lambdaPoint s.fixedPoint s.lambda

/-- Begin the change to a point, or let it wait for the slew in progress (R76): going up the voltage rises first. -/
def State.aim (s : State) (p : Nat) : State :=
  if !s.cd.running then s
  else
    match s.clk.target with
    | some t => { s with clk := { s.clk with nextTarget := if p = t then none else some p } }
    | none =>
      if p = s.clk.point then s
      else
        { s with clk := { s.clk with
            target := some p
            vddC := if s.clk.divider < pointSteps p then pointMv p else s.clk.vddC } }

/-- The point the MPC heads for once every slew has ended. -/
def Clk.heading (c : Clk) : Nat :=
  match c.nextTarget, c.target with
  | some p, _ => p
  | none, some t => t
  | none, none => c.point

/-- Leave a point that the ladder or the headroom criterion no longer allows (R487, R491). -/
def State.reaim (s : State) : State :=
  if s.mayRun s.clk.heading then s else s.aim (lambdaPoint s.fixedPoint s.lambda)

/-- OPERATING_POINT_CHANGE: a point that the MPC may run becomes its target. -/
def State.pointChange (s : State) (p : Nat) : State := if s.mayRun p then s.aim p else s

/-- COMPUTE_SLEW_STEP (R76): one step of 6.25 MHz; at the end of a slew down the voltage follows. -/
def State.slewStep (s : State) : State :=
  match s.clk.target with
  | none => s
  | some t =>
    let goal := pointSteps t
    let d := if s.clk.divider < goal then s.clk.divider + 1 else if goal < s.clk.divider then s.clk.divider - 1 else goal
    if d = goal then
      let next := s.clk.nextTarget
      let s := { s with clk := { s.clk with divider := d, point := t, vddC := pointMv t, target := none, nextTarget := none } }
      match next with
      | some p => s.aim p
      | none => s
    else { s with clk := { s.clk with divider := d } }

/-- A change of the fixed point: every level is clamped to the new greatest level (R487), and the clock follows. -/
def State.fixedPointChanged (s : State) : State :=
  let m := s.lambdaMax
  let s := { s with mpc := { s.mpc with lCap := min s.mpc.lCap m, lI := min s.mpc.lI m, lT := min s.mpc.lT m } }
  s.reaim

/-- OPPORTUNISTIC_RAISE (R491). -/
def State.opportunisticRaise (s : State) : State :=
  if s.headroomHolds && s.clk.target.isNone then s.aim (min 7 (s.clk.point + 1)) else s.reaim

/-! ## Clocks (R55, R72) -/

/-- ROOT_COMPENSATION_UPDATE: at most 0.01 ppm per update towards what the crystal's used temperature calls for. -/
def State.rootUpdate (s : State) : State :=
  let want := Config.rootCorrection (s.sensor 92).used
  let d := clampI (want - s.clk.rootComp) (-10) 10
  { s with clk := { s.clk with rootComp := s.clk.rootComp + d } }

/-- SYNC_IN is lost: each loss is logged, outside the limit of the events of R502 (R55). -/
def State.syncLost (s : State) (cause : Nat) : State :=
  if s.clk.syncIn then
    (({ s with clk := { s.clk with syncIn := false } }).logEvent 0x7001 (packBytes [(1, cause)])).raise irqMpc
  else s

/-- SYNC_IN returns (R55). -/
def State.syncReturned (s : State) : State :=
  if s.clk.syncIn then s else (({ s with clk := { s.clk with syncIn := true } }).logEvent 0x7002 0).raise irqMpc

/-! ## Rails (R469, R470, R477 to R481) -/

/-- Phases of a rail; VAON has none. -/
def State.railPhases (s : State) (j : Nat) : Nat :=
  if j = 6 then s.mpc.phases else [0, 4, 1, 1, 3, 2, 32].getD j 4

/-- Ramp time of a rail, µs (R469). -/
def rampTime (j : Nat) : Nat := [100, 300, 300, 300, 300, 500, 1000].getD j 500

/-- The first group of rails that are still to rise begins its ramp. -/
def State.rampHead (s : State) : State :=
  match s.mpc.rising with
  | [] => s
  | g :: _ =>
    { s with mpc := { s.mpc with
        rampAt := s.intake
        rails := g.foldl (fun t j => tabMod {} t j (fun r => { r with st := 1 })) s.mpc.rails } }

/-- The rails that ramp are power-good, and the next group begins (R470). -/
def State.rampNext (s : State) : State :=
  match s.mpc.rising with
  | [] => s
  | g :: t =>
    let rails := g.foldl (fun x j =>
      tabMod {} x j (fun r => { r with st := 2, mv := s.railSetpoint j, cause := 0, retried := false })) s.mpc.rails
    ({ s with mpc := { s.mpc with rails := rails, rising := t } }).rampHead

/-- Raise groups of rails, each when the one before it is power-good (R470). -/
def State.raiseRails (s : State) (groups : List (List Nat)) : State :=
  ({ s with mpc := { s.mpc with rising := groups } }).rampHead

/-- Every rail that is rising is power-good. -/
def State.rampAll (s : State) : State := s.mpc.rising.foldl (fun s _ => s.rampNext) s

/-- An event of rail `j` says that every rail before it has become power-good (R470). -/
def State.rampReach (s : State) (j : Nat) : State :=
  if s.mpc.rising.any (fun g => g.contains j) then
    (s.mpc.rising.takeWhile (fun g => !g.contains j)).foldl (fun s _ => s.rampNext) s
  else s

/-- The rails that ramp, at an intake frame boundary: the SIOD rails are in regulation before module time runs (R81), and
the others after the ramp time of R469. -/
def State.rampTick (s : State) : State :=
  match s.mpc.rising with
  | (j :: _) :: _ => if j < 5 then s.rampAll else if s.mpc.rampAt + rampTime j ≤ s.intake then s.rampNext else s
  | _ => s

/-- A rail is latched (R478): a SIOD rail shuts the module down, a CD rail stops the CD. -/
def State.latchRail (s : State) (j cause : Nat) (m : RailMeas) : State :=
  let place : FaultAt := { place := j, mv := m.mv, deciAmp := m.deciAmp, setpoint := s.railSetpoint j, limited := m.limited }
  if j < 5 then s.enterShutdown cause place
  else
    let s := { s with mpc := { s.mpc with
      rails := tabMod {} s.mpc.rails j (fun r => { r with st := 4, mv := 0, deciAmp := 0, cause := cause, retried := false }) } }
    let s := s.faultRecord cause s.afterCdFault place
    let s := (s.cdStop 3).count 0x7042 1
    let s := { s with cd := { s.cd with due := false } }
    s.mpcLog 0x7101 j (packBytes [(1, j), (1, 1), (2, cause)])

/-- A switching rail that is enabled: ramping or power-good. -/
def State.railOn (s : State) (j : Nat) : Bool :=
  decide (0 < j ∧ j < 13) && (decide ((s.rail j).st = 1) || decide ((s.rail j).st = 2))

/-- A fault without a retry latches its rail (R477). -/
def State.railFault (s : State) (j cause : Nat) (m : RailMeas) : State :=
  let s := s.rampReach j
  if s.railOn j then s.latchRail j cause m else s

/-- SOFT_START_SHORT (R477, R479): a first short of a rail that ramps waits for its retry, one on the retry latches the rail;
the rails after it wait. -/
def State.softStartShort (s : State) (j : Nat) (m : RailMeas) : State :=
  let s := s.rampReach j
  if !s.railOn j || decide ((s.rail j).st ≠ 1) || (decide (j < 5) && decide (s.mode ≠ .boot)) then s
  else if (s.rail j).retried then s.latchRail j 0x22 m
  else
    let place : FaultAt := { place := j, mv := m.mv, deciAmp := m.deciAmp, setpoint := s.railSetpoint j, limited := m.limited }
    let after := if j < 5 then modeCode s.mode else s.afterCdFault
    let s := { s with mpc := { s.mpc with
      rising := []
      rails := tabMod {} s.mpc.rails j (fun r => { r with st := 3, mv := 0, deciAmp := 0, retried := true }) } }
    let s := (s.faultRecord 0x21 after place).count 0x7042 2
    let s := if j < 5 then { s with power := { s.power with servicesUp := false } }
      else
        let s := s.cdStop 0
        { s with cd := { s.cd with retry := true, due := true } }
    s.mpcLog 0x7101 j (packBytes [(1, j), (1, 0), (2, 0x21)])

/-- The latches of R478 on CD rails. -/
def State.latchedRails (s : State) : List Nat := (upTo 8).map (· + 5) |>.filter (fun j => decide ((s.rail j).st = 4))

/-- LATCH_RELEASE is in a state that allows it (R481). -/
def State.releaseAllowed (s : State) : Bool :=
  (s.cdRailLatched || s.cd.pllLatch) && !s.cd.thermalLatch && s.power.flowOk

/-- The latches of the CD rails and of the CD PLL clear, and a CD start may follow (R481). -/
def State.releaseLatches (s : State) : State :=
  let mask := (s.latchedRails.map (2 ^ ·)).sum
  let s := { s with
    mpc := { s.mpc with rails := s.latchedRails.foldl (fun t j => tabMod {} t j (fun r => { r with st := 0, cause := 0 })) s.mpc.rails }
    cd := { s.cd with pllLatch := false } }
  (s.mpcLog 0x7102 0 (packBytes [(2, mask)])).cdDue

/-- CD_PLL_UNLOCK (R73): the CD stops, and a CD start waits for a release (R481).  DESIGN CHOICE (log entry 103): R73 latches
"the CD rail" and R481 tells the CD PLL latch from the rails' latches; the model keeps that latch apart, and it shows neither
as state 4 of a rail nor as CD_RAIL_LATCHED. -/
def State.cdPllUnlock (s : State) (hbm : Bool) : State :=
  if !s.cd.running then s
  else
    let s := { s with
      cd := { s.cd with pllLatch := true }
      clk := if hbm then { s.clk with hbm := false } else { s.clk with compute := false } }
    (s.faultRecord 0x04 s.afterCdFault {}).cdStop 4

/-- The root is lost or the I/O PLL is unlocked (R73). -/
def State.clockLost (s : State) (root : Bool) : State := s.enterShutdown (if root then 2 else 3) {}

/-! ## Phase shedding and hint windows on VDD_C (R471 to R476) -/

/-- One core's current at full matrix activity, A (R476). -/
def State.fullAmps (s : State) : Rat := 11 * ((pointSteps s.clk.point : Rat) / 256) * ((pointMv s.clk.point : Rat) / 800)

/-- Level of a core that a set of windows predicts: the largest of its own, or one eighth of its cluster's. -/
def levelOf (ws : List HintMsg) (c : Nat) : Rat :=
  ws.foldl (fun (m : Rat) (w : HintMsg) =>
    if w.source = c then max m ((min w.level 65535 : Nat) : Rat)
    else if w.source = 0x80 + c / 8 then max m ((w.level : Rat) / 8) else m) (0 : Rat)

/-- Predicted current of a set of windows, A. -/
def State.predicted (s : State) (ws : List HintMsg) : Rat :=
  sumR ((upTo 96).map (fun c => levelOf ws c / 65535 * s.fullAmps))

/-- Windows not yet begun. -/
def Mpc.ahead (m : Mpc) : List HintMsg := (m.windows.filter (fun w => !w.2)).map (·.1)

/-- Begin and end of a window, ns of module time. -/
def HintMsg.start (w : HintMsg) : Nat := w.issued + w.lead
def HintMsg.stop (w : HintMsg) : Nat := w.issued + w.lead + w.duration

/-- Shedding is enabled. -/
def State.shedEnabled (s : State) : Bool := decide (s.odv 0x7031 1 = 1)

/-- n_target (R474). -/
def State.phaseTarget (s : State) : Nat :=
  let meas : Nat := s.mpc.slotAmps.foldl max 0
  let amps : Rat := (meas : Rat) / 10 + s.predicted s.mpc.ahead
  let n : Int := ceilRat (amps / (s.odv 0x7031 2 : Rat))
  (clampI n (s.odv 0x7031 3) 32).toNat

/-- PHASE_SHED_EVALUATION, at each switching period of VDD_C (R471, R474). -/
def State.shedEvaluate (s : State) : State :=
  let s := { s with mpc := { s.mpc with periods := s.mpc.periods + 1, sinceShed := s.mpc.sinceShed + 1 } }
  -- the phase that was being shed has stopped
  let s := if s.mpc.shedding then { s with mpc := { s.mpc with shedding := false, phases := s.mpc.phases - 1 } } else s
  if !s.shedEnabled then { s with mpc := { s.mpc with phases := 32, below := 0 } }
  else if s.mpc.holdoff then { s with mpc := { s.mpc with below := 0 } }
  else
    let n := s.phaseTarget
    if s.mpc.phases ≤ n then { s with mpc := { s.mpc with phases := n, below := 0 } }
    else
      let s := { s with mpc := { s.mpc with below := s.mpc.below + 1 } }
      if 64 ≤ s.mpc.below ∧ 16 ≤ s.mpc.sinceShed then
        { s with mpc := { s.mpc with shedding := true, sinceShed := 0 } }
      else s

/-- PHASE_ROTATION of a rail (R472). -/
def State.rotate (s : State) (j : Nat) : State :=
  let n := s.railPhases j
  if n = 0 ∨ 13 ≤ j ∨ (s.rail j).st ≠ 2 then s
  else { s with mpc := { s.mpc with rails := tabMod {} s.mpc.rails j (fun r => { r with rotation := (r.rotation + 1) % n }) } }

/-- SHED_ABORT (R475): all 32 phases, and a hold-off; nothing is aborted while no phase is shed. -/
def State.shedAbort (s : State) : State :=
  if s.shedEnabled && (s.mpc.shedding || decide (s.mpc.phases < 32)) then
    ({ s with mpc := { s.mpc with phases := 32, shedding := false, below := 0, holdoff := true } }).count 0x7042 3
  else s

/-- SHED_HOLDOFF_END (R475). -/
def State.holdoffEnd (s : State) : State := { s with mpc := { s.mpc with holdoff := false } }

/-- MPC_HINT_RECEIVE: the oldest message of a cluster's toll becomes a window, a cluster hint replacing the one before
it (R162, R170, R476), and shedding is aborted (R475). -/
def State.hintReceive (s : State) (unit : Nat) : State :=
  match s.te.hintQ.find? (fun (h : Nat × HintMsg) => decide (h.1 = unit)) with
  | none => s
  | some h =>
    let w := h.2
    let kept := s.mpc.windows.filter (fun x => decide (x.1.source < 0x80 ∨ x.1.source ≠ w.source))
    let s := { s with
      te := { s.te with hintQ := s.te.hintQ.erase h, credits := tabMod 0 s.te.credits (3 * 128 + unit) (· - 1) }
      mpc := { s.mpc with windows := kept ++ [(w, false)] } }
    s.shedAbort

/-- The window that begins next. -/
def Mpc.nextWindow (m : Mpc) : Option HintMsg :=
  m.ahead.foldl (fun (b : Option HintMsg) (w : HintMsg) =>
    match b with
    | none => some w
    | some x => if w.start < x.start then some w else some x) none

/-- Mark a window as begun. -/
def beginWindow : List (HintMsg × Bool) → HintMsg → List (HintMsg × Bool)
  | [], _ => []
  | (x, b) :: t, w => if x = w ∧ b = false then (x, true) :: t else (x, b) :: beginWindow t w

/-- HINT_WINDOW_START: the rise in predicted current, mA per active phase, is added at once (R476). -/
def State.windowStart (s : State) : State :=
  match s.mpc.nextWindow with
  | none => s
  | some w =>
    let open_ := ((s.mpc.windows.filter (fun x => x.2)).map (·.1)).filter (fun (x : HintMsg) => decide (w.start < x.stop))
    let rise : Rat := s.predicted (open_ ++ [w]) - s.predicted open_
    { s with mpc := { s.mpc with
        windows := beginWindow (s.mpc.windows.filter (fun x => !x.2 || decide (w.start < x.1.stop))) w
        feedForward := natRat (1000 * rise / (s.mpc.phases : Rat)) } }

/-! ## Power estimation (R484 to R486) -/

/-- `2^x` with 40 fractional bits, from the square roots of 2 of 20 binary places of `x` (log entry 39). -/
def exp2 (x : Rat) : Rat :=
  let n := floorRat x
  let f := (floorRat ((x - (n : Rat)) * (2 ^ 20 : Nat))).toNat
  let p := (upTo 20).foldl (fun (a : Nat × Nat) i =>
    let root := Nat.sqrt (a.2 * 2 ^ 40)
    (if bitAt f (19 - i) then a.1 * root / 2 ^ 40 else a.1, root)) (2 ^ 40, 2 ^ 41)
  let m : Rat := (p.1 : Rat) / ((2 ^ 40 : Nat) : Rat)
  if 0 ≤ n then m * ((2 ^ n.toNat : Nat) : Rat) else m / ((2 ^ (-n).toNat : Nat) : Rat)

/-- Mean of the used values of CD sensors 0 to 63, °C. -/
def State.meanCd (s : State) : Rat := (((upTo 64).map (fun i => (s.sensor i).used)).foldl (· + ·) 0 : Int) / (6400 : Rat)

/-- Activity weight of a counter, fJ per V². -/
def State.weight (s : State) (i : Nat) : Nat := item 4 (s.odv 0x7050 0) i

/-- Sum of the weighted increments of the running clusters' activity counters since the last slot boundary (R484). -/
def State.activitySum (s : State) : Nat :=
  (s.cd.activity.filter (fun p => (tabFind s.te.clusters (p.1 / 48)).isNone && !bitAt s.te.gated (p.1 / 48))).foldl
    (fun m p => m + s.weight (p.1 % 48) * (p.2 - tabGet 0 s.mpc.activityRead p.1)) 0

/-- P_C without k, W, over a slot's readings (R484). -/
def State.rawPower (s : State) (r : SlotReadings) : Rat :=
  let v : Rat := (r.mv : Rat) / 1000
  let act : Nat := s.activitySum
  let leak : Rat := (s.odv 0x7051 0 : Rat) * (v / (4 / 5)) ^ 3 * exp2 ((s.meanCd - 60) / 25)
  v * v * (act : Rat) / 2000000000 + leak

/-- POWER_SLOT_BOUNDARY: estimate, λ_I, headroom and duty gating (R484, R488, R489, R491).  The operand's counts are what
the activity counters have counted beyond the accesses that the commands of the slot show (log entry 92); the duty is that of
the level before this boundary.  While SYNC_IN is valid the MPC publishes the place of its last edge (R471, log entry 92). -/
def State.slotBoundary (s : State) (r : SlotReadings) : State :=
  let duty := lambdaDuty s.fixedPoint s.lambda
  let s := if s.clk.syncIn then { s with clk := { s.clk with syncPos := r.edge % 4000 } } else s
  let s := r.counts.foldl (fun (s : State) c => s.active c.1 c.2.1 c.2.2) s
  let m := s.mpc
  let k := m.nextK.getD m.k
  let raw := if s.cd.running then s.rawPower r else 0
  let pCd := natRat (1000 * k * raw) + r.auxMilliwatt
  let limit := 10 * s.odv 0x7030 5
  let lmax := s.lambdaMax
  let below := decide (10 * r.deciAmp < 9 * limit)
  let quiet := if below then m.iQuiet + 1 else 0
  let ql : Nat × Nat :=
    if limit < r.deciAmp then (0, min (m.lI + 1) lmax)
    else if quiet = 500 then (0, m.lI - 1) else (quiet, m.lI)
  let m : Mpc := { m with k := k, nextK := none, slot := (s.intake / 2) % 16, iQuiet := ql.1, lI := ql.2,
                          slotPower := (pCd :: m.slotPower).take 50, slotAmps := (r.deciAmp :: m.slotAmps).take 500,
                          estEnergy := m.estEnergy + 2 * raw, activityRead := s.cd.activity,
                          rails := tabMod {} m.rails 6 (fun x => { x with mv := r.mv, deciAmp := r.deciAmp }),
                          windows := m.windows.filter (fun w => !w.2 || decide (s.timeNs < w.1.stop)) }
  let s : State := { s with mpc := m }
  let good := decide (20 * s.mpc.pAvg ≤ 17 * 1000 * s.effv 0x7010 0) &&
    decide (s.hotCd ≤ signed 32 (s.odv 0x7030 1) - 1500) && decide (s.hotHbm ≤ signed 32 (s.odv 0x7030 2) - 1000) &&
    decide (10 * r.deciAmp ≤ 8 * limit)
  let s := { s with mpc := { s.mpc with headroom := if good then s.mpc.headroom + 1 else 0,
                                        duty := duty } }
  s.reaim

/-- CALIBRATION_UPDATE (R485); the factor is open where the estimate is 0 (log entry 40). -/
def State.calibrate (s : State) (measured : Nat) : State :=
  let e := s.mpc.estEnergy
  let ratio : Rat := if e = 0 then Config.openShare (measured : Rat) 0 else (measured : Rat) / e
  if s.cd.running then
    { s with mpc := { s.mpc with nextK := some (clampR ratio (4 / 5) (5 / 4)), estEnergy := 0 } }
  else { s with mpc := { s.mpc with estEnergy := 0 } }

/-- INPUT_POWER_SAMPLE (R272, R486): one 2 µs product, in pJ for the energy and in µW for the 1 ms mean. -/
def State.inputSample (s : State) (mv ma : Nat) : State :=
  let p := mv * ma
  let e := s.power.energyFrac + 2 * p
  let s := s.count64 0x4030 10 (e / 1000000)
  let acc := s.power.powerAcc + p
  let n := s.power.powerCount + 1
  let q := { s.power with vin := mv, iin := ma, energyFrac := e % 1000000 }
  { s with power :=
      if n = 500 then { q with powerMean := acc / 500000000, powerAcc := 0, powerCount := 0 }
      else { q with powerAcc := acc, powerCount := n } }

/-! ## The ladder's controllers (R489, R490, R493) -/

/-- The cap controller at a budget period boundary (R489, R490): CAP_UNMET is judged on the level before its change. -/
def State.capUpdate (s : State) : State :=
  let m := s.mpc
  let avg : Nat := if m.slotPower.isEmpty then 0 else m.slotPower.sum / m.slotPower.length
  let cap := 1000 * s.effv 0x7010 0
  let lmax := s.lambdaMax
  let unmet := if cap < avg then s.bm.capUnmet || m.lCap == lmax else false
  let low := decide (1000 * avg ≤ cap * (1000 - s.odv 0x7011 0))
  let ql : Nat × Nat :=
    if cap < avg then (0, min (m.lCap + 1) lmax)
    else if low && m.capQuiet + 1 == 10 then (0, m.lCap - 1)
    else (if low then m.capQuiet + 1 else 0, m.lCap)
  let head := if 17 * cap < 20 * avg then 0 else m.headroom
  let was := s.bm.capUnmet
  let s := { s with
    mpc := { m with pAvg := avg, capQuiet := ql.1, lCap := ql.2, headroom := head }
    bm := { s.bm with capUnmet := unmet } }
  let s := if unmet && !was then s.count 0x7042 5 else s
  let s := if unmet = was then s
    else s.mpcLog 0x7104 0 (packBytes [(1, b2n unmet), (3, 0), (4, s.effv 0x7010 0), (4, avg / 1000)])
  s.reaim

/-- The die reasons that the MPC reports at a period boundary (R269, R493): binding reason and mask.  A controller at level 1
or more stands in the mask also while the CD is stopped for FLOW_OK or by a thermal latch. -/
def State.dieReasons (s : State) : State :=
  let l := s.lambda
  let coolant := s.power.flowLost
  let thermalStop := s.cd.thermalLatch
  let other := !s.cd.running && !coolant && !thermalStop
  let mask := if other then 0
    else b2n coolant + 2 * b2n (thermalStop || decide (1 ≤ s.mpc.lT)) +
      4 * b2n (decide (1 ≤ s.mpc.lI)) + 32 * b2n (decide (1 ≤ s.mpc.lCap))
  let binding := if other then 0xFF
    else if coolant then 0
    else if thermalStop || decide (1 ≤ l ∧ s.mpc.lT = l) then 1
    else if 1 ≤ l ∧ s.mpc.lI = l then 2
    else if 1 ≤ s.mpc.lCap then 5 else 0xFF
  { s with bm := { s.bm with dieBinding := binding, dieMask := mask } }

/-- Lowest sensor in `a … a + n − 1` whose used value is the highest. -/
def State.hottestAt (s : State) (a n : Nat) : Nat :=
  ((upTo n).find? (fun i => decide ((s.sensor (a + i)).used = s.hottest a n))).getD 0 + a

/-- THERMAL_CONTROLLER_UPDATE (R489, R502). -/
def State.thermalUpdate (s : State) : State :=
  let cdT := signed 32 (s.odv 0x7030 1)
  let hbmT := signed 32 (s.odv 0x7030 2)
  let cdHot := decide (cdT ≤ s.hotCd)
  let hot := cdHot || decide (hbmT ≤ s.hotHbm)
  let cool := decide (s.hotCd ≤ cdT - 500) && decide (s.hotHbm ≤ hbmT - 500)
  let m := s.mpc
  let ql : Nat × Nat :=
    if hot then (0, min (m.lT + 1) s.lambdaMax)
    else if cool && m.tQuiet + 1 == 10 then (0, m.lT - 1)
    else (if cool then m.tQuiet + 1 else 0, m.lT)
  let was := m.throttling
  let now := decide (1 ≤ ql.2)
  let s := { s with mpc := { m with tQuiet := ql.1, lT := ql.2, throttling := now } }
  let i := if hot && !cdHot then s.hottestAt 80 12 else s.hottestAt 0 64
  let s := if now && !was then s.count 0x7042 4 else s
  let s := if now = was then s else s.mpcLog 0x7103 i (packBytes [(1, b2n now), (1, i), (2, temp16 (s.sensor i).used)])
  s.reaim

/-! ## Sensors and trips (R494 to R498) -/

/-- Grid neighbours of sensor `i` in a square grid of side `w`, diagonals included. -/
def gridNear (w i : Nat) : List Nat :=
  (upTo (w * w)).filter (fun j =>
    let dr := (i / w : Int) - (j / w : Int)
    let dc := (i % w : Int) - (j % w : Int)
    decide (i ≠ j ∧ -1 ≤ dr ∧ dr ≤ 1 ∧ -1 ≤ dc ∧ dc ≤ 1))

/-- The CD sensor beside each HBM stack. -/
def stackNear (n : Nat) : Nat := [0, 1, 3, 4, 6, 7, 56, 57, 59, 60, 62, 63].getD n 0

/-- Neighbours of a sensor (R494). -/
def neighbours (i : Nat) : List Nat :=
  if i < 64 then gridNear 8 i
  else if i < 80 then (gridNear 4 (i - 64)).map (· + 64)
  else if i < 92 then
    let n := i - 80
    (((upTo 12).filter (fun m => decide (m / 6 = n / 6 ∧ (m + 1 = n ∨ n + 1 = m)))).map (· + 80)) ++ [stackNear n]
  else if i = 92 then [93, 94] else []

/-- The sensors of a sensor's die. -/
def dieOf (i : Nat) : List Nat :=
  if i < 64 then upTo 64
  else if i < 80 then (upTo 16).map (· + 64)
  else if i < 92 then (upTo 12).map (· + 80)
  else [92, 93, 94]

/-- Insert into a rising list of temperatures. -/
def tempInsert (x : Int) : List Int → List Int
  | [] => [x]
  | y :: t => if x ≤ y then x :: y :: t else y :: tempInsert x t

/-- Temperatures, rising. -/
def tempSort : List Int → List Int
  | [] => []
  | x :: t => tempInsert x (tempSort t)

/-- Median of temperatures, rounded to nearest even where it is a half. -/
def medianInt (l : List Int) : Int :=
  let r := tempSort l
  let n := r.length
  if n % 2 = 1 then r.getD (n / 2) 0 else rneDiv (r.getD (n / 2 - 1) 0 + r.getD (n / 2) 0) 2

/-- One sensor's read against the readings of the sensors that were not broken before it (R495): the sensor, and an
event: broken or returned, with the median. -/
def Sensor.read (old : Tab Sensor) (rs : List Int) (i : Nat) : Sensor × Option (Bool × Int) :=
  let c := tabGet {} old i
  let x := rs.getD i 0
  let good := fun j => decide (j ≠ i) && decide ((tabGet {} old j).st ≠ 1)
  let vs := ((neighbours i).filter good).map (fun j => rs.getD j 0)
  let die := ((dieOf i).filter good).map (fun j => rs.getD j 0)
  let checked := decide (2 ≤ vs.length)
  let med := if checked then medianInt vs else medianInt die
  let d := x - med
  if c.st = 1 then
    let near := if -600 ≤ d ∧ d ≤ 600 then c.near + 1 else 0
    if 100000 ≤ near then
      ({ c with reading := x, used := x, st := if checked then 0 else 2, away := 0, near := 0,
                declarations := sat32 c.declarations 1 }, some (false, med))
    else ({ c with reading := x, used := med, near := near }, none)
  else if !checked then ({ c with reading := x, used := x, st := 2, away := 0 }, none)
  else
    let away := if d < -1200 ∨ 1200 < d then c.away + 1 else 0
    if 1000 ≤ away then
      ({ c with reading := x, used := med, st := 1, away := 0, near := 0,
                declarations := sat32 c.declarations 1 }, some (true, med))
    else ({ c with reading := x, used := x, st := 0, away := away }, none)

/-- A used value at its trip (R497). -/
def tripAt (i : Nat) (t : Int) : Bool :=
  if i < 80 then decide (11500 ≤ t) else if i < 92 then decide (10500 ≤ t) else false

/-- A CD trip (R497): the CD thermal latch, the record and the stop.  A trip that meets a record not yet complete is a second
cause, which the record's own operation counts, and it is logged as the CD_STOP that it is (R482), also where the CD has
stopped.  DEDUCED (log entry 41): a trip under the latch, with no record in progress, is a cause like any other and has its
record; a sensor that stays at its trip is none. -/
def State.cdTrip (s : State) (cause sensor : Nat) : State :=
  let second := s.nvr.busy .fault && !s.cd.running && !s.power.leaving && s.power.inRange
  let s := { s with cd := { s.cd with thermalLatch := true } }
  let s := (s.faultRecord cause s.afterCdFault { place := sensor }).cdStop 2
  if second then s.mpcEvent 0x7107 2 else s

/-- SIOD_WARM (R498). -/
def State.siodWarm (s : State) : State :=
  let t := signed 32 (s.odv 0x7030 3)
  if t ≤ s.hotSiod ∧ s.mpc.warm = false then
    let i := s.hottestAt 64 16
    ({ s with mpc := { s.mpc with warm := true } }).mpcLog 0x7108 i (packBytes [(1, i), (1, 0), (2, temp16 s.hotSiod)])
  else if s.hotSiod ≤ t - 500 then { s with mpc := { s.mpc with warm := false } }
  else s

/-- SENSOR_READ (R494 to R498): all 95 sensors, then the trips; a SIOD trip goes before a CD trip (R501). -/
def State.sensorRead (s : State) (rs : List Int) : State :=
  let old := s.mpc.sensors
  let res := (upTo 95).map (fun i => (i, Sensor.read old rs i))
  let trips := (upTo 95).filter (fun i =>
    match res[i]? with
    | some r => tripAt i r.2.1.used && (tabGet {} old i).trip
    | none => false)
  let new := res.foldl (fun t r =>
    let high := tripAt r.1 r.2.1.used
    tabPut {} t r.1 { r.2.1 with trip := high, tripped := high && (tabGet {} old r.1).trip }) ([] : Tab Sensor)
  let s := { s with mpc := { s.mpc with sensors := new } }
  let s := res.foldl (fun (s : State) r =>
    match r.2.2 with
    | some e => s.mpcLog 0x7105 r.1 (packBytes [(1, r.1), (1, b2n e.1), (2, temp16 r.2.1.reading), (2, temp16 e.2)])
    | none => s) s
  match trips.find? (fun i => decide (64 ≤ i ∧ i < 80)) with
  | some i => s.enterShutdown 0x10 { place := i }
  | none =>
    -- a sensor that stays at its trip has tripped already
    let fresh := trips.filter (fun i => !(tabGet {} old i).tripped)
    let cd := fresh.find? (fun i => decide (i < 64))
    let hbm := fresh.find? (fun i => decide (80 ≤ i ∧ i < 92))
    let s := match cd with
      | some i => s.cdTrip 0x11 i
      | none => s
    let s := match hbm with
      | some i => s.cdTrip 0x12 i
      | none => s
    s.siodWarm

/-! ## Coolant (R499, R500) -/

/-- FLOW_LOST (R499): a retry of a CD rail in progress is cancelled (R501). -/
def State.flowLoss (s : State) : State :=
  if s.power.flowLost then s
  else
    let s := { s with power := { s.power with flowOk := false, flowLost := true } }
    let rails := s.mpc.rails
    let s := { s with
      cd := { s.cd with retry := false }
      mpc := { s.mpc with rails := (upTo 8).foldl (fun t j =>
        tabMod {} t (5 + j) (fun r => if r.st = 3 then { r with st := 0, retried := false } else r)) rails } }
    let due := s.cd.due
    let s := (s.cdStop 1).count 0x7042 7
    let s := { s with cd := { s.cd with due := due } }
    s.mpcLog 0x7106 0 (packBytes [(1, 1)])

/-- FLOW_RETURNED (R499, R500): the restart hold-off counts from this edge. -/
def State.flowReturn (s : State) : State :=
  if s.power.flowOk then s
  else
    let lost := s.power.flowLost
    let s := { s with power := { s.power with flowOk := true, flowLost := false, flowSince := s.intake } }
    if lost then (s.mpcLog 0x7106 0 (packBytes [(1, 0)])).cdDue else s

/-- The conditions of R500 and R82 under which a due CD start is made. -/
def State.cdMayStart (s : State) : Bool :=
  s.cd.due && holdsLeaseMode s.mode && !s.power.leaving && decide (s.mode ≠ .safeHold) && !s.cdBlocked && s.power.flowOk &&
  decide (s.power.flowSince + 1000000 * s.odv 0x7030 4 ≤ s.intake) &&
  decide (s.hotCd < signed 32 (s.odv 0x7030 1)) && decide (s.hotHbm < signed 32 (s.odv 0x7030 2))

end Sys2Proof.Machine
end

