-- ==== Sys2Proof/Machine/Red.lean ====
section
/-! DEFINITION. The mooring lease, checkpoints, takeover and switch-over (R504 to R532, R465, R311). -/

namespace Sys2Proof.Machine

open Sys2Proof

/-- Log an event of redundancy and raise REDUNDANCY (R529). -/
def State.redLog (s : State) (event : Nat) (params : Blob) : State := (s.logEvent event params).raise irqRedundancy

def State.setRed (s : State) (f : Red → Red) : State := { s with red := f s.red }

/-- The module is configured (R101): some rectifier address is present. -/
def State.configured (s : State) : Bool := (upTo 16).any s.present

/-- Microseconds from one intake time to now. -/
def State.since (s : State) (t : Nat) : Nat := s.intake - t

/-! ## Moving between operating states -/

/-- An open image transfer is abandoned: its area stays unmarked (R88). -/
def State.abandonImage (s : State) : State :=
  { s with power := { s.power with imageStage := 0, imageBytes := 0, restart := none } }

/-- A transition with what leaving and entering a state brings (R27, R82, R88, R310, R507). -/
def State.moveTo (s : State) (new : Mode) (causes trigger : Nat) : State :=
  let old := s.mode
  let s := if old = .standbyCold ∧ new ≠ .standbyCold then s.abandonImage else s
  -- after every SAFE_HOLD each repetitive controller is unaligned (R307)
  let s := if old = .safeHold then s.ceAll (fun d => { d with rcs := tabMap {} (fun (c : Rc) => { c with aligned := false }) d.rcs }) else s
  let s := s.transition new causes trigger
  match new with
  | .standbyCold =>
    let s := s.closeGate.cdStop 0
    { s with
      cd := { s.cd with due := false, hostStop := false }
      ce := { s.ce with inService := false, holding := false, branchA := none, branchB := none, restored := false, awaitMeas := false }
      cells := { s.cells with inSweep := false }
      hold := {}
      notRunning := false
      profile := 3
      red := { s.red with held := false, armed := false, freeSince := s.intake, handover := false, ring := [], latched := none,
                          ackDue := none, own := none, switching := false, closeDue := false, writing := none, lost := false
                          -- the counts of this module's holding end with it (R511)
                          noLine := 0, noLane := 0, goodBoth := 0 } }
  | .safeHold =>
    { s with
      hold := { s.hold with limit := false, release := false }
      ce := { s.ce with holding := true, branchA := none, branchB := none }
      -- no checkpoint write starts in the hold (R513)
      red := { s.red with writing := s.red.writing.filter (fun w => !w.reread) }
      ferry := { s.ferry with holdProfile := s.profile } }
  | _ => s

/-- The same for a module in its input range; one that leaves it waits for OFF and takes no other transition (R30, R45). -/
def State.move (s : State) (new : Mode) (causes trigger : Nat) : State :=
  if s.power.leaving then s else s.moveTo new causes trigger

/-! ## Renewals (R504 to R507, R511) -/

/-- Integrators of every channel. -/
def State.integrators (s : State) : Tab Int :=
  (upTo 8).foldl (fun t ch => tabPut 0 t ch (s.chan ch).integ) []

/-- A LEASE_RENEW's payload. -/
def State.renewPayload (s : State) (number : Nat) : Blob :=
  packBytes [(4, number), (1, modeCode s.mode), (1, s.slotNo), (2, 0), (4, s.red.verified), (4, 0)]

/-- Set or clear a path flag, logging the onset (R511): `lane` false for LINE_FAULT. -/
def State.pathFlag (s : State) (lane on : Bool) : State :=
  let was := if lane then s.red.laneFault else s.red.lineFault
  let s := s.setRed (fun r => if lane then { r with laneFault := on } else { r with lineFault := on })
  if was = on then s else s.redLog 0x8104 (packBytes [(1, b2n lane), (1, b2n on)])

/-- Both flags clear after 10 consecutive renewals delivered on both paths. -/
def State.pathsGood (s : State) : State :=
  if 10 ≤ s.red.goodBoth then (s.pathFlag false false).pathFlag true false else s

/-- A renewal is sent (R505, R506, R465): the timer restarts, Q and the integrators are taken at the boundary. -/
def State.renew (s : State) : State :=
  let n := nextSeq s.red.sentNo
  let s := s.setRed (fun r =>
    { r with sentNo := n, lastNo := n, timer := true, renewedAt := s.intake, unacked := r.unacked + 1,
             goodBoth := if r.unacked = 0 then r.goodBoth else 0,
             qSent := (upTo 8).foldl (fun t ch => tabPut 0 t ch (s.chan ch).q) [] })
  (s.emit .leasePulse).peerSend 48 0x40 (s.renewPayload n)

/-- PEER_OK as the module last sampled it (R54; log entry 44). -/
def State.peerUp (s : State) : Bool := s.power.peerOk

/-- The module samples PEER_OK.  No command carries the pin, so its level is a free value, but where the peer reports at this
very instant a state in which its SELF_OK is low (R54; log entry 44). -/
def State.samplePeer (s : State) : State :=
  let d := s.draw
  let may := decide (s.red.peerAt ≠ s.intake) || decide (2 ≤ s.red.peerState ∧ s.red.peerState ≤ 6)
  { d.2 with power := { d.2.power with peerOk := may && decide (d.1 % 2 = 1) } }

/-- LEASE_RENEW_SEND: every 12,500th boundary after the claim, while renewals are armed. -/
def State.renewSend (s : State) : State :=
  if s.red.held && s.red.armed && s.power.gate && decide (s.red.claimFrame < s.frame) &&
      decide ((s.frame - s.red.claimFrame) % 12500 = 0) then
    let s := s.samplePeer
    let s := if 3 ≤ s.red.unacked && s.peerUp then s.pathFlag true true else s
    s.renew
  else s

/-- The newest number of the ring. -/
def Red.newestNo (r : Red) : Nat := match r.ring with | e :: _ => e.1 | [] => 0

/-- File integrators in the ring under a number. -/
def Red.file (r : Red) (number : Nat) (v : Tab Int) : Red := { r with ring := ((number, v) :: r.ring).take 16 }

/-- Latched integrators whose LEASE_RENEW has not come within 3 ms are filed one above the newest entry (R465). -/
def State.fileLate (s : State) : State :=
  match s.red.latched with
  | some (t, v) =>
    if t + 3000 < s.intake then s.setRed (fun r => ({ r with latched := none } : Red).file (nextSeq r.newestNo) v) else s
  | none => s

/-- A renewal has been received on a path (R507, R525): the lease-free timer restarts and a handover ends. -/
def State.renewalIn (s : State) : State :=
  let was := s.red.gaveUp
  s.setRed (fun r => { r with lastRecv := some s.intake, freeSince := s.intake, handover := false, gaveUp := false,
                              outcome := if was then 0 else r.outcome })

/-- A conflict (R510): the gate closes and the lease is lost; STANDBY_COLD follows at the next frame boundary (R30). -/
def State.conflict (s : State) (path : Nat) : State :=
  let s := (s.closeGate.redLog 0x8103 (packBytes [(1, path)])).count 0x8030 6
  let s := s.redLog 0x8102 (packBytes [(1, 2)])
  let s := s.setRed (fun r => { r with held := false, armed := false, yielded := true, switching := false, closeDue := false })
  if s.mode = .safeHold then { s with hold := { s.hold with conflict := true } }
  else s.setRed (fun r => { r with lost := true })

/-- LEASE_PULSE_RECEIVE (R53, R465, R507, R510): the row's instant is the rising edge. -/
def State.pulseIn (s : State) (us : Nat) : State :=
  if us < 500 ∨ 2000 < us then { s with power := { s.power with pulsesDiscarded := s.power.pulsesDiscarded + 1 } }
  else if s.red.held then s.renewalIn.conflict 0
  else
    let s := s.fileLate.renewalIn
    -- the pulse counts as delivered when it proves valid (R511)
    let valid := s.intake + us
    if s.mode ≠ .standbyCold then s
    else
      match s.red.ackDue with
      | some a =>
        if a.lane && !a.line && decide (s.intake ≤ a.at_ + 3000) then
          s.setRed (fun r => { r with ackDue := some { a with line := true, lineAt := valid } })
        else s.setRed (fun r => { r with ackDue := some ⟨nextSeq r.newestNo, true, false, valid, valid⟩,
                                         latched := some (s.intake, s.integrators) })
      | none => s.setRed (fun r => { r with ackDue := some ⟨nextSeq r.newestNo, true, false, valid, valid⟩,
                                            latched := some (s.intake, s.integrators) })

/-- LEASE_RENEW_RECEIVE (R465, R507, R510). -/
def State.renewIn (s : State) (number : Nat) : State :=
  if s.red.held then ((s.renewalIn).setRed (fun r => { r with recvNo := some number, lastNo := number })).conflict 1
  else
    let s := (s.fileLate.renewalIn).setRed (fun r => { r with recvNo := some number, lastNo := number })
    if s.mode ≠ .standbyCold then s
    else
      let v := match s.red.latched with
        | some l => l.2
        | none => s.integrators
      let a : AckDue := match s.red.ackDue with
        | some a => if a.line && !a.lane && decide (s.intake ≤ a.at_ + 3000) then { a with number := number, lane := true, at_ := min a.at_ s.intake }
                    else ⟨number, false, true, s.intake, 0⟩
        | none => ⟨number, false, true, s.intake, 0⟩
      s.setRed (fun r => ({ r with latched := none, ackDue := some a } : Red).file number v)

/-- The waiting module's count of paths once a renewal is answered (R511). -/
def State.superviseWaiting (s : State) (line lane : Bool) : State :=
  let s := s.setRed (fun r =>
    { r with noLine := if line then 0 else r.noLine + 1, noLane := if lane then 0 else r.noLane + 1,
             goodBoth := if line && lane then r.goodBoth + 1 else 0 })
  let s := if 3 ≤ s.red.noLine then s.pathFlag false true else s
  let s := if 3 ≤ s.red.noLane then s.pathFlag true true else s
  s.pathsGood

/-- LEASE_ACK_SEND (R511). -/
def State.ackSend (s : State) : State :=
  match s.red.ackDue with
  | none => s
  | some a =>
    if s.mode ≠ .standbyCold then s.setRed (fun r => { r with ackDue := none })
    else if (a.line && a.lane && decide (a.lineAt ≤ s.intake)) || decide (a.at_ + 3000 ≤ s.intake) then
      let line := a.line && decide (a.lineAt ≤ s.intake)
      let s := match s.red.latched with
        | some l => s.setRed (fun r => ({ r with latched := none } : Red).file a.number l.2)
        | none => s
      let s := s.peerSend 48 0x41 (packBytes [(4, a.number), (1, b2n line + 2 * b2n a.lane), (1, modeCode s.mode), (2, 0)])
      (s.setRed (fun r => { r with ackDue := none })).superviseWaiting line a.lane
    else s

/-- LEASE_ACK_RECEIVE (R511): the holder's supervision of the answer to its latest renewal. -/
def State.ackIn (s : State) (number paths : Nat) : State :=
  if !s.red.held || decide (number ≠ s.red.sentNo) || decide (s.red.unacked = 0) then s
  else
    let line := bitAt paths 0
    let lane := bitAt paths 1
    let s := s.setRed (fun r => { r with unacked := 0, noLine := if line then 0 else r.noLine + 1,
                                         goodBoth := if line && lane then r.goodBoth + 1 else 0 })
    let s := if 3 ≤ s.red.noLine then s.pathFlag false true else s
    s.pathsGood

/-! ## Claim, loss and switch-over (R508 to R510, R524, R525) -/

/-- The guard, µs (R507, R509). -/
def State.guard (s : State) : Nat :=
  20000 + (if (s.slotNo = 1 ∧ s.red.lastRecv = none) ∨ s.red.yielded then 100000 else 0)

/-- A claim is allowed (R507, R508, R525). -/
def State.claimAllowed (s : State) : Bool :=
  decide (s.mode = .standbyCold) && s.configured && !s.power.leaving &&
  (decide (s.odv 0x8002 0 = 1) || s.red.handover || s.red.gaveUp) &&
  (if s.red.handover then
     match s.red.lastHandover with
     | some t => decide (t + s.guard ≤ s.intake)
     | none => false
   else decide (s.red.freeSince + 200000 + s.guard ≤ s.intake))

/-- LEASE_CLAIM (R504, R505, R508, R519 step 1, R58). -/
def State.claim (s : State) : State :=
  if !s.claimAllowed then s
  else
    let hand := s.red.handover
    let back := s.red.gaveUp
    let s := s.fileLate
    let ring := s.red.ring
    let s := s.moveTo .takeover 0 0x03
    let s := { s with
      power := { s.power with gate := true }
      notRunning := decide (s.odv 0x3000 0 ≠ 3)
      cd := { s.cd with stage3Failed := false, due := true }
      ce := { s.ce with inService := false, restored := false }
      red := { s.red with held := true, armed := true, claimFrame := s.frame, sentNo := s.red.recvNo.getD 0, handover := false,
                          yielded := false, gaveUp := false, outcome := if back then 1 else s.red.outcome, unacked := 0,
                          noLine := 0, noLane := 0, goodBoth := 0, own := none, cpKnown := false, writing := none,
                          cpFails := 0, step := 1, ring := ring, ackDue := none, latched := none, tables := 0 } }
    let s := s.renew
    ((s.emit .storeReset).count 0x8030 1).redLog 0x8101 (packBytes [(4, s.red.sentNo), (1, b2n hand)])

/-- The lease is lost without a restart: TAKEOVER, ACTIVE and DEGRADED pass into STANDBY_COLD at the next frame boundary
(R29, R30, R506). -/
def State.leaseLost (s : State) (cause : Nat) : State :=
  let s := s.closeGate.redLog 0x8102 (packBytes [(1, cause)])
  s.setRed (fun r => { r with held := false, armed := false, timer := false,
                              lost := decide (s.mode = .takeover ∨ s.mode = .active ∨ s.mode = .degraded) })

/-- HOLD_LIMIT_EXPIRY (R29, R506): 150 ms are 37,500 frames. -/
def State.holdLimit (s : State) : State :=
  if s.mode = .safeHold ∧ s.hold.limit = false ∧ s.lastTransition + 37500 ≤ s.frame then
    let s := s.closeGate
    { s with hold := { s.hold with limit := true }, red := { s.red with armed := false } }
  else s

/-- The peer's publication carries this module's digest and generation (R370, R524): the peer lane's entry is the last
of OD 0x1041. -/
def State.peerAgrees (s : State) : Bool :=
  let p := tabGet 0 s.peerPubs 48
  decide (p ≠ 0 ∧ bytesAt p 8 64 = s.digest ∧ bytesAt p 4 4 = s.generation)

/-- The conditions of R524 beyond the module's own state. -/
def State.switchAllowed (s : State) : Bool :=
  s.peerUp && s.linkIsUp 48 && decide (s.red.peerState = 2) && bitAt s.red.peerFlags 0 && s.peerAgrees

/-- HANDOVER_RECEIVE (R505, R525): the lease counts as free for the receiver. -/
def State.handoverIn (s : State) (number : Nat) : State :=
  if s.mode ≠ .standbyCold then s
  else s.setRed (fun r => { r with recvNo := some number, lastNo := number, handover := true, lastHandover := some s.intake })

/-- PEER_STATE_SEND (R512). -/
def State.peerStateSend (s : State) : State :=
  if s.services && decide (s.mode ≠ .boot) then
    let flags := b2n s.configured + 2 * b2n (decide (s.odv 0x8002 0 = 1)) + 4 * b2n s.red.lineFault + 8 * b2n s.red.laneFault
    s.peerSend 48 0x43 (packBytes [(1, modeCode s.mode), (1, flags), (2, 0), (4, 0)])
  else s

/-- PEER_STATE_RECEIVE (R512), with the PEER_OK that stands beside it. -/
def State.peerStateIn (s : State) (state flags : Nat) : State :=
  { s with red := { s.red with peerState := state, peerFlags := flags, peerAt := s.intake } }.samplePeer

/-! ## Checkpoints (R513 to R518) -/

/-- Lay out `n` items of `size` bytes. -/
def layItems (size n : Nat) (f : Nat → Nat) : Blob := packBytes ((upTo n).map (fun i => (size, f i)))

/-- The CE section (R515). -/
def State.ceSection (s : State) : Blob :=
  let d := s.ce.kept
  let loops := packBytes (((upTo 64).map (fun n =>
    let l := d.loop n
    let idx := match s.loopRc n with | some r => (d.rc r).index | none => 0
    [(1, l.mode), (7, 0), (16, unsigned 128 l.integ), (8, q32Raw (sigQ l.delivered)), (4, idx), (12, 0)])).flatten)
  let outs := packBytes ((upTo 16).map (fun g => (8, q32Raw (sigQ (d.group g).out))) ++
    [(8, q32Raw (sigQ d.grid.value)), (8, q32Raw (sigQ d.storage.value)), (8, q32Raw (sigQ d.ys)), (8, q32Raw (sigQ d.gLast))] ++
    (upTo 24).map (fun a => (8, q32Raw (sigQ (tabGet 0 d.refs a)))))
  packBytes [(3072, loops), (1024, outs)]

/-- The 54,596 bytes of a checkpoint of sequence `seq` (R515). -/
def State.checkpointBytes (s : State) (seq : Nat) : Blob :=
  let head := packBytes [(4, 0x4458434B), (4, seq), (2, 1), (1, s.slotNo), (1, modeCode s.mode), (4, 0), (8, s.frame),
    (4, s.red.sentNo), (4, s.generation), (64, s.digest), (160, 0)]
  let bm := packBytes (((upTo 64).map (fun g => [(2, (s.group g).grant), (2, 0), (4, s.odv (0x4200 + g) 13)])).flatten)
  let energy := s.ferry.landings.foldl (fun (b : Blob) p => b + (p.2.energy % 2 ^ 64) <<< (64 * p.1)) 0
  let se := packBytes (((upTo 8).map (fun ch =>
    [(4, s.capacity ch), (4, unsigned 32 (deciC (tabGet 0 s.red.qSent ch))), (4, s.resistU32 ch),
     (2, (s.chan ch).recordFlags), (50, 0)])).flatten)
  let tables := packBytes (((upTo 4).map (fun r =>
    [(4, s.odv (0x2600 + r) 1), (4, (s.ce.kept.rc r).generation), (1, (s.ce.kept.rc r).mask), (7, 0)])).flatten)
  let body := packBytes [(0x100, head), (0x1000, s.ceSection), (0x200, bm), (0xC000, energy), (0x200, se), (0x40, tables)]
  body + (crc32 0xD540 body) <<< (8 * 0xD540)

/-- Store address of a checkpoint slot, and of a table slice of a controller (R514). -/
def slotAddr (n : Nat) : Nat := 0x10000 + n * 0x100000
def sliceAddr (r k : Nat) : Nat := 0x800000 + r * 0x200000 + k * 0x40000

/-- The 256 KiB of a slice (R516): 131,072 entries of 16 bits. -/
def Rc.slice (c : Rc) (k : Nat) : Blob :=
  c.table.foldl (fun (b : Blob) e =>
    if e.1 / 131072 = k then b + (unsigned 16 e.2) <<< (16 * (e.1 % 131072)) else b) 0

/-- Start the write of a checkpoint, with the slice that goes before it (R513, R516). -/
def State.startCheckpoint (s : State) (handover : Bool) : State :=
  let s := if handover then s
    else
      let r := s.red.slice / 8
      let k := s.red.slice % 8
      -- the slice's words are read (R204)
      let p := fun (a : Nat) => decide (entryWord r (131072 * k) ≤ a ∧ a < entryWord r (131072 * (k + 1)))
      let s := s.siodWords p
      let c := (s.asRead p s.ce.kept).rc r
      let s := s.emit (.storeWrite (sliceAddr r k) 0x40000 (c.slice k))
      s.ceAll (fun d => d.setRc r (fun c => { c with mask := setBit c.mask k true }))
  let seq := nextSeq s.red.cpSeq
  let data := s.checkpointBytes seq
  let known := s.red.cpKnown
  let s := if known then s.emit (.storeWrite (slotAddr (1 - s.red.cpSlot)) 0xD544 data) else s
  s.setRed (fun r =>
    { r with writing := some { seq := seq, handover := handover, slice := if handover then none else some r.slice, data := data,
                               reread := !known },
             slice := if handover then r.slice else (r.slice + 1) % 32 })

/-- The holder may write checkpoints (R513). -/
def State.writesCheckpoints (s : State) : Bool :=
  s.red.held && s.power.gate && s.ce.inService && decide (s.mode = .takeover ∨ s.mode = .active ∨ s.mode = .degraded)

/-- CHECKPOINT_TAKE, at the boundary of frame 2,500 k + 1,250 (R513, R517). -/
def State.checkpointTake (s : State) : State :=
  if !s.writesCheckpoints ∨ s.frame % 2500 ≠ 1250 then s
  else if s.red.writing.isSome then s.count 0x8021 3
  else s.startCheckpoint false

/-- CHECKPOINT_VERIFIED (R513, R517, R525). -/
def State.checkpointVerified (s : State) : State :=
  match s.red.writing with
  | none => s
  | some w =>
    if w.reread then s else
    (s.setRed (fun r => { r with writing := none, cpSeq := w.seq, verified := w.seq, cpSlot := 1 - r.cpSlot, own := some w.data,
                                 cpFails := 0, cpStale := false, closeDue := r.closeDue || w.handover })).count 0x8021 1

/-- CHECKPOINT_TIMEOUT (R517, R525): the slice that went before it does not count as written (log entry 45). -/
def State.checkpointTimeout (s : State) : State :=
  match s.red.writing with
  | none => s
  | some w =>
    let s := match w.slice with
      | some i => s.ceAll (fun d => d.setRc (i / 8) (fun c => { c with mask := setBit c.mask (i % 8) false }))
      | none => s
    let s := (s.setRed (fun r => { r with writing := none, cpFails := r.cpFails + 1 })).count 0x8021 2
    let stale := decide (3 ≤ s.red.cpFails) && !s.red.cpStale
    let s := s.setRed (fun r => { r with cpStale := r.cpStale || stale,
                                         switching := r.switching && !w.handover,
                                         outcome := if w.handover then 2 else r.outcome })
    if stale || w.handover then s.redLog 0x8105 (packBytes [(4, w.seq)]) else s

/-- The switch-over's part of a frame boundary (R525): the handover checkpoint, and the close after it verifies. -/
def State.switchFrame (s : State) : State :=
  if !(s.mode = .active ∨ s.mode = .degraded) then s
  else if s.red.closeDue then
    let last := s.red.sentNo
    let seq := s.red.verified
    let s := s.closeGate
    let s := s.move .standbyCold 0 0x0F
    let s := (s.redLog 0x8102 (packBytes [(1, 3)])).count 0x8030 5
    let s := s.setRed (fun r => { r with gaveUp := true, timer := false })
    s.peerSend 48 0x42 (packBytes [(4, last), (4, seq), (4, 0)])
  else if s.red.switching && s.red.writing.isNone && s.writesCheckpoints then s.startCheckpoint true
  else s

/-! ## Restoring (R311, R465, R519 to R521) -/

/-- A checkpoint slot holds a valid checkpoint (R461, R515). -/
def cpValid (b : Blob) : Bool :=
  decide (bytesAt b 0 4 = 0x4458434B) && decide (bytesAt b 0xD540 4 = crc32 0xD540 b)

/-- The newest valid checkpoint of two slots, with its slot. -/
def newestCp (a b : Option Blob) : Option (Nat × Blob) :=
  let va := a.filter cpValid
  let vb := b.filter cpValid
  match va, vb with
  | some x, some y => if newerSeq (bytesAt y 4 4) (bytesAt x 4 4) then some (1, y) else some (0, x)
  | some x, none => some (0, x)
  | none, some y => some (1, y)
  | none, none => none

/-- A Q32 of the checkpoint as a signal. -/
def cpSignal (b : Blob) (off : Nat) : Int := toSignal (q32Of (bytesAt b off 8))

/-- The CE's state from a checkpoint (R311): tables are zero until their copies are read. -/
def State.ceFrom (s : State) (b : Blob) : CeDyn :=
  let loops := (upTo 64).foldl (fun (t : Tab Loop) n =>
    let at_ := 0x100 + 48 * n
    let mode := bytesAt b at_ 1
    let out := cpSignal b (at_ + 24)
    tabPut {} t n { mode := mode, counted := decide (mode = 2), integ := signed 128 (bytesAt b (at_ + 8) 16), out := out,
                    delivered := out, limiter := true, fresh := decide (mode = 2) }) []
  let rcs := (upTo 4).foldl (fun (t : Tab Rc) r =>
    let idx := match s.rcLoop r with
      | some n => bytesAt b (0x100 + 48 * n + 32) 4
      | none => 0
    let st := 0xD500 + 16 * r
    tabPut {} t r { index := idx, generation := bytesAt b (st + 4) 4, mask := bytesAt b (st + 8) 1, valid := (s.ce.kept.rc r).valid }) []
  let o := 0x100 + 3072
  let refs := (upTo 24).foldl (fun (t : Tab Int) a => tabPut 0 t a (cpSignal b (o + 160 + 8 * a))) []
  { loops := loops
    groups := (upTo 16).foldl (fun (t : Tab Group) g => tabPut {} t g { out := cpSignal b (o + 8 * g) }) []
    grid := { value := cpSignal b (o + 128) }
    storage := { value := cpSignal b (o + 136) }
    ys := cpSignal b (o + 144)
    gLast := cpSignal b (o + 152)
    refs := refs
    parts := (upTo 8).foldl (fun (t : Tab Int) ch =>
      tabPut 0 t ch ((((upTo 24).filter (fun a => decide (16 ≤ a ∧ s.nodeChan a = ch))).map (fun a => tabGet 0 refs a)).foldl (· + ·) 0)) []
    plain := s.ce.kept.plain
    rcs := rcs }

/-- Table status of a checkpoint whose CE section is not used (log entry 46). -/
def State.tablesFrom (d : CeDyn) (b : Blob) : CeDyn :=
  (upTo 4).foldl (fun (d : CeDyn) r =>
    let st := 0xD500 + 16 * r
    d.setRc r (fun c => { c with generation := bytesAt b (st + 4) 4, mask := bytesAt b (st + 8) 1 })) d

/-- The controllers whose copy is complete and of the configured period. -/
def State.copiesComplete (s : State) (b : Blob) : Nat :=
  maskOf 4 (fun r => decide (bytesAt b (0xD500 + 16 * r + 8) 1 = 0xFF ∧ bytesAt b (0xD500 + 16 * r) 4 = s.odv (0x2600 + r) 1))

/-- The CE has its state and enters service at the next frame boundary (R311, R519 step 3); the damaged words of its SRAM are
left behind. -/
def State.ceRestore (s : State) (d : CeDyn) : State :=
  let s := s.sramRewrite ((s.oddWords (fun a => decide (a = .siod)) 0 (16 * 2 ^ 20)).map (·.1))
  let s := s.wroteSiod 776 784
  { s with ce := { s.ce with kept := d, restored := true, inService := false, branchA := none, branchB := none, record := none,
                             profileChanged := false } }

/-- The integrators recorded at a renewal, or the newest recorded ones; open where the ring is empty (log entry 47). -/
def State.ringAt (s : State) (number : Nat) : (Option (Tab Int)) × Bool :=
  match s.red.ring.find? (fun e => decide (e.1 = number)) with
  | some e => (some e.2, true)
  | none => (s.red.ring.head?.map (·.2), false)

/-- SE from a checkpoint (R465); one whose SE section is empty leaves the values of R464. -/
def State.seAdopt (s : State) (b : Blob) : State :=
  let r := s.ringAt (bytesAt b 0x18 4)
  if bytesAt b 0xD300 512 = 0 then s
  else (upTo 8).foldl (fun (s : State) ch =>
    let at_ := 0xD300 + 64 * ch
    let p : Int × State := match r.1 with
      | some t => (tabGet 0 t ch, s)
      | none => (signed 64 s.draw.1, s.draw.2)
    let cls := s.odv (0x6100 + ch) 1
    p.2.setChan ch (fun c =>
      let d := c.restore (bytesAt b at_ 4) (bytesAt b (at_ + 4) 4) (bytesAt b (at_ + 8) 4) (bytesAt b (at_ + 12) 2)
      let q := d.q - wrap64 (c.integ - p.1)
      let c := { d with q := q, bridge := !r.2, countEst := d.countEst || !r.2 }
      { c with cls := cls, anchor := c.anchor.map (fun a => wrap64 (a - (d.q - q))) })) s

/-- Every takeover logs TAKEOVER_BRIDGE and writes the SE record; a full anchor from before is no longer clean, and taper
window and rest restart (R452, R465, R466). -/
def State.bridgeDone (s : State) : State :=
  let mask := maskOf 8 (fun ch => (s.chan ch).bridge)
  let s := (upTo 8).foldl (fun (s : State) ch => s.setChan ch (fun c => { c with clean := false, fullSince := none, rest := 0, restDone := false })) s
  (s.seLog 0x610A 0 (packBytes [(1, mask)])).seTrigger

/-- The BM starts from nothing after a takeover, or from the grants that a checkpoint gives it next (R273, R521). -/
def State.grantsFresh (s : State) : State :=
  let fresh := fun (x : JobGroup) => { x with grant := 0, power := 0, waited := false, resumed := false, relAt := none,
                                              relEvent := 0, relEnd := 0, relIds := [] }
  { s with bm := { s.bm with groups := tabMap {} fresh s.bm.groups, total := 0, fresh := true } }

/-- The BM's run grants and release counters, and the landing energy counters, from a checkpoint (R273, R515, R521). -/
def State.grantsFrom (s : State) (b : Blob) : State :=
  (upTo 64).foldl (fun (s : State) g =>
    (s.setGroup g (fun x => { x with grant := bytesAt b (0x1100 + 8 * g) 2 })).odPut (okey (0x4200 + g) 13)
      (bytesAt b (0x1100 + 8 * g + 4) 4)) s

def State.energyFrom (s : State) (b : Blob) : State :=
  let e := bytesAt b 0x1300 0xC000
  let s := (upTo 6144).foldl (fun (s : State) l =>
    let v := fld e (64 * l) 64
    if v = (s.landing l).energy then s else s.setLanding l (fun x => { x with energy := v })) s
  s.count 0x4010 7

/-- Steps 2 and 3 of R519 end: the cell ports start, and the ring is cleared (R507, R519). -/
def State.takeoverRestored (s : State) (case_ : Nat) : State :=
  let s := s.bridgeDone
  let s := s.setRed (fun r => { r with cpCase := case_, step := 3, ring := [] })
  s.cellsTakeover

/-- A takeover without a checkpoint (R311, R464, R519, R521). -/
def State.takeoverCold (s : State) : State := (s.ceRestore s.ceCold).grantsFresh.takeoverRestored 0

/-- A takeover from a checkpoint, by case (R521). -/
def State.takeoverFrom (s : State) (slot : Nat) (b : Blob) : State :=
  let seq := bytesAt b 4 4
  let s := s.setRed (fun r => { r with cpSeq := seq, cpSlot := slot, cpKnown := true })
  let differs := decide (bytesAt b 0x20 64 ≠ s.digest)
  let current := !differs && (s.ringAt (bytesAt b 0x18 4)).2
  let copies := s.copiesComplete b
  let s := if differs then s.redLog 0x8107 (packBytes [(4, bytesAt b 0x1C 4)]) else s
  let s := s.grantsFresh
  let s := if current then (s.ceRestore (s.ceFrom b)).grantsFrom b else s.ceRestore (State.tablesFrom s.ceCold b)
  let s := (s.energyFrom b).seAdopt b
  let s := s.setRed (fun r => { r with tables := copies })
  s.takeoverRestored (if current then 1 else if differs then 3 else 2)

/-- The holder knows the newest valid sequence and its slot; a checkpoint that waited for it is written (R513). -/
def State.rereadDone (s : State) (seq slot : Nat) : State :=
  let s := s.setRed (fun r => { r with cpSeq := seq, cpSlot := slot, cpKnown := true })
  match s.red.writing with
  | none => s
  | some w =>
    if !w.reread then s
    else
      let q := nextSeq seq
      let body := setBytes (w.data % 2 ^ (8 * 0xD540)) 4 4 q
      let data := body + (crc32 0xD540 body) <<< (8 * 0xD540)
      if !s.power.gate then s
      else
        let s := s.emit (.storeWrite (slotAddr (1 - slot)) 0xD544 data)
        s.setRed (fun r => { r with writing := some { w with seq := q, data := data, reread := false } })

/-- CHECKPOINT_READ_COMPLETE: in TAKEOVER the state is restored by case; afterwards a holder that found no checkpoint
learns the newest sequence before its first write (R513, R519, R521). -/
def State.checkpointRead (s : State) (a b : Option Blob) : State :=
  if s.mode = .takeover ∧ s.red.step = 1 then
    match newestCp a b with
    | some c => s.takeoverFrom c.1 c.2
    | none => s.takeoverCold
  else if s.red.held ∧ !s.red.cpKnown ∧ 3 ≤ s.red.step then
    match newestCp a b with
    | some c => s.rereadDone (bytesAt c.2 4 4) c.1
    | none => s.rereadDone 0 1
  else s

/-- STORE_READ_TIMEOUT (R519): 30 ms after the claim no checkpoint is used. -/
def State.storeTimeout (s : State) : State :=
  if s.mode = .takeover ∧ s.red.step = 1 ∧ s.red.claimFrame + 7500 ≤ s.frame then s.takeoverCold else s

/-- RC_TABLE_RESTORE (R519 step 6): a complete copy becomes its controller's table. -/
def State.tableRestore (s : State) (r : Nat) (b : Blob) : State :=
  if s.red.held && s.ce.inService && bitAt s.red.tables r && decide ((s.ce.kept.rc r).mask = 0xFF) then
    let n := s.odv (0x2600 + r) 1
    let table := (upTo n).foldl (fun (t : Tab Int) i => tabPut 0 t i (signed 16 (item 2 b i))) []
    let words := upTo (ceilDiv n 2)
    let s := s.sramRewrite (words.map (fun w => entryWord r (2 * w)))
    let s := s.ceAll (fun d => d.setRc r (fun c => { c with table := table, valid := words.foldl ordInsert c.valid }))
    s.setRed (fun x => { x with tables := setBit x.tables r false, step := max x.step 6 })
  else s

/-- The CE restarts when SAFE_HOLD ends (R29, R311, R532): from the module's own checkpoint, or without CE state. -/
def State.ceRestart (s : State) : State :=
  let s := match s.red.own with
    | some b =>
      let copies := s.copiesComplete b
      (s.ceRestore (s.ceFrom b)).setRed (fun r => { r with tables := copies })
    | none => s.ceRestore s.ceCold
  { s with ce := { s.ce with holding := true } }

/-- STREAMS_REDUCED holds (R28). -/
def State.reducedNow (s : State) : Bool := decide (s.te.suspended ≠ [] ∨ s.unplaced ≠ [])

/-- CE_ENTERS_SERVICE (R311, R519 steps 4 and 5, R522).  The Gangway, silent until then, broadcasts the restored references
in this very frame, from position 0 of its rotation (R378, R385).  DESIGN CHOICE (log entry 4): the row stands behind the
GANGWAY_FRAME_BOUNDARY of its instant, and no read-back of that first broadcast differs. -/
def State.ceEnter (s : State) : State :=
  if !s.ce.restored || s.red.lost || s.power.leaving then s
  else
    let s := { s with ce := { s.ce with inService := true, restored := false, holding := false, awaitMeas := true } }
    let s := s.queueNodes s.presentNodes
    if s.mode = .takeover then
      let us := 4 * (s.frame - s.red.claimFrame)
      let heard := max (s.red.lastRecv.getD 0) (s.red.lastHandover.getD 0)
      let quiet := min (s.since heard) u32Max
      -- FORECAST_NOT_RUNNING is set on entry whenever another profile than PASSIVE is selected (R29, R519)
      let passive := decide (s.odv 0x3000 0 = 3)
      let causes := b2n s.cdStoppedNow + 2 * b2n (!passive) + 4 * b2n s.reducedNow
      let s := { s.setRed (fun r => { r with step := 4, toService := us, silence := quiet }) with notRunning := !passive }
      let s := s.move (if causes = 0 then .active else .degraded) causes 0x04
      let s := s.redLog 0x8106 (packBytes [(4, us), (4, quiet), (1, s.red.cpCase)])
      (if s.gw.driving then s else s.gangwayFrame s.gw.readBack).commitGrants
    else s

end Sys2Proof.Machine
end

