-- ==== Sys2Proof/Machine/Flags.lean ====
section
/-! DEFINITION. What software reads: the status registers of BAR0 and the value of every dictionary entry.  Settings and
counters stand in the dictionary store; every other entry is computed here from the typed state. -/

namespace Sys2Proof.Machine

open Sys2Proof

/-! ## Status registers -/

/-- MODULE_STATUS (R412). -/
def State.moduleStatus (s : State) : Nat :=
  pack [(4, modeCode s.mode), (4, 0), (3, s.causes), (5, 0), (1, b2n s.power.inputLow), (1, b2n s.mismatch),
    (1, b2n s.bm.inDeficit), (1, b2n s.host.logLost), (4, 0), (8, s.lastTrigger)]

/-- DICT_VERSION (R412). -/
def dictVersion : Nat := pack [(16, 1), (8, 3), (8, 0)]

/-- MBX_CTRL (R355): GO reads zero. -/
def State.mbxCtrl (s : State) : Nat := pack [(1, 0), (1, b2n s.host.busy), (1, b2n s.host.done), (13, 0), (16, s.host.status)]

/-- MBX_REQ and MBX_ADDR (R355). -/
def State.mbxReq (s : State) : Nat := pack [(8, s.host.op), (1, b2n s.host.sign)]
def State.mbxAddr (s : State) : Nat := pack [(16, s.host.index), (8, s.host.sub)]

/-- TE_CORE_STATUS of a core (R144, R413). -/
def State.teCoreStatus (s : State) (c : Nat) : Nat :=
  if !s.cd.running then 0
  else
    let k := s.core c
    pack [(2, k.st), (1, b2n (decide (5 ∈ k.causes))), (5, 0), (4, k.causes.headD 0), (4, 0),
      (4, (s.streamsOn c).length), (4, 0), (1, b2n k.satSeen), (1, b2n k.nanSeen), (1, b2n k.accSeen), (1, b2n k.b4Seen)]

/-- The programs that run on a core. -/
def State.runsOn (s : State) (c : Nat) : List Run :=
  (s.streamsOn c).filterMap (fun n => (s.stream n).run) ++ (tabFind s.te.host c).toList ++ (tabFind s.te.ripen c).toList

/-- TE_SEQ_STATUS of a core (R192, R413). -/
def State.teSeqStatus (s : State) (c : Nat) : Nat :=
  if !s.cd.running then 0
  else
    let k := s.core c
    let rs := s.runsOn c
    pack [(3, s.coreClass c), (1, b2n k.yielded), (1, b2n (rs.any (fun r => r.fenceWait))), (1, b2n (rs.any (fun r => r.barrier.isSome))),
      (1, b2n (rs.any (fun r => s.held r))), (1, b2n k.boundsSeen), (11, s.coreCommand c)]

/-! ## Parts of dictionary values -/

/-- A signal as the Q32 that publishes it. -/
def sigRaw (x : Int) : Nat := q32Raw (sigQ x)

/-- Lay the entries of a table of blobs out at their positions. -/
def layTab (size : Nat) (t : Tab Blob) : Blob :=
  t.foldl (fun (b : Blob) p => b + (p.2 % 2 ^ (8 * size)) <<< (8 * size * p.1)) 0

/-- A log entry's 32 bytes (R403). -/
def LogEntry.bytes (e : LogEntry) : Blob :=
  packBytes [(8, e.seq), (8, e.frame), (2, e.event), (1, 0), (1, e.state), (12, e.params)]

/-- Entry `q` of the log, or zeros where the ring does not hold it (R407). -/
def Log.entryBytes (l : Log) (q : Nat) : Blob :=
  if q < l.next ∧ 1 ≤ q then ((l.ring[l.next - 1 - q]?).map LogEntry.bytes).getD 0 else 0

/-- The page of a cursor (R407). -/
def Log.page (l : Log) (c : Nat) : Blob := packBytes ((upTo 64).map (fun i => (32, l.entryBytes (c + i))))

/-- Key record of slot 1 to 4 in the newest key table (R90). -/
def State.keyRecord (s : State) (slot : Nat) : Blob :=
  match s.nvr.newest .keys with
  | some r => bytesAt r.data (144 * (slot - 1)) 144
  | none => 0

/-- The key in a slot, 0 when empty. -/
def State.keyIn (s : State) (slot : Nat) : Blob := bytesAt (s.keyRecord slot) 0x10 32

/-- The sequence of the key table. -/
def State.keySeq (s : State) : Nat := ((s.nvr.newest .keys).map (·.seq)).getD 0

/-- The floor of a stage (R86). -/
def State.floor (s : State) (stage : Nat) : Nat :=
  match s.nvr.newest .floors with
  | some r => bytesAt r.data (4 * (stage - 1)) 4
  | none => 0

/-- Bits of a boolean by core. -/
def State.fencedMap (s : State) : Nat := maskOf 96 (fun c => decide ((s.core c).st = 3))

/-! ## Status entries by range (R389, R314, R145, R193, R250, R275, R442, R468, R503, R348, R221, R104, R418) -/

def State.status1 (s : State) (i sub : Nat) : Option Nat :=
  if i = 0x1001 then
    (match sub with | 1 => some Config.vendorId | 3 => some s.host.linkRate | 4 => some s.host.linkWidth | _ => none)
  else if i = 0x1011 ∧ sub = 1 then some s.macAddress
  else if i = 0x1012 ∧ sub = 3 then some (1 + 2 * s.shelfPos + s.slotNo)
  else if i = 0x1020 ∧ sub = 5 then some s.net.open_.length
  else if i = 0x1041 then some (layTab 72 s.peerPubs)
  else if i = 0x1300 ∧ sub = 2 then some (maskOf 24 (fun a => decide (a ∈ s.inServiceNodes)))
  else if i = 0x1330 then some (packBytes ((upTo 24).map (fun a => (32, (s.node a).words))))
  else if 0x1340 ≤ i ∧ i < 0x1358 then
    (match sub with | 5 => some (s.nodeState (i - 0x1340)) | 7 => some (s.node (i - 0x1340)).lastStatus | _ => none)
  else none

def State.loopStatus (s : State) (n sub : Nat) : Option Nat :=
  let l := s.ce.kept.loop n
  match sub with
  | 3 => some l.mode
  | 4 => some (sigRaw l.delivered)
  | 5 => some (sigRaw (accSignal l.integ).1)
  | 6 => some (sigRaw l.sp)
  | 7 => some (sigRaw l.err)
  | 8 => some l.flags
  | 9 => some l.satRuns
  | 10 => some l.intRuns
  | 11 => some l.outRuns
  | 12 => some l.followCount
  | _ => none

def State.status2 (s : State) (i sub : Nat) : Option Nat :=
  if i = 0x2001 then
    (match sub with | 1 => some (b2n s.ceRuns) | 6 => some (sigRaw s.ce.lKept) | _ => none)
  else if 0x2200 ≤ i ∧ i < 0x2240 then s.loopStatus (i - 0x2200) sub
  else if 0x2300 ≤ i ∧ i < 0x2310 then
    (match sub with
     | 1 => some (s.ce.kept.group (i - 0x2300)).winner | 2 => some (sigRaw (s.ce.kept.group (i - 0x2300)).out) | _ => none)
  else if 0x2400 ≤ i ∧ i < 0x2402 then
    let c := if i = 0x2400 then s.ce.kept.grid else s.ce.kept.storage
    (match sub with
     | 2 => some (sigRaw c.value) | 3 => some c.clamps | 4 => some c.lastClamp | _ => none)
  else if 0x2600 ≤ i ∧ i < 0x2604 then
    (match sub with
     | 10 => some (s.ce.kept.rc (i - 0x2600)).index | 11 => some (s.rcState (i - 0x2600))
     | 12 => some ((s.rcLoop (i - 0x2600)).getD 0xFF) | _ => none)
  else none

def State.loadObject (s : State) (sub : Nat) : Option Nat :=
  match sub with
  | 1 => some s.te.loadStatus
  | 2 => some s.te.loadCommitted
  | 3 => some s.te.loadLevel
  | 4 => some s.te.loadFinish
  | 5 => some (unsigned 32 s.te.loadMargin)
  | 6 => some s.te.loadLost
  | 7 => some (b2n s.te.loadRecorded)
  | _ => none

def State.streamPlace (s : State) (n sub : Nat) : Option Nat :=
  let t := s.stream n
  match sub with
  | 1 => some t.epoch
  | 2 => some (if t.loaded then (s.model t.model).ident else 0)
  | 3 => some (if t.loaded && t.slot.isSome then (s.placeReport n).1 else 0xFF)
  | 4 => some (if t.loaded && t.slot.isSome then (s.placeReport n).2 else 0)
  | 7 => some (b2n (t.loaded && t.secure))
  | _ => none

/-- A stream takes part in the runs of its core (R226, R250, R267). -/
def State.streamRuns (s : State) (n : Nat) : Bool :=
  let t := s.stream n
  s.cd.running && t.loaded && !t.copying && !t.stopped &&
  (match t.slot with | some k => s.coreOpen (k / 8) | none => false)

def State.status3 (s : State) (i sub : Nat) : Option Nat :=
  if i = 0x3001 then some s.profile
  else if i = 0x3100 then
    (match sub with
     | 1 => some (popCount 96 s.fencedMap) | 2 => some (maskOf 12 s.clusterFenced) | 3 => some s.unplaced.length | _ => none)
  else if i = 0x3101 then some s.fencedMap
  else if i = 0x3103 ∧ 1 ≤ sub ∧ sub ≤ 96 then some ((s.core (sub - 1)).causes.headD 0)
  else if i = 0x3201 then s.loadObject sub
  else if 0x3400 ≤ i ∧ i < 0x3700 ∧ sub = 8 then
    (let t := s.stream (i - 0x3400)
     some (if t.loaded then t.slot.getD 0xFFFF else 0xFFFF))
  else if 0x3700 ≤ i ∧ i < 0x3A00 then s.streamPlace (i - 0x3700) sub
  else if 0x3A00 ≤ i ∧ i < 0x3D00 then
    (match sub with
     | 1 => some (if s.streamRuns (i - 0x3A00) then (s.stream (i - 0x3A00)).stride else 0)
     | 5 => some (s.stream (i - 0x3A00)).whey | _ => none)
  else none

def State.groupObject (s : State) (g sub : Nat) : Option Nat :=
  let x := s.group g
  match sub with
  | 1 => some x.grant
  | 2 => some x.inService
  | 3 => some (q32Raw (q32Mk x.factor 29))
  | 4 => some (wattsU32 x.power)
  | 5 => some x.binding
  | 6 => some x.mask
  | _ => none

def State.status4 (s : State) (i sub : Nat) : Option Nat :=
  if i = 0x4001 then (match sub with | 5 => some (s.effv 0x4001 1) | 6 => some s.bm.source | _ => none)
  else if i = 0x4010 then
    (match sub with
     | 1 => some (wattsU32 s.bm.planned) | 2 => some (wattsU32 (s.bm.gridLimit.getD 0)) | 3 => some (wattsU32 s.bm.share)
     | 4 => some (wattsU32 s.bm.unmanaged) | 5 => some s.period
     | 6 => some ((upTo 64).filter (fun g => decide (0 < (s.group g).inService))).length | _ => none)
  else if i = 0x4020 then
    (match sub with
     | 1 => some (b2n s.bm.inDeficit) | 2 => some (wattsU32 s.bm.deficit) | 5 => some (b2n s.bm.deviceLimit) | _ => none)
  else if i = 0x4030 then
    (match sub with
     | 1 => some s.bm.dieBinding | 2 => some s.bm.dieMask | 9 => some (b2n s.bm.capUnmet) | 11 => some s.te.suspended.length
     | _ => none)
  else if 0x4200 ≤ i ∧ i < 0x4240 then s.groupObject (i - 0x4200) sub
  else if i = 0x4400 then some (layTab 8 (s.ferry.landings.map (fun p => (p.1, p.2.energy))))
  else if i = 0x4401 then some (layTab 4 (s.ferry.landings.map (fun p => (p.1, p.2.unreported))))
  else none

def State.boardObject (s : State) (p sub : Nat) : Option Nat :=
  let o := s.port p
  match sub with
  | 1 => some (itemsI16 o.values)
  | 2 => some (itemsI16 o.raw)
  | 3 => some (itemBytes 1 o.flags)
  | 4 => some o.block
  | 5 => some (itemsI16 o.temps)
  | 6 => some o.sweep
  | 7 => some o.openTaps
  | 8 => some o.suspects
  | 9 => some (pack [(1, b2n o.blockSense), (1, b2n o.unusable), (1, b2n o.dualShown)])
  | _ => none

def State.status5 (s : State) (i sub : Nat) : Option Nat :=
  if i = 0x5001 then
    (match sub with | 2 => some s.cells.lastResult | 4 => some s.cells.sweep | 5 => some s.failedPorts | _ => none)
  else if 0x5100 ≤ i ∧ i < 0x5120 then
    let o := s.port (i - 0x5100)
    (match sub with
     | 3 => some o.st | 17 => some o.status | 18 => some o.delay | 19 => some o.firmware | _ => none)
  else if 0x5200 ≤ i ∧ i < 0x5220 then s.boardObject (i - 0x5200) sub
  else if 0x5400 ≤ i ∧ i < 0x5408 then
    (match sub with
     | 1 => some (tabGet 0 s.cells.sums (i - 0x5400)) | 2 => some (tabGet 0 s.cells.convs (i - 0x5400))
     | 3 => some (b2n (bitAt s.cells.stringSum (i - 0x5400))) | _ => none)
  else none

def State.channelObject (s : State) (ch sub : Nat) : Option Nat :=
  let c := s.chan ch
  match sub with
  | 1 => some (unsigned 64 c.integ)
  | 2 => some (unsigned 32 (deciC c.q))
  | 3 => some (s.capacity ch)
  | 4 => some (natRat (s.qZero ch / 100000))
  | 5 => some (s.resistU32 ch)
  | 6 => some (s.chanFlags ch)
  | 7 => some (sigRaw (s.seSource ch 3))
  | 8 => some (sigRaw (s.seSource ch 4))
  | 9 => some (sigRaw (ratSig (((c.hot.getD 0 : Int) : Rat) / 10000)))
  | 10 => some c.disLimit
  | 11 => some c.chgLimit
  | 12 => some c.estTime
  | 13 => some (c.rest / 1000)
  | 14 => some (s.convsOf ch).length
  | _ => none

def State.status6 (s : State) (i sub : Nat) : Option Nat :=
  if i = 0x6001 then
    (match sub with
     | 1 => some (sigRaw (ratSig s.se.socBulk)) | 2 => some s.se.disTotal | 3 => some s.se.contTotal | 4 => some s.se.chgTotal
     | 7 => some s.se.seqUsed | _ => none)
  else if 0x6100 ≤ i ∧ i < 0x6108 then
    (match sub with
     | 2 => some (sigRaw (ratSig (s.soc (i - 0x6100)))) | 3 => some (b2n (s.chan (i - 0x6100)).disagree) | _ => none)
  else if 0x6200 ≤ i ∧ i < 0x6208 then s.channelObject (i - 0x6200) sub
  else none

def State.powerObject (s : State) (sub : Nat) : Option Nat :=
  match sub with
  | 1 => some s.mpcFlags
  | 2 => some s.power.vin
  | 3 => some s.power.iin
  | 4 => some s.power.powerMean
  | 5 => some (s.mpc.pAvg / 1000)
  | 6 => some (q32Raw (q32Mk s.mpc.k 30))
  | 7 => some (if (s.rail 6).on then s.vddSetpoint else 0)
  | 8 => some (s.railMv 6)
  | 9 => some (s.railDeciAmp 6)
  | 10 => some (if (s.rail 6).on then s.mpc.phases else 0)
  | 11 => some s.lambda
  | 12 => some s.mpc.duty
  | 13 => some (unsigned 32 s.hotCd)
  | 14 => some (unsigned 32 s.hotSiod)
  | 15 => some (unsigned 32 s.hotHbm)
  | _ => none

def State.status7 (s : State) (i sub : Nat) : Option Nat :=
  if i = 0x7001 then s.powerObject sub
  else if i = 0x7012 then (match sub with | 1 => some s.mpc.lCap | 2 => some s.mpc.lI | 3 => some s.mpc.lT | _ => none)
  else if i = 0x7020 then (match sub with | 2 => some (b2n s.clk.syncIn) | 3 => some s.clk.syncPos | _ => none)
  else if i = 0x7040 then some s.mpc.faultRecord
  else if 0x7100 ≤ i ∧ i < 0x715F then
    let x := s.sensor (i - 0x7100)
    (match sub with
     | 1 => some (unsigned 32 x.reading) | 2 => some (unsigned 32 x.used) | 3 => some x.st | 4 => some x.declarations | _ => none)
  else if 0x7200 ≤ i ∧ i < 0x720D then
    let r := s.rail (i - 0x7200)
    (match sub with | 1 => some r.st | 2 => some (s.railMv (i - 0x7200)) | 3 => some (s.railDeciAmp (i - 0x7200)) | 4 => some r.cause | _ => none)
  else none

def State.status8 (s : State) (i sub : Nat) : Option Nat :=
  if i = 0x8001 then
    (match sub with
     | 1 => some (b2n s.red.held) | 2 => some s.red.peerState | 3 => some s.red.lastNo
     | 4 => some (pack [(1, b2n s.red.lineFault), (1, b2n s.red.laneFault), (1, b2n s.red.cpStale)])
     | 5 => some (min (s.since (s.red.lastRecv.getD 0)) u32Max) | _ => none)
  else if i = 0x8020 then some s.red.verified
  else if i = 0x8030 then
    (match sub with
     | 2 => some s.red.toService | 3 => some s.red.silence | 4 => some s.red.cpCase | 7 => some s.red.outcome | _ => none)
  else none

def State.status9 (s : State) (i sub : Nat) : Option Nat :=
  if i = 0x9020 ∧ sub = 5 then some s.landingsIn.length
  else if 0x9100 ≤ i ∧ i < 0x9131 then
    let x := s.link (i - 0x9100)
    (match sub with
     | 1 => some x.st | 2 => some x.roundTrip | 3 => some x.phase | 13 => some (s.berthsOn (i - 0x9100)) | _ => none)
  else if i = 0x9200 then some (packBytes ((upTo 6144).map (fun l => (4, s.landingEntry l))))
  else if 0x9400 ≤ i ∧ i < 0x9431 then some (tabGet 0 s.aggregates (i - 0x9400))
  else none

def State.statusA (s : State) (i sub : Nat) : Option Nat :=
  if i = 0xA001 ∧ 1 ≤ sub ∧ sub ≤ 12 then some (tabGet 0 s.cd.stackCond (sub - 1))
  else if 0xA100 ≤ i ∧ i < 0xA10C then
    let n := i - 0xA100
    (match sub with
     | 7 => some (tabGet 0 s.cd.lastBad n) | 8 => some (tabGet 0 s.cd.progress n) | 9 => some (tabGet 0 s.cd.refreshMode n)
     | 10 => some (s.refreshOf n) | _ => none)
  else none

def State.statusB (s : State) (i sub : Nat) : Option Nat :=
  if i = 0xB001 then
    (match sub with
     | 1 => some s.power.bootStage | 2 => some s.power.bootResult | 3 => some s.power.banksUsed | 4 => some s.power.failedCond
     | 5 => some s.power.lastState | 6 => some s.power.lastFault | 7 => some s.power.bootTime | _ => none)
  else if i = 0xB010 then
    (match sub with | 1 | 2 | 3 | 4 => some (s.keyIn sub) | 5 => some s.keySeq | _ => none)
  else if i = 0xB013 then (match sub with | 1 | 2 | 3 => some (s.floor sub) | _ => none)
  else if i = 0xB021 then some s.digest
  else if i = 0xB022 then (match sub with | 1 => some s.generation | 2 => some (b2n s.mismatch) | _ => none)
  else if i = 0xB041 then some s.power.challenge
  else if i = 0xB060 then some s.clk.point
  else if i = 0xB063 then some (unsigned 32 s.clk.rootComp)
  else if i = 0xB064 then some (pack [(1, b2n s.clk.compute), (1, b2n s.clk.hbm), (1, b2n s.clk.serdes), (1, b2n s.clk.io)])
  else if i = 0xB073 then
    (match sub with | 1 => some s.power.imageStage | 2 => some s.power.imageBytes | 3 => some s.nvr.trial | _ => none)
  else none

def State.statusC (s : State) (i sub : Nat) : Option Nat :=
  if i = 0xC001 then
    (match sub with
     | 1 => some (modeCode s.mode) | 2 => some s.causes | 3 => some s.frame | 4 => some s.lastTransition
     | 5 => some s.lastTrigger | _ => none)
  else if i = 0xC021 then some s.description
  else if i = 0xC100 then (match sub with | 1 => some s.log.oldest | 2 => some s.log.next | _ => none)
  else if i = 0xC103 ∧ 1 ≤ sub ∧ sub ≤ 3 then some (s.log.page (s.odv 0xC102 sub))
  else none

/-- The value of an entry that the typed state computes. -/
def State.statusOf (s : State) (i sub : Nat) : Option Nat :=
  match i / 0x1000 with
  | 1 => s.status1 i sub | 2 => s.status2 i sub | 3 => s.status3 i sub | 4 => s.status4 i sub | 5 => s.status5 i sub
  | 6 => s.status6 i sub | 7 => s.status7 i sub | 8 => s.status8 i sub | 9 => s.status9 i sub | 10 => s.statusA i sub
  | 11 => s.statusB i sub | 12 => s.statusC i sub
  | _ => none

/-- A stored signal of the control engine, which reads at shift 30 whatever the shift it was written at: constants, set-points,
limits, steps and manual outputs, but no coefficient (R314).  A value whose conversion saturates is refused (R280). -/
def signalEntry (i sub : Nat) : Bool :=
  decide (i = 0x2008) ||
  (decide (0x2100 ≤ i ∧ i < 0x2140) && decide (sub = 3 ∨ (8 ≤ sub ∧ sub ≤ 13) ∨ sub = 18)) ||
  (decide (0x2200 ≤ i ∧ i < 0x2240) && decide (sub = 2))

/-- What a secure-world read of an existing entry returns (R11, R13): the status of a CMD entry's last execution, a
computed status, a signal at shift 30, or the stored value. -/
def State.odRead (s : State) (i sub : Nat) (e : Entry) : Nat :=
  if e.acc = .cmd then tabGet 0 s.te.lastStatus (okey i sub)
  else if sub = 0 ∧ (objectOf i).any (fun o => match o with | .record _ => true | .single _ => false) then e.dflt
  else (s.statusOf i sub).getD (if signalEntry i sub then sigRaw (s.sig i sub) else s.odv i sub)

/-- Size in bytes of what a read of an entry returns (R12, R13, R363). -/
def Entry.readBytes (e : Entry) : Nat := if e.acc = .cmd then 2 else e.ty.bytes

/-! ## Mirror (R415, R416) -/

/-- A non-secure 8-byte mirror entry, and whether reading it counts a violation. -/
def State.mirrorEntry (s : State) (i sub : Nat) : Nat × Bool :=
  match entryOf i sub with
  | none => (0, false)
  | some e =>
    if e.acc = .rws then (0, true)
    else if e.acc = .wo ∨ 8 < e.readBytes then (0, false)
    else (s.odRead i sub e, false)

end Sys2Proof.Machine
end

