-- ==== Sys2Proof/Machine/Operands.lean ====
section
/-! DEFINITION. The forms a dictionary request arrives in (R355, R356, R361, R363, R364), and the checks of R18 that need
no state of the module: addressing, access, length and signature. -/

namespace Sys2Proof.Machine

open Sys2Proof

/-! ## Requests -/

/-- One request as the module checks it: entry, operation, declared length, value, and the trailer where it is signed. -/
structure Ask where
  index : Nat
  sub : Nat
  write : Bool
  len : Nat
  value : Blob
  signed : Option Trailer
  /-- 0 host, 1 FN-A, 2 FN-B, 3 bundle, 4 signed request. R368 -/
  source : Nat
  deriving DecidableEq, Repr

/-- The key of the entry asked for. -/
def Ask.key (a : Ask) : Nat := okey a.index a.sub

/-- The request acts in the secure world once it verifies (R96, R356). -/
def Ask.secure (a : Ask) : Bool := a.signed.isSome

/-- A trailer's 104 bytes (R356). -/
def trailerBytes (t : Trailer) : Blob := packBytes [(8, t.challenge), (32, t.key), (64, t.sig)]

/-- Read a trailer. -/
def trailerOf (b : Blob) : Trailer := ⟨bytesAt b 0 8, bytesAt b 8 32, bytesAt b 40 64⟩

/-- The source code of R368 of a request that carries no bundle. -/
def sourceOf (via : Via) (signed : Bool) : Nat :=
  if signed then 4 else match via with | .host => 0 | .dap p _ _ => 1 + p

/-- The source code of R368: a bundle is its own source, whatever path carried it (R368). -/
def sourceFor (via : Via) (signed : Bool) (index : Nat) : Nat := if index % 65536 = 0xB080 then 3 else sourceOf via signed

/-- The number of bytes of a request's stream: value and trailer (R361). -/
def streamLen (len : Nat) (signed : Bool) : Nat := len + (if signed then 104 else 0)

/-- The write that a whole stream carries. -/
def streamAsk (via : Via) (signed : Bool) (index sub len : Nat) (data : Blob) : Ask :=
  { index := index % 65536, sub := sub % 256, write := true, len := len, value := bytesAt data 0 len,
    signed := if signed then some (trailerOf (bytesAt data len 104)) else none, source := sourceFor via signed index }

/-- The read that a request carries: its stream is the trailer alone (R361). -/
def readAsk (via : Via) (signed : Bool) (index sub : Nat) (data : Blob) : Ask :=
  { index := index % 65536, sub := sub % 256, write := false, len := 0, value := 0,
    signed := if signed then some (trailerOf (bytesAt data 0 104)) else none, source := sourceFor via signed index }

/-- The write that a command row carries: a value of `len` bytes. -/
def headReq (h : ReqHead) (index sub len value : Nat) : Req :=
  let v := value % 2 ^ (8 * len)
  match h.signed with
  | none => { via := h.via, signed := false, index := index, sub := sub, len := len, data := v, dataLen := len }
  | some t => { via := h.via, signed := true, index := index, sub := sub, len := len,
                data := v + trailerBytes t <<< (8 * len), dataLen := len + 104 }

/-! ## Signatures -/

/-- A key the module trusts: the root key, or an entry of the verified key table (R85, R90). -/
def State.trusted (s : State) (key : Blob) : Bool :=
  decide (sha512 32 key = Config.rootKeyHash) ||
  [1, 2, 3, 4].any (fun k => bitAt s.power.keysVerified (k - 1) && decide (s.keyIn k = key ∧ key ≠ 0))

/-- A trusted key's signature over a message of `n` bytes verifies. -/
def State.sigOk (s : State) (key : Blob) (n : Nat) (msg sig : Blob) : Bool := s.trusted key && edVerify key n msg sig

/-- The signed message (R356). -/
def Ask.message (a : Ask) (challenge : Nat) : Blob :=
  packBytes [(2, a.index), (1, a.sub), (1, if a.write then 2 else 1), (4, a.len), (a.len, a.value), (8, challenge)]

/-- A signed request quotes the present challenge and verifies (R96, R356). -/
def State.trailerOk (s : State) (a : Ask) : Bool :=
  match a.signed with
  | none => true
  | some t => decide (t.challenge = s.power.challenge) && s.sigOk t.key (16 + a.len) (a.message t.challenge) t.sig

/-- Used length L of a bundle, and whether its signature can be found (R100 step 1). -/
def bundleUsed (b : Blob) : Nat := bytesAt b 0x0C 4
def bundleFound (b : Blob) : Bool :=
  decide (bytesAt b 0 4 = 0x44584342 ∧ bytesAt b 4 2 = 1 ∧ bundleUsed b % 4 = 0 ∧ 0x30 ≤ bundleUsed b ∧ bundleUsed b ≤ 65468)

/-- A bundle's signature verifies. -/
def State.bundleSigOk (s : State) (b : Blob) : Bool :=
  bundleFound b &&
  s.sigOk (bytesAt b 0x10 32) (bundleUsed b) (bytesAt b 0 (bundleUsed b)) (bytesAt b (bundleUsed b) 64)

/-- The signature that an object's own value carries: key record, floor command, image header, bundle (R97). -/
def State.ownSigOk (s : State) (a : Ask) : Bool :=
  if a.index = 0xB011 then s.sigOk (bytesAt a.value 0x30 32) 0x50 (bytesAt a.value 0 0x50) (bytesAt a.value 0x50 64)
  else if a.index = 0xB013 ∧ a.sub = 4 then
    s.sigOk (bytesAt a.value 0x28 32) 0x48 (bytesAt a.value 0 0x48) (bytesAt a.value 0x48 64)
  else if a.index = 0xB070 then s.sigOk (bytesAt a.value 0x20 32) 0x80 (bytesAt a.value 0 0x80) (bytesAt a.value 0x80 64)
  else if a.index = 0xB080 then s.bundleSigOk a.value
  else true

/-! ## Checks 1 to 6 of R18 -/

/-- Checks 1 to 5 of R18: NO_OBJECT, NO_SUBINDEX, SECURE_ONLY, ACCESS, LENGTH. -/
def headStatus (index sub : Nat) (write : Bool) (len : Nat) (secure : Bool) : Nat :=
  match entryOf index sub with
  | none => if (objectOf index).isSome then stNoSub else stNoObject
  | some e =>
    if e.acc = .rws ∧ !secure then stSecure
    else if (write ∧ e.acc = .ro) ∨ (!write ∧ e.acc = .wo) then stAccess
    else if write ∧ (len ≠ e.ty.bytes ∨ 65535 < len) then stLength
    else stOk

/-- Checks 1 to 5 of a request. -/
def Ask.headStatus (a : Ask) : Nat := Machine.headStatus a.index a.sub a.write a.len a.secure

/-- Check 6 of R18: SIGNATURE. -/
def State.signStatus (s : State) (a : Ask) : Nat :=
  if s.trailerOk a && (!a.write || s.ownSigOk a) then stOk else stSignature

end Sys2Proof.Machine
end

