-- ==== Sys2Proof/Machine/Dictionary.lean ====
section
/-! DEFINITION. The object dictionary: checks 7 to 10 of R18, the joint checks of several objects, what each write does,
configuration bundles (R99 to R102), the digest (R103, R399) and the description of an entry (R394). -/

namespace Sys2Proof.Machine

open Sys2Proof

/-! ## Description (R394, R395) -/

/-- The 16 bytes that the describe command writes. -/
def describe (index sub : Nat) : Blob :=
  match entryOf index sub with
  | none => packBytes [(2, index), (1, sub)]
  | some e =>
    let inst := familyOf index
    let flags := 1 + 2 * b2n e.config + 4 * b2n (e.config && decide (index ≠ 0xB020)) + 8 * b2n e.counter +
      16 * b2n (decide (inst ≠ 0))
    packBytes [(2, index), (1, sub), (1, flags), (1, e.ty.code), (1, e.acc.code), (2, inst), (4, e.ty.bytes), (4, 0)]

/-! ## Joint checks

Each check takes a view of the configuration: the value that every entry would have. -/

/-- A view of the configuration: index and subindex to value. -/
abbrev View := Nat → Nat → Nat

/-- The numbers of a list repeat nowhere. -/
def distinct : List Nat → Bool
  | [] => true
  | x :: t => !t.contains x && distinct t

/-- Nodes (R374). -/
def nodesOk (v : View) : Bool :=
  let pop := v 0x1300 1
  let present := bitsOf 24 pop
  let convs := present.filter (fun a => decide (16 ≤ a))
  (upTo 24).all (fun a => decide (v (0x1340 + a) 4 ≤ 4 ∧ v (0x1340 + a) 3 < 250 * 2 ^ v (0x1340 + a) 4)) &&
  present.all (fun a =>
    let i := 0x1340 + a
    (if a < 16 then decide (1 ≤ v i 1 ∧ v i 1 ≤ 10000) else decide (v i 1 = 2000 ∧ v i 2 < 8))) &&
  decide (((convs.map (fun a => v (0x1340 + a) 2)).foldl ordInsert []).length ≤ 4)

/-- The channels whose populated ports carry a board type. -/
def channelTypes (v : View) (ch : Nat) : List Nat :=
  ((bitsOf 32 (v 0x5002 0)).filter (fun p => decide (v (0x5100 + p) 4 = ch))).map (fun p => v (0x5100 + p) 7)

/-- Population (R20): at least one rectifier. -/
def rectifierOk (v : View) : Bool := decide (v 0x1300 1 % 65536 ≠ 0)

/-- Population (R20): battery strings, supercapacitor banks and hold-up packs. -/
def populationOk (v : View) : Bool :=
  let cls := fun ch => v (0x6100 + ch) 1
  let with_ := fun t => ((upTo 8).filter (fun ch => decide (cls ch = 1) && (channelTypes v ch).contains t)).length
  decide (with_ 1 ≤ 2 ∧ with_ 2 ≤ 1 ∧ ((upTo 8).filter (fun ch => decide (cls ch = 2))).length ≤ 1)

/-- Channel cells covered by populated ports, ascending by first cell: each begins where the one before ends. -/
def covers : List (Nat × Nat) → Nat → Nat → Bool
  | [], at_, m => decide (at_ = m)
  | (first, n) :: t, at_, m => decide (first = at_) && covers t (at_ + n) m

/-- Insert a port's cells by first cell. -/
def coverInsert (x : Nat × Nat) : List (Nat × Nat) → List (Nat × Nat)
  | [] => [x]
  | y :: t => if x.1 < y.1 then x :: y :: t else y :: coverInsert x t

/-- Cell ports (R422). -/
def portsOk (v : View) : Bool :=
  let ports := bitsOf 32 (v 0x5002 0)
  let used := fun ch => decide (v (0x6100 + ch) 1 = 1 ∨ v (0x6100 + ch) 1 = 2)
  ports.all (fun p => decide (v (0x5100 + p) 4 < 8) && used (v (0x5100 + p) 4)) &&
  (upTo 8).all (fun ch =>
    !used ch ||
    (let mine := ports.filter (fun p => decide (v (0x5100 + p) 4 = ch))
     let spans := mine.foldl (fun l p => coverInsert (v (0x5100 + p) 5, v (0x5100 + p) 6) l) []
     covers spans 0 (v (0x6100 + ch) 4) &&
     (match channelTypes v ch with
      | [] => true
      | t :: ts => ts.all (fun x => x == t))))

/-- Strictly ascending. -/
def ascending : List Nat → Bool
  | [] => true
  | [_] => true
  | x :: y :: t => decide (x < y) && ascending (y :: t)

/-- Storage channels of class 1 or 2 (R444). -/
def storageOk (v : View) : Bool :=
  (upTo 8).all (fun ch =>
    let i := 0x6100 + ch
    if v i 1 = 1 ∨ v i 1 = 2 then
      let lim := fun j => signed 16 (item 2 (v i 0x13) j)
      decide (v i 4 ≠ 0 ∧ v i 8 < v i 0x0A ∧ v i 0x0A < v i 9 ∧ lim 0 < lim 1 ∧ lim 2 < lim 3) &&
      ascending ((upTo 21).map (item 2 (v i 0x14)))
    else true)

/-- Loops (R292). -/
def loopsOk (v : View) : Bool :=
  let i := fun n => 0x2100 + n
  let le := fun a b => decide (q32Val (q32Of a) ≤ q32Val (q32Of b))
  let rcs := ((upTo 64).map (fun n => v (i n) 17)).filter (fun r => decide (r < 4))
  (upTo 64).all (fun n => le (v (i n) 8) (v (i n) 9) && le (v (i n) 10) (v (i n) 11) && decide (v (i n) 15 < v (i n) 14)) &&
  distinct rcs &&
  (upTo 16).all (fun g =>
    let ms := (upTo 64).filter (fun n => decide (v (i n) 16 = g))
    decide (ms.length ≤ 8) &&
    (match ms with
     | [] => true
     | m :: t => t.all (fun n => decide (v (i n) 14 = v (i m) 14 ∧ v (i n) 15 = v (i m) 15))))

/-- Job groups (R256). -/
def groupsOk (v : View) : Bool :=
  let i := fun g => 0x4100 + g
  let counts : Tab Nat := (upTo 6144).foldl (fun (t : Tab Nat) l =>
    let g := item 1 (v 0x4002 0) l
    if g < 64 then tabMod 0 t g (· + 1) else t) []
  (upTo 64).all (fun g =>
    decide (v (i g) 1 ≤ v (i g) 2 ∧ v (i g) 2 ≤ v (i g) 3 ∧ v (i g) 1 % v (i g) 4 = 0 ∧ v (i g) 2 % v (i g) 4 = 0 ∧
      v (i g) 3 % v (i g) 4 = 0 ∧ v (i g) 9 % v (i g) 4 = 0 ∧ v (i g) 5 ≤ v (i g) 6)) &&
  decide ((counts.map (fun p => p.2 * v (i p.1) 5)).sum + v 0x4001 3 ≤ 1000000)

/-- BAR2 table against the forecast areas (R197, R199). -/
def windowOk (v : View) : Bool :=
  let rs := ((upTo 64).map (item 1 (v 0xA020 0))).filter (fun r => decide (r ≠ 0xFF))
  distinct rs && rs.all (fun r => decide (r % 12 + v 0xA010 0 < 12))

/-- Every joint check, on the configuration that a bundle would leave (R100 step 6). -/
def jointOk (v : View) : Bool :=
  rectifierOk v && nodesOk v && populationOk v && portsOk v && storageOk v && loopsOk v && groupsOk v && windowOk v

/-- The joint checks that concern a directly written index. -/
def jointFor (i : Nat) (v : View) : Bool :=
  if i = 0x1300 then rectifierOk v && nodesOk v
  else if 0x1340 ≤ i ∧ i < 0x1358 then nodesOk v
  else if 0x2100 ≤ i ∧ i < 0x2140 then loopsOk v
  else if i = 0x4001 ∨ i = 0x4002 ∨ (0x4100 ≤ i ∧ i < 0x4140) then groupsOk v
  else if i = 0x5002 ∨ (0x5100 ≤ i ∧ i < 0x5120) then populationOk v && portsOk v
  else if 0x6100 ≤ i ∧ i < 0x6108 then populationOk v && portsOk v && storageOk v
  else if i = 0xA010 ∨ i = 0xA020 then windowOk v
  else true

/-- The view after one direct write: the other entries as stored. -/
def State.viewWith (s : State) (k v : Nat) : View := fun i sub => if okey i sub = k then v else s.odv i sub

/-! ## Image transfer, floors and keys (R84 to R92) -/

/-- Area of a stage in a bank, bytes. R88 -/
def stageArea (stage : Nat) : Nat := [8, 40, 80].getD (stage - 1) 0 * 2 ^ 20

/-- Bank marked active for a stage: 0 for A. R86 -/
def Nvr.active (n : Nvr) (stage : Nat) : Nat := b2n (bitAt n.activeBank (stage - 1))

/-- The image in a bank's stage area. -/
def Nvr.image (n : Nvr) (bank stage : Nat) : Image := tabGet {} n.images (4 * bank + stage)

/-- Body length of a header. -/
def bodyLen (h : Blob) : Nat := bytesAt h 0x10 8

/-- Header conditions of R88 step 1 that answer RANGE.  DESIGN CHOICE (log entry 107): a body length outside '1 to 128 MiB' of R84,
read as 1 byte to 128 MiB, is refused there too, though R85 and R88 name no such condition. -/
def State.headerRange (s : State) (h : Blob) : Bool :=
  let stage := bytesAt h 6 1
  decide (bytesAt h 0 4 ≠ 0x44584931 ∨ bytesAt h 4 2 ≠ 1 ∨ stage = 0 ∨ 3 < stage ∨ bytesAt h 0x0C 4 ≠ 0 ∨
    bytesAt h 0x18 8 ≠ 0 ∨ bytesAt h 0xC0 64 ≠ 0 ∨ bytesAt h 8 4 < s.floor stage ∨ bodyLen h = 0 ∨
    128 * 2 ^ 20 < bodyLen h ∨ stageArea stage < 256 + bodyLen h)

/-- The header of the open transfer. -/
def State.openImage (s : State) : Image := s.nvr.image (1 - s.nvr.active s.power.imageStage) s.power.imageStage

/-- A segment breaks a rule of R88 step 2. -/
def State.segmentRange (s : State) (v : Blob) : Bool :=
  let off := bytesAt v 0 4
  let len := bodyLen s.openImage.header
  decide (off ≠ s.power.imageBytes ∨ off % 32768 ≠ 0 ∨ len ≤ off ∨ bytesAt v 4 4 ≠ 0) ||
  decide (len < off + 32768 ∧ bytesAt v (8 + (len - off)) (32768 - (len - off)) ≠ 0)

/-- An image opens (R88 step 1). -/
def State.imageOpen (s : State) (h : Blob) : State :=
  let stage := bytesAt h 6 1
  { s with
    nvr := { s.nvr with images := tabPut {} s.nvr.images (4 * (1 - s.nvr.active stage) + stage) { header := h, body := 0, unmarked := true },
                        trial := setBit s.nvr.trial (stage - 1) false }
    power := { s.power with imageStage := stage, imageBytes := 0 } }

/-- A segment is stored (R88 step 2). -/
def State.imageSegment (s : State) (v : Blob) : State :=
  let stage := s.power.imageStage
  let len := bodyLen s.openImage.header
  let k := 4 * (1 - s.nvr.active stage) + stage
  let images := tabMod {} s.nvr.images k (fun m => { m with body := m.body + bytesAt v 8 32768 <<< (8 * s.power.imageBytes) })
  { s with nvr := { s.nvr with images := images }
           power := { s.power with imageBytes := min (s.power.imageBytes + 32768) len } }

/-- The body read back agrees with the header's digest (R88 step 3). -/
def State.imageGood (s : State) : Bool :=
  let m := s.openImage
  decide (sha512 (bodyLen m.header) m.body = bytesAt m.header 0x40 64)

/-- The open transfer is complete and of the named stage. -/
def State.imageReady (s : State) (stage : Nat) : Bool :=
  decide (s.power.imageStage = stage ∧ stage ≠ 0 ∧ s.power.imageBytes = bodyLen s.openImage.header)

/-- A complete image is marked for trial, and the transfer closes (R87, R88). -/
def State.imageMark (s : State) : State :=
  let stage := s.power.imageStage
  let images := tabMod {} s.nvr.images (4 * (1 - s.nvr.active stage) + stage) (fun m => { m with unmarked := false })
  let s := { s with nvr := { s.nvr with images := images, trial := setBit s.nvr.trial (stage - 1) true } }
  -- a stage-3 image marked now waits for the next boot (R88)
  ({ s with power := { s.power with trial3 := s.power.trial3 && decide (stage ≠ 3) } }).abandonImage

/-- Keys that signed an image in an active bank or the stored bundle (R92). -/
def State.keysInUse (s : State) : List Blob :=
  [1, 2, 3].map (fun st => bytesAt (s.nvr.image (s.nvr.active st) st).header 0x20 32) ++
  ((s.nvr.newest .bundle).map (fun r => bytesAt r.data 0x10 32)).toList

/-- A key record meets a STATE condition of R92. -/
def State.keyState (s : State) (v : Blob) : Bool :=
  let op := bytesAt v 4 1
  let slot := bytesAt v 5 1
  (decide (op = 1 ∧ 1 ≤ slot ∧ slot ≤ 4) && decide (s.keyRecord slot ≠ 0)) ||
  (decide (op = 2 ∧ 1 ≤ slot ∧ slot ≤ 4) && decide (s.keyRecord slot ≠ 0) && s.keysInUse.contains (s.keyIn slot))

/-- A key record meets a RANGE condition of R91 and R92. -/
def State.keyRange (s : State) (v : Blob) : Bool :=
  let op := bytesAt v 4 1
  let slot := bytesAt v 5 1
  decide (bytesAt v 0 4 ≠ 0x44584B45 ∨ ¬(op = 1 ∨ op = 2) ∨ slot = 0 ∨ 4 < slot ∨ bytesAt v 6 2 ≠ 0 ∨ bytesAt v 0x0C 4 ≠ 0 ∨
    !newerSeq (bytesAt v 8 4) s.keySeq ∨ (op = 2 ∧ (s.keyRecord slot = 0 ∨ bytesAt v 0x10 32 ≠ s.keyIn slot)))

/-- An accepted key record goes to the next NVR slot, with the whole table (R90, R92). -/
def State.keyWrite (s : State) (v : Blob) : State :=
  let slot := bytesAt v 5 1
  let table := ((s.nvr.newest .keys).map (·.data)).getD 0
  s.nvrWrite { kind := .keys, seq := bytesAt v 8 4,
               data := setBytes table (144 * (slot - 1)) 144 (if bytesAt v 4 1 = 1 then v else 0) }

/-- A floor command meets a STATE condition of R89.  DESIGN CHOICE (log entry 107): the security version that bounds the floor is
that of the header in the stage's active bank, whichever bank the stage runs from and whether or not it has run. -/
def State.floorState (s : State) (v : Blob) : Bool :=
  let stage := bytesAt v 4 1
  decide (bytesAt v 5 1 ≠ 3) ||
  (decide (1 ≤ stage ∧ stage ≤ 3) && decide (bytesAt (s.nvr.image (s.nvr.active stage) stage).header 8 4 < bytesAt v 8 4))

/-- A floor command meets a RANGE condition of R89. -/
def State.floorRange (s : State) (v : Blob) : Bool :=
  let stage := bytesAt v 4 1
  decide (bytesAt v 0 4 ≠ 0x4458464C ∨ stage = 0 ∨ 3 < stage ∨ bytesAt v 6 2 ≠ 0 ∨ bytesAt v 0x0C 28 ≠ 0 ∨
    bytesAt v 8 4 ≤ s.floor stage)

/-- An accepted floor command goes to the next NVR slot (R89). -/
def State.floorWrite (s : State) (v : Blob) : State :=
  let old := ((s.nvr.newest .floors).map (·.data)).getD 0
  s.nvrWrite { kind := .floors, seq := s.nvr.nextSeq .floors, data := setBytes old (4 * (bytesAt v 4 1 - 1)) 4 (bytesAt v 8 4) }

/-! ## Check 7: STATE (R32 and the home chapters) -/

/-- States that accept ordinary dictionary writes, bundles and signing-key enrolment (R32). -/
def State.writesOk (s : State) : Bool := decide (s.mode = .standbyCold ∨ s.mode = .active ∨ s.mode = .degraded)

/-- ACTIVE and DEGRADED. -/
def State.acting (s : State) : Bool := decide (s.mode = .active ∨ s.mode = .degraded)

/-- States that accept model loads (R32). -/
def State.loadsOk (s : State) : Bool := s.acting && !bitAt s.causes 0

/-- Every loaded model's deadline would be met at a fixed point (R78). -/
def State.pointMeets (s : State) (p : Nat) : Bool := (upTo 96).all (fun c => s.floorplan.meets c (pointSteps p))

/-- The state condition that an entry's home chapter adds for a value, without R32 (R78, R197). -/
def State.ownState (s : State) (i sub v : Nat) : Bool :=
  if i = 0xA010 then decide (s.mode = .standbyCold)
  else if i = 0xB062 ∧ sub = 0 then decide (6 < v) || s.pointMeets v
  else true

/-- Check 7 of R18 for a write. -/
def State.writeState (s : State) (a : Ask) : Bool :=
  let v := a.value
  match a.index with
  | 0x1320 => s.writesOk && s.present (fld v 0 5)
  | 0x3022 => s.loadsOk
  | 0x3102 => s.loadsOk && decide (s.fenceStatus v ≠ stState)
  | 0x3104 => s.acting && !(v == 1 && s.cd.hostStop) && !(v == 2 && !s.cd.hostStop)
  | 0x3200 | 0x3203 => s.loadsOk
  | 0x3202 => s.loadsOk && decide (s.unloadStatus v ≠ stState)
  | 0x7041 => s.writesOk && s.releaseAllowed
  | 0x8010 => s.acting && s.switchAllowed
  | 0xB070 => decide (s.mode = .standbyCold ∧ bytesAt v 7 1 = 3)
  | 0xB071 => decide (s.mode = .standbyCold ∧ s.power.imageStage ≠ 0)
  | 0xB072 => decide (s.mode = .standbyCold) && (decide (fld v 0 2 = 0) || s.imageReady (fld v 0 2))
  | 0xB011 => s.writesOk && !s.keyState v
  | 0xB013 => s.writesOk && !s.floorState v
  | 0xB080 => decide (bytesAt v 6 1 = 3) && s.writesOk && s.power.inRange
  | 0xC002 => if v = 1 then s.acting else if v = 2 then decide (s.mode = .safeHold) && !s.hold.limit else true
  | i =>
    if 0x2200 ≤ i ∧ i < 0x2240 ∧ a.sub = 1 then s.writesOk && s.ce.inService && decide (s.mode ≠ .standbyCold)
    else if 0x2600 ≤ i ∧ i < 0x2604 ∧ a.sub = 7 then
      s.writesOk && !(match s.rcLoop (i - 0x2600) with | some n => s.loopClosed n | none => false)
    else s.writesOk && s.ownState i a.sub v

/-! ## Check 8: LOOP_CLOSED (R290) -/

/-- The entry is a coefficient of a loop that counts as closed. -/
def State.coefficientClosed (s : State) (i sub : Nat) : Bool :=
  if 0x2100 ≤ i ∧ i < 0x2140 then
    (decide (sub = 1 ∨ sub = 2 ∨ (4 ≤ sub ∧ sub ≤ 17))) && s.loopClosed (i - 0x2100)
  else if 0x2600 ≤ i ∧ i < 0x2604 then
    decide (1 ≤ sub ∧ sub ≤ 5) && (match s.rcLoop (i - 0x2600) with | some n => s.loopClosed n | none => false)
  else false

/-! ## Check 9: BUSY -/

/-- An open transfer that is not signed holds the entry (R15, R364). -/
def State.heldObject (s : State) (i : Nat) : Bool := s.net.open_.any (fun t => !t.signed && decide (t.index = i))

/-- A running load holds the objects of the streams it names, and OD 0xB062 (R189). -/
def State.loadHolds (s : State) (i : Nat) : Bool :=
  match s.te.load with
  | some l =>
    decide (i = 0xB062) ||
    (decide (0x3400 ≤ i ∧ i < 0x3A00) && (s.loadStreams l).contains ((i - 0x3400) % 768))
  | none => false

/-- A running command keeps its object busy. -/
def State.commandBusy (s : State) (i sub v : Nat) : Bool :=
  if s.loadHolds i then true
  else if i = 0x3202 then decide (s.unloadStatus v = stBusy)
  else if i = 0x8010 then s.red.switching || s.red.closeDue
  else if i = 0xB011 then s.nvr.busy .keys
  else if i = 0xB013 ∧ sub = 4 then s.nvr.busy .floors
  else if i = 0xB080 then s.power.bundleWaiting.isSome
  else false

/-! ## Check 10: RANGE -/

/-- A CMD argument is in range. -/
def State.argumentOk (s : State) (i sub v : Nat) : Bool :=
  if i = 0x1320 then decide (fld v 5 3 ≤ 2 ∧ fld v 8 8 = 0)
  else if 0x2200 ≤ i ∧ i < 0x2240 then decide (v ≤ 2)
  else if 0x2600 ≤ i ∧ i < 0x2604 then
    (if sub = 7 then decide (v = 1)
     else if sub = 8 then decide (-64 ≤ signed 16 v ∧ signed 16 v ≤ 64)
     else decide (v < s.odv i 1))
  else if i = 0x3102 then decide (s.fenceStatus v ≠ stRange)
  else if i = 0x3104 then decide (v = 1 ∨ v = 2)
  else if i = 0x3202 then decide (s.unloadStatus v ≠ stRange)
  else if i = 0x6002 then decide (v ≠ 0)
  else if i = 0x7041 ∨ i = 0x8010 then decide (v = 1)
  else if i = 0xB011 then !s.keyRange v
  else if i = 0xB013 then !s.floorRange v
  else if i = 0xB070 then !s.headerRange v
  else if i = 0xB071 then !s.segmentRange v
  else if i = 0xB072 then decide (fld v 0 2 ≠ 0 ∧ fld v 2 5 = 0)
  else if i = 0xC002 then decide (v = 1 ∨ v = 2)
  else if i = 0xC020 then decide (fld v 24 8 = 0)
  else true

/-- One value obeys its entry's limits (R8, R12, R280). -/
def valueOk (i sub : Nat) (e : Entry) (v : Nat) : Bool :=
  limitsOk i sub e v && !(signalEntry i sub && signalSat (q32Of v))

/-! ## Bundles (R99, R100) -/

/-- A bundle entry: index, subindex, length, value. -/
structure BEntry where
  index : Nat
  sub : Nat
  len : Nat
  value : Blob
  deriving DecidableEq, Repr

/-- Read the entries between `at_` and L; none where malformed. -/
def bundleEntries (b : Blob) (used : Nat) : Nat → Nat → Option (List BEntry)
  | 0, at_ => if at_ = used then some [] else none
  | n + 1, at_ =>
    if at_ = used then some []
    else
      let len := bytesAt b (at_ + 4) 2
      let size := 4 * ceilDiv (6 + len) 4
      if used < at_ + size ∨ bytesAt b (at_ + 3) 1 ≠ 0 ∨ bytesAt b (at_ + 6 + len) (size - 6 - len) ≠ 0 then none
      else
        (bundleEntries b used n (at_ + size)).map (fun l =>
          { index := bytesAt b at_ 2, sub := bytesAt b (at_ + 2) 1, len := len, value := bytesAt b (at_ + 6) len } :: l)

/-- The entries of a well-formed bundle (R100 step 5). -/
def bundleList (b : Blob) : Option (List BEntry) :=
  let used := bundleUsed b
  let gen := bytesAt b 8 4
  if bytesAt b 7 1 ≠ 0 ∨ bytesAt b (used + 64) (65535 - (used + 64)) ≠ 0 ∨ gen = 0 ∨ gen = u32Max then none
  else
    match bundleEntries b used (used / 4) 0x30 with
    | none => none
    | some l => if distinct (l.map (fun e => okey e.index e.sub)) then some l else none

/-- The entry of a key is a configuration object (R398). -/
def isConfig (k : Nat) : Bool := (entryOf (k / 256) (k % 256)).any (fun e => e.config)

/-- The value of a named entry. -/
def namedValue (l : List BEntry) (k : Nat) : Option BEntry := l.find? (fun e => decide (okey e.index e.sub = k))

/-- The view of the configuration that a bundle would leave; other entries as stored. -/
def State.bundleView (s : State) (l : List BEntry) : View := fun i sub =>
  let k := okey i sub
  match namedValue l k with
  | some e => e.value
  | none => if isConfig k then odDefault k else s.odk k

/-- The entries a bundle names and the stored ones it leaves at their defaults, ascending (R100 step 6). -/
def State.bundleKeys (s : State) (l : List BEntry) : List Nat :=
  (l.map (fun e => okey e.index e.sub) ++ (s.od.map (·.1)).filter isConfig).foldl ordInsert []

/-- Check of one entry of a bundle as a secure-world write; `boot` leaves out the conditions on the module's state. -/
def State.bundleEntryStatus (s : State) (boot : Bool) (l : List BEntry) (k : Nat) : Nat :=
  let i := k / 256
  let sub := k % 256
  match entryOf i sub with
  | none => if (objectOf i).isSome then stNoSub else stNoObject
  | some e =>
    let n := namedValue l k
    let v := (n.map (·.value)).getD (odDefault k)
    let len := (n.map (·.len)).getD e.ty.bytes
    if !e.config then stAccess
    else if len ≠ e.ty.bytes then stLength
    else if v = s.odk k then stOk
    else if !boot && !s.ownState i sub v then stState
    else if s.coefficientClosed i sub then stLoop
    else if s.heldObject i || s.loadHolds i then stBusy
    else if !valueOk i sub e v then stRange
    else stOk

/-- Steps 5 and 6 of R100: the first code that applies, and the entries. -/
def State.bundleStatus (s : State) (boot : Bool) (b : Blob) : Nat × List BEntry :=
  match bundleList b with
  | none => (stRange, [])
  | some l =>
    match (s.bundleKeys l).map (s.bundleEntryStatus boot l) |>.find? (fun st => decide (st ≠ stOk)) with
    | some st => (st, l)
    | none => if jointOk (s.bundleView l) then (stOk, l) else (stRange, l)

/-! ## The checks of a write together -/

/-- Check 7 of R18 on a request. -/
def State.stateStatus (s : State) (a : Ask) : Nat := if s.writeState a then stOk else stState

/-- Check 8 of R18. -/
def State.loopStatusOf (s : State) (a : Ask) : Nat := if s.coefficientClosed a.index a.sub then stLoop else stOk

/-- Check 9 of R18; `held` is false on a transfer that already holds the object. -/
def State.busyStatus (s : State) (a : Ask) (held : Bool) : Nat :=
  if (held && s.heldObject a.index) || s.commandBusy a.index a.sub a.value then stBusy else stOk

/-- Check 10 of R18; a bundle answers with the code of R100. -/
def State.rangeStatus (s : State) (a : Ask) : Nat :=
  match entryOf a.index a.sub with
  | none => stOk
  | some e =>
    if a.index = 0xB080 then (s.bundleStatus false a.value).1
    else if e.acc = .cmd then
      (if typeOk e.ty a.value && s.argumentOk a.index a.sub a.value then stOk else stRange)
    else if valueOk a.index a.sub e a.value && jointFor a.index (s.viewWith a.key a.value) then stOk else stRange

/-- The first of two codes that is not OK. -/
def andThen (x y : Nat) : Nat := if x = stOk then y else x

/-- Checks 6 to 10 of R18 on a whole write; the `held` object is the transfer's own where false. -/
def State.bodyStatus (s : State) (a : Ask) (held : Bool) : Nat :=
  andThen (s.signStatus a) (andThen (s.stateStatus a) (andThen (s.loopStatusOf a)
    (andThen (s.busyStatus a held) (s.rangeStatus a))))

/-- All ten checks of R18 on a write. -/
def State.writeStatus (s : State) (a : Ask) : Nat := andThen a.headStatus (s.bodyStatus a true)

/-- All checks of R18 on a read: reads are accepted in every state in which the module answers (R32). -/
def State.readStatus (s : State) (a : Ask) : Nat := andThen a.headStatus (s.signStatus a)

/-! ## What a write does -/

/-- Stop the ripening jobs where ripening is off (R247). -/
def State.ripeningChanged (s : State) : State :=
  if s.odv 0x3020 1 = 0 then s.abandonIds (s.te.jobs.map (·.1)) else s

/-- Links whose mode differs from the modes of an earlier table (R323, R348). -/
def State.linksChanged (s : State) (old : Blob) : State :=
  (upTo 48).foldl (fun (s : State) l =>
    if item 1 old l = item 1 (s.odv 0x9001 0) l then s else s.modeChanged l) s

/-- What follows at once from the new value of a setting; `old` is the value before. -/
def State.afterWrite (s : State) (i sub old : Nat) : State :=
  if 0x2200 ≤ i ∧ i < 0x2240 ∧ sub = 2 then s.ceAll (fun d => d.setLoop (i - 0x2200) (fun l => { l with newManual := none }))
  else if 0x2600 ≤ i ∧ i < 0x2604 ∧ sub = 1 then s.clearTable (i - 0x2600)
  else if i = 0x3020 then s.ripeningChanged
  else if 0x3400 ≤ i ∧ i < 0x3700 ∧ 1 ≤ sub ∧ sub ≤ 3 then s.setStream (i - 0x3400) (fun t => { t with newSettings := true })
  else if i = 0x5002 then s.cellPopulationChanged old
  else if 0x5100 ≤ i ∧ i < 0x5120 then s.portConfigChanged (i - 0x5100) sub
  else if i = 0x9001 then s.linksChanged old
  else if i = 0xB061 then s.reaim
  else if i = 0xB062 then s.fixedPointChanged
  else s

/-- A setting takes a written value; a configuration object marks the configuration modified (R102, R103). -/
def State.setValue (s : State) (i sub v : Nat) (config : Bool) : State :=
  let old := s.odv i sub
  let s := s.odWrite (okey i sub) v
  let s := if config then { s with generation := u32Max, digestDue := true } else s
  s.afterWrite i sub old

/-- Record the final status of an execution (R13). -/
def State.setLast (s : State) (i sub status : Nat) : State :=
  { s with te := { s.te with lastStatus := tabPut 0 s.te.lastStatus (okey i sub) status } }

/-- The status that a command's execution left (R13). -/
def State.lastOf (s : State) (i sub : Nat) : Nat := tabGet 0 s.te.lastStatus (okey i sub)

/-- The management operation of OD 0x1320 (R380, R389). -/
def State.nodeCommand (s : State) (v : Nat) : State :=
  let a := fld v 0 5
  match fld v 5 3 with
  | 0 => s.queueOp a 4 0
  | 1 => s.queueOp a 4 1
  | _ => s.queueOp a 5 0

/-- The CD stop command (R147). -/
def State.cdCommand (s : State) (v : Nat) : State :=
  if v = 1 then { s with cd := { s.cd with hostStop := true } }.cdStop 6
  else { s with cd := { s.cd with hostStop := false } }.cdDue

/-- An accepted bundle waits for its NVR write (R100). -/
def State.bundleAccept (s : State) (b : Blob) : State :=
  let s := { s with power := { s.power with bundleWaiting := some b, bundleStored := false } }
  s.nvrWrite { kind := .bundle, seq := s.nvr.nextSeq .bundle, data := b }

/-- Activation of a complete image, without its restart: the status of the execution (R88 step 3).  DESIGN CHOICE (log entry
107): after a mismatch of the digest the transfer stays open with its byte count; the spec says only that the area stays
unmarked. -/
def State.imageActivate (s : State) (source : Nat) : State :=
  if s.imageGood then s.imageMark.setLast 0xB072 0 stOk
  else (s.refuse 0xB072 0 stSignature source).setLast 0xB072 0 stSignature

/-- The execution of a CMD entry whose write has passed R18 (R13): its final status is recorded. -/
def State.execute (s : State) (a : Ask) : State :=
  let v := a.value
  let ok := fun (s : State) => s.setLast a.index a.sub stOk
  match a.index with
  | 0x1320 => ok (s.nodeCommand v)
  | 0x3022 => s.ripeningImage v a.secure a.source
  | 0x3102 => ok (s.fenceCommand v).settled
  | 0x3104 => ok (s.cdCommand v)
  | 0x3200 => s.startLoad v a.secure a.source
  | 0x3202 => ok (s.startUnload v)
  | 0x3203 => s.hostWork v a.secure a.source
  | 0x6002 => ok (s.resetLearned v)
  | 0x7041 => ok s.releaseLatches
  | 0x8010 => ok (s.setRed (fun r => { r with switching := true }))
  | 0xB011 => ok (s.keyWrite v)
  | 0xB013 => ok (s.floorWrite v)
  | 0xB070 => ok (s.imageOpen v)
  | 0xB071 => ok (s.imageSegment v)
  | 0xB072 => s.imageActivate a.source
  | 0xB080 => ok (s.bundleAccept v)
  | 0xC002 =>
    ok (if v = 1 then { s with hold := { s.hold with hostDue := true } } else { s with hold := { s.hold with release := true } })
  | 0xC020 => ok { s with description := describe (fld v 0 16) (fld v 16 8) }
  | i =>
    if 0x2200 ≤ i ∧ i < 0x2240 then ok (s.loopCommand (i - 0x2200) v)
    else if 0x2600 ≤ i ∧ i < 0x2604 then
      (let r := i - 0x2600
       if a.sub = 7 then ok (s.clearTable r)
       else if a.sub = 8 then ok (s.ceAll (fun d => d.setRc r (fun c => { c with nudge := some (c.nudge.getD 0 + signed 16 v) })))
       else ok (s.ceAll (fun d => d.setRc r (fun c => { c with setIndex := some v }))))
    else ok s

/-- The status a write answers once its execution has begun or its value is set: loads answer OK and report later (R182). -/
def State.answerOf (s : State) (a : Ask) (e : Entry) : Nat :=
  if e.acc = .cmd ∧ a.index ≠ 0x3200 then s.lastOf a.index a.sub else stOk

/-- Carry out a write that has passed R18. -/
def State.commit (s : State) (a : Ask) : State :=
  match entryOf a.index a.sub with
  | none => s
  | some e => if e.acc = .cmd then s.execute a else s.setValue a.index a.sub a.value e.config

/-- A new challenge follows every signed request that is accepted (R96, R357). -/
def State.newChallenge (s : State) : State :=
  let d := s.draw
  { d.2 with power := { d.2.power with challenge := d.1 % 2 ^ 64 } }

/-! ## Applying a configuration (R100, R101) -/

/-- Apply one entry of a bundle at a frame boundary. -/
def State.applyEntry (s : State) (l : List BEntry) (k : Nat) : State :=
  let v := ((namedValue l k).map (·.value)).getD (odDefault k)
  if v = s.odk k then s
  else
    let old := s.odk k
    (s.odWrite k v).afterWrite (k / 256) (k % 256) old

/-- Every object of a bundle in one frame. -/
def State.applyEntries (s : State) (l : List BEntry) : State :=
  (s.bundleKeys l).foldl (fun (s : State) k => if isConfig k then s.applyEntry l k else s) s

/-! ## The digest (R103, R399) -/

/-- One configuration entry of the canonical serialisation: length and bytes. -/
def State.serial (s : State) (x : Nat × Nat × Entry) : List (Nat × Nat) :=
  [(2, x.1), (1, x.2.1), (2, x.2.2.ty.bytes), (x.2.2.ty.bytes, s.odv x.1 x.2.1)]

/-- SHA-512 over the canonical serialisation. -/
def State.configDigest (s : State) : Blob :=
  let parts := ((configEntries.filter (fun x => decide (x.1 ≠ 0xB020))).map s.serial).flatten
  sha512 ((parts.map (·.1)).sum) (packBytes parts)

/-- CONFIG_MISMATCH after a digest (R103). -/
def State.compareDigest (s : State) : State :=
  let expected := s.odv 0xB020 0
  let bad := decide (expected ≠ 0 ∧ expected ≠ s.digest)
  let was := s.mismatch
  let s := { s with mismatch := bad }
  if bad ∧ !was then (s.logEvent 0xB002 (packBytes [(4, s.generation)])).raise irqConfig else s

/-- A digest or a generation that differs from the one last compared makes a publication due (R370). -/
def State.noteChange (s : State) : State :=
  let n := s.net
  if n.pubDigest ≠ s.digest ∨ n.pubGeneration ≠ s.generation then
    { s with net := { n with pubDigest := s.digest, pubGeneration := s.generation, pubDue := true } }
  else s

/-- The digest is recomputed at the boundary at which a configuration object changes; the flag follows at every
boundary. -/
def State.digestFrame (s : State) : State :=
  let s := if s.digestDue then { s with digest := s.configDigest, digestDue := false } else s
  s.noteChange.compareDigest

/-! ## Changes that wait for a frame boundary -/

/-- Worlds of the regions change in their own row (R95). -/
def worldKey (k : Nat) : Bool := decide (k = okey 0xB030 0 ∨ k = okey 0xB031 0)

/-- The nodes whose objects OD 0x1340 + a change when the waiting values take effect; a write of the value in effect is no
change (R382, R389). -/
def State.changedNodes (s : State) : List Nat :=
  (((s.waiting .frame).filter (fun k => decide (s.effk k ≠ s.odk k))).map (· / 256)).filterMap (fun i =>
    if 0x1340 ≤ i ∧ i < 0x1358 then some (i - 0x1340) else none)

/-- The waiting values of the frame class take effect, the worlds apart (R35, R200, R240, R389). -/
def State.frameEffects (s : State) : State :=
  let old := s.population
  let changed := s.changedNodes
  let s := { s with eff := s.eff.filter (fun p => worldKey p.1 || decide (effectOf p.1 ≠ .frame)) }
  if s.population = old ∧ changed = [] then s else s.populationChange old changed

/-- BUNDLE_APPLY (R100, R103, R382): at the first boundary after the NVR write. -/
def State.bundleApply (s : State) : State :=
  match s.power.bundleWaiting with
  | none => s
  | some b =>
    if !s.power.bundleStored || !s.services then s
    else
      let l := (bundleList b).getD []
      let u := s.applyEntries l
      let s := u.frameEffects
      -- a change of the nodes has queued the operations of R382 already
      let queued := decide (s.population ≠ u.population ∨ u.changedNodes ≠ [])
      let s := { s with generation := bytesAt b 8 4, digestDue := true,
                        power := { s.power with bundleWaiting := none, bundleStored := false } }
      let s := if queued then s.presentNodes.foldl (fun (s : State) a => s.setNode a (fun n => { n with differs := false })) s
        else s.queueNodes s.presentNodes
      (s.logEvent 0xB003 (packBytes [(4, s.generation)])).digestFrame

/-- The regions, of `n`, whose world bits differ. -/
def movedRegions (n : Nat) (old new : Blob) : List Nat := (upTo n).filter (fun r => bitAt old r != bitAt new r)

/-- What the loader and the programs hold in HBM regions is cleared with them: histories and candidates read zero, a master
copy is unusable, vat-mode weights read zero until they are laid out anew (R95, R210; log entry 97). -/
def State.clearHbm (s : State) (rs : List Nat) : State :=
  let gone := fun n x o => rs.contains (s.keptPa n x o / regionBytes)
  let touched := fun n x bytes => (upTo (bytes / regionBytes + 2)).any (fun i => gone n x (min (i * regionBytes) (bytes - 1)))
  let vats := s.te.layout.flatMap (fun p => (p.2.copies.filter (fun c => decide (c.hbm ≠ 0))).flatMap (fun c =>
    ((upTo (c.hbm / regionBytes + 2)).map (fun i =>
      (p.1, c.model, s.keptPa (p.1 / 8) (.vat p.1 c.model) (min (i * regionBytes) (c.hbm - 1)) / regionBytes))).filter
        (fun x => rs.contains x.2.2)))
  let blocks := fun (x : Kept4) (n : Nat) (m : Model) => (upTo (ceilDiv m.imageLen 4096)).filter (fun b => gone n x (4096 * b))
  let lose := fun (x : Kept4) (m : Model) => m.masters.foldl (fun (m : Model) n =>
    if touched n x m.imageLen then (blocks x n m).foldl (fun (m : Model) b => m.loseBlock n b) m else m) m
  let cores := s.te.cores.map (fun p => (p.1, { p.2 with vatErrs := p.2.vatErrs.filter (fun e =>
    !gone (p.1 / 8) (.vat p.1 (e.1 / 2 ^ 32)) (e.1 % 2 ^ 32)) }))
  let streams := s.te.streams.map (fun p => (p.1, { p.2 with history := p.2.history.drop 4096 (gone p.2.home (.history p.1)) }))
  let jobs := s.te.jobs.map (fun p => (p.1, { p.2 with
    candidate := p.2.candidate.drop 4096 (gone ((p.2.participants.headD 0) / 8) (.candidate p.1)) }))
  let models := s.te.models.map (fun p => (p.1, lose (.master p.1) p.2))
  let ripening := s.te.ripening.map (fun p =>
    let lost := p.2.masters.flatMap (fun n => if touched n (.image p.1) p.2.imageLen then blocks (.image p.1) n p.2 else [])
    (p.1, lost.foldl (fun (m : Model) b => m.zeroBlock b) (lose (.image p.1) p.2)))
  let hbm := rs.foldl (fun (m : Mem) r => m.clear 4096 (r * regionBytes) regionBytes) s.cd.hbm
  { s with
    te := { s.te with cores := cores, streams := streams, jobs := jobs, models := models, ripening := ripening,
                      hbmCleared := vats ++ s.te.hbmCleared }
    cd := { s.cd with hbm := hbm } }

/-- What stands in TE SRAM regions is cleared with them: programs, weights and the areas of streams and programs read zero,
and intake rows are missing (R95, R210). -/
def State.clearTe (s : State) (rs : List Nat) : State :=
  let gone := fun core secure x o => match s.areaRegion core secure x o with | some g => rs.contains g | none => false
  let one := fun (n : Nat) (t : Stream) => match t.slot with
    | none => t
    | some k =>
      let at_ := gone (k / 8) (s.model t.model).secure
      { t with stateMem := t.stateMem.drop 4 (at_ (.state n)), outMem := t.outMem.drop 4 (at_ (.output n)),
               scratchValid := t.scratchValid.filter (fun w => !at_ (.scratch n) (4 * w)),
               run := t.run.map (fun r => { r with scratch := r.scratch.drop 4 (at_ (.scratch n)) }) }
  let streams := s.te.streams.map (fun p => (p.1, one p.1 p.2))
  let prog := fun (area : Nat → Area) (t : Tab Run) =>
    t.map (fun p => (p.1, { p.2 with scratch := p.2.scratch.drop 4 (gone p.1 p.2.secure (area p.1)) }))
  let lost := fun (n : Nat) => match (s.stream n).slot with
    | some k => rs.contains (384 + 32 * (k / 64) + 31)
    | none => false
  let intake := s.te.intake.map (fun p => (p.1, if lost (p.1 / 8) then { p.2 with header := false, mask := 0, data := 0 } else p.2))
  let cores := s.te.cores.map (fun p => (p.1, if rs.contains (4 * p.1 + 3) then { p.2 with reserveOn := false } else p.2))
  let spans := rs.map (fun r => (r * 2 ^ 20, (r + 1) * 2 ^ 20))
  { s with te := { s.te with streams := streams, host := prog .hostScratch s.te.host, ripen := prog .ripenScratch s.te.ripen,
                             intake := intake, cores := cores, cleared := spans.foldl spanAdd s.te.cleared,
                             stale := spans.foldl spanCut s.te.stale } }

/-- What the control engine keeps in its SRAM regions: region 2r + j holds half the table of controller r, regions 8 to 15
loop, group, channel and record state (R304; log entry 97). -/
def State.clearCe (s : State) (rs : List Nat) : State :=
  let s := (rs.filter (· < 8)).foldl (fun (s : State) j => s.ceAll (fun d => d.setRc (j / 2) (fun c =>
    { c with table := c.table.filter (fun e => decide (e.1 / 524288 ≠ j % 2)),
             valid := c.valid.filter (fun w => decide (w / 262144 ≠ j % 2)) }))) s
  let s := { s with power := { s.power with siodWritten := rs.foldl (fun m j => setBit m j false) s.power.siodWritten } }
  if rs.any (8 ≤ ·) then
    let loop := fun (l : Loop) => { satRuns := l.satRuns, intRuns := l.intRuns, outRuns := l.outRuns, followCount := l.followCount : Loop }
    let blank := fun (d : CeDyn) =>
      { loops := tabMap {} loop d.loops, rcs := d.rcs, refs := d.refs, parts := d.parts, seen := d.seen, plain := d.plain,
        grid := { clamps := d.grid.clamps, lastClamp := d.grid.lastClamp },
        storage := { clamps := d.storage.clamps, lastClamp := d.storage.lastClamp } : CeDyn }
    ({ s with ce := { s.ce with record := none } }).ceAll blank
  else s

/-- REGION_WORLD_CHANGE (R95, R210): worlds change, and the regions that change read zero. -/
def State.worldChange (s : State) : State :=
  let hbm := movedRegions 144 (s.effv 0xB030 0) (s.odv 0xB030 0)
  let sram := movedRegions 784 (s.effv 0xB031 0) (s.odv 0xB031 0)
  let masks := sram.foldl (fun (m : Mem) r => m.clear 4 (r * 2 ^ 20) (2 ^ 20)) s.cd.sram
  let flips := s.cd.sramFlips.filter (fun a => !sram.contains (a / 2 ^ 20))
  let s := s.clearHbm hbm
  let s := s.clearTe (sram.filter (· < 768))
  let s := s.clearCe ((sram.filter (768 ≤ ·)).map (· - 768))
  { s with cd := { s.cd with sram := masks, sramFlips := flips }, eff := s.eff.filter (fun p => !worldKey p.1) }

end Sys2Proof.Machine
end

