-- ==== Sys2Proof/Machine/Boot.lean ====
section
/-! DEFINITION. Start-up (R50 to R52, R79 to R87, R90, R101, R464), the start of the Compute Die (R82, R83) and the module
restart (R79). -/

namespace Sys2Proof.Machine

open Sys2Proof

/-! ## The boot status object (R104) -/

/-- The boot result keeps the first condition that start-up meets. -/
def State.bootNote (s : State) (result : Nat) : State :=
  if s.power.bootResult = 0 then { s with power := { s.power with bootResult := result } } else s

/-- Start-up stops in BOOT; a stage that fails is a transition of R29 (trigger 0x02). -/
def State.bootStop (s : State) (result : Nat) (stage : Bool) : State :=
  let s := { s with power := { s.power with bootResult := result, bootStopped := true, servicesUp := false } }
  if stage then s.move .boot 0 0x02 else s

/-! ## Signed images (R85 to R87) -/

/-- The first condition of R85 that an image fails, counted from 1; 0 when it passes. -/
def State.imageCond (s : State) (stage : Nat) (m : Image) : Nat :=
  let h := m.header
  if bytesAt h 0 4 ≠ 0x44584931 ∨ bytesAt h 4 2 ≠ 1 ∨ bytesAt h 6 1 ≠ stage then 1
  else if bytesAt h 7 1 ≠ 3 then 2
  else if bytesAt h 0x0C 4 ≠ 0 ∨ bytesAt h 0x18 8 ≠ 0 ∨ bytesAt h 0xC0 64 ≠ 0 then 3
  else if !s.trusted (bytesAt h 0x20 32) then 4
  else if !s.sigOk (bytesAt h 0x20 32) 0x80 (bytesAt h 0 0x80) (bytesAt h 0x80 64) then 5
  else if sha512 (bodyLen h) m.body ≠ bytesAt h 0x40 64 then 6
  else if bytesAt h 8 4 < s.floor stage then 7
  else 0

/-- Boot result of a failed condition. -/
def condResult (c : Nat) : Nat := if c = 2 then 0x06 else if c = 7 then 0x05 else 0x01

/-- The image of a stage is on trial: marked for it, and for the stage of a CD start marked before the present boot (R87,
R88). -/
def State.onTrial (s : State) (stage : Nat) : Bool := bitAt s.nvr.trial (stage - 1) && (decide (stage ≠ 3) || s.power.trial3)

/-- Verify and start a stage (R86, R87): the trial bank first, else the active bank first.  The first component says
whether the stage runs. -/
def State.runStage (s : State) (stage : Nat) : Bool × State :=
  let act := s.nvr.active stage
  let trial := s.onTrial stage
  let banks := (if trial then [1 - act, act] else [act, 1 - act]).filter (fun b => !(s.nvr.image b stage).unmarked)
  let conds := banks.map (fun b => (b, s.imageCond stage (s.nvr.image b stage)))
  let tried := conds.takeWhile (fun p => decide (p.2 ≠ 0))
  let won := conds.find? (fun p => decide (p.2 = 0))
  let failed := match tried with | p :: _ => p.2 | [] => 0
  let s := { s with
    nvr := { s.nvr with trial := if trial then setBit s.nvr.trial (stage - 1) false else s.nvr.trial }
    power := { s.power with bootStage := stage, trial3 := s.power.trial3 && decide (stage ≠ 3), failedCond := if failed = 0 then s.power.failedCond else failed } }
  match won with
  | some p =>
    let s := { s with power := { s.power with banksUsed := setBit s.power.banksUsed (stage - 1) (p.1 == 1) } }
    if trial then
      if p.1 = act then (true, s.bootNote 0x09)
      else (true, { s with nvr := { s.nvr with activeBank := setBit s.nvr.activeBank (stage - 1) (p.1 == 1) } })
    else (true, s)
  | none => (false, s)

/-! ## The key table (R90) -/

/-- Insert a slot by the place of its record. -/
def seqInsert (seq : Nat → Nat) (k : Nat) : List Nat → List Nat
  | [] => [k]
  | x :: t => if seq k < seq x then k :: x :: t else x :: seqInsert seq k t

/-- Occupied slots of the key table in the order of enrolment: the sequences of their records count up to the newest, past
a wrap too (R461). -/
def State.keyOrder (s : State) : List Nat :=
  let age := fun (k : Nat) => (s.keySeq + 2 ^ 32 - bytesAt (s.keyRecord k) 8 4) % 2 ^ 32
  ([1, 2, 3, 4].filter (fun k => decide (s.keyRecord k ≠ 0))).foldl (fun l k => seqInsert (fun j => 2 ^ 32 - age j) k l) []

/-- A slot's enrolment record verifies against the keys verified so far. -/
def State.keyGood (s : State) (k : Nat) : Bool :=
  let v := s.keyRecord k
  decide (bytesAt v 0 4 = 0x44584B45 ∧ bytesAt v 4 1 = 1 ∧ bytesAt v 5 1 = k) &&
  s.sigOk (bytesAt v 0x30 32) 0x50 (bytesAt v 0 0x50) (bytesAt v 0x50 64)

/-- Verify the chain from the root key (R90); an entry that does not verify is ignored for this boot. -/
def State.keyChain (s : State) : State :=
  let s := { s with power := { s.power with keysVerified := 0 } }
  let order := s.keyOrder
  let s := order.foldl (fun (s : State) k =>
    if s.keyGood k then { s with power := { s.power with keysVerified := setBit s.power.keysVerified (k - 1) true } } else s) s
  if order.all (fun k => bitAt s.power.keysVerified (k - 1)) then s else s.bootNote 0x08

/-! ## The stored bundle (R101) -/

/-- The stored bundles, newest first. -/
def State.storedBundles (s : State) : List Blob :=
  let p := (s.nvr.bundle0, s.nvr.bundle1)
  let l := if s.nvr.newestIsSecond .bundle then [p.2, p.1] else [p.1, p.2]
  (l.filter (fun x => x.good .bundle)).map (·.data)

/-- A stored bundle passes the checks of R100 other than steps 3 and 4, without conditions on the module's state. -/
def State.bundlePasses (s : State) (b : Blob) : Bool :=
  s.bundleSigOk b && decide (bytesAt b 6 1 = 3) && decide ((s.bundleStatus true b).1 = stOk)

/-- Settings that start-up returns to their defaults: the configuration, and the manual outputs of the loops. -/
def bootKey (k : Nat) : Bool :=
  isConfig k || (decide (0x2200 ≤ k / 256 ∧ k / 256 < 0x2240) && decide (k % 256 = 2)) || decide (k = okey 0x4001 1)

/-- The configuration at boot: the stored bundle, or the built-in defaults (R101, R103). -/
def State.bootConfigure (s : State) : State :=
  let s := { s with od := s.od.filter (fun p => !bootKey p.1), eff := [], generation := 0, mismatch := false }
  let s := match s.storedBundles.find? s.bundlePasses with
    | some b =>
      let l := (bundleList b).getD []
      let s := l.foldl (fun (s : State) (e : BEntry) => s.odPut (okey e.index e.sub) e.value) s
      { s with generation := bytesAt b 8 4 }.logEvent 0xB003 (packBytes [(4, bytesAt b 8 4)])
    | none => s
  let s := s.odPut (okey 0x4001 1) (s.odv 0x4001 2)
  let s := { s with digest := s.configDigest, digestDue := false }
  -- the ports whose bits of OD 0x5002 become set enter STARTING (R430)
  let s := s.cellPopulationChanged 0
  -- the fixed operating point may have changed, and with it the highest level (R487)
  let s := s.fixedPointChanged
  if s.configured then s else s.bootNote 0x07

/-! ## Start-up from step 3 (R81) -/

/-- The host link trains with what its partner offers: rate and width are open (R349). -/
def State.hostLinkUp (s : State) : State :=
  let a := s.draw
  let b := a.2.draw
  { b.2 with host := { b.2.host with linkRate := 1 + a.1 % 7, linkWidth := 2 ^ (b.1 % 4) } }

/-- Step 8: the SIOD services. -/
def State.bringUp (s : State) : State :=
  let s := { s with clk := { s.clk with serdes := true }, power := { s.power with servicesUp := true } }
  (s.wroteSiod 784 801).startLinks.hostLinkUp

/-- The 16 strap samples agree (R50). -/
def strapsAgree (l : List Nat) : Bool := l.all (fun x => decide (x % 16 = l.headD 0 % 16))

/-- Cause of the newest valid fault record, 0 for none (R104, R482). -/
def State.newestFault (s : State) : Nat :=
  match s.nvr.newest .fault with | some f => bytesAt f.data 0x0A 2 | none => 0

/-- Steps 3 to 8 of R81. -/
def State.bootRun (s : State) (straps : List Nat) : State :=
  let s := { s with power := { s.power with romFrame := s.frame, bootStage := 0, bootResult := 0, banksUsed := 0,
                                            failedCond := 0, bootTime := 0, servicesUp := false, bootStopped := false,
                                            watchDone := false, trial3 := bitAt s.nvr.trial 2,
                                            lastFault := s.newestFault } }
  let s := s.newChallenge
  if !strapsAgree straps then s.bootStop 0x02 false
  else
    let id := straps.headD 0 % 16
    let s := { s with power := { s.power with slotId := id, straps := id } }
    let s := s.keyChain
    let one := s.runStage 1
    if !one.1 then one.2.bootStop (condResult one.2.power.failedCond) true
    else
      let two := one.2.runStage 2
      if !two.1 then two.2.bootStop (condResult two.2.power.failedCond) true
      else two.2.bootConfigure.seBoot.bringUp

/-- INPUT_ENTERS_RANGE: steps 1 and 2 of R81, and the steps after them. -/
def State.powerOn (s : State) (b : BootInputs) : State :=
  if s.mode ≠ .off then s
  else
    let before := s.nvr.lastState
    let fault := (s.nvr.newest .fault).map (·.data)
    let s := { s with
      power := { s.power with hotSwap := true, inRange := true, lastState := before, lastFault := s.newestFault }
      mpc := { s.mpc with faultRecord := fault.getD 0 } }
    let s := s.moveTo .boot 0 0x00
    match b.highSideShort with
    | some j => if j < 5 then s.latchRail j 0x25 {mv := 0, deciAmp := 0, limited := 0} else s
    | none =>
      let s := (s.raiseRails [[0], [1], [2], [3], [4]]).rampNext
      let s := { s with
        clk := { s.clk with rc := true, root := true, io := true }
        power := { s.power with flowOk := b.flowOk, flowSince := s.intake } }
      s.bootRun b.straps

/-! ## Module restart (R79) -/

/-- What a restart leaves of a link: the sticky bits of FERRY_LINK_STATUS, which reset at SIOD power-on only (R347). -/
def Link.sticky (l : Link) : Link :=
  { dropSeen := l.dropSeen, staleSeen := l.staleSeen, uncorrSeen := l.uncorrSeen, downSeen := l.downSeen,
    nonCompSeen := l.nonCompSeen }

/-- What a restart leaves of the CE: the counters, the PLAIN bit and the groups' outputs, which reset at SIOD power-on only, and the
valid bits of the controllers' tables (R210, R294, R313, R314). -/
def CeDyn.sticky (d : CeDyn) : CeDyn :=
  { loops := tabMap {} (fun (l : Loop) =>
      { satRuns := l.satRuns, intRuns := l.intRuns, outRuns := l.outRuns, followCount := l.followCount }) d.loops,
    groups := tabMap {} (fun (g : Group) => { out := g.out }) d.groups, plain := d.plain,
    grid := { clamps := d.grid.clamps }, storage := { clamps := d.storage.clamps },
    rcs := tabMap {} (fun (c : Rc) => { valid := c.valid }) d.rcs }

/-- What a restart of the SIOD services takes with it: PCI Express, field network, Ferry links, CE, BM and cell ports
start anew, and the charge integrators, the log, the counters and the always-on parts stay. -/
def State.servicesReset (s : State) : State :=
  { s with
    host := { linkRate := 0, linkWidth := 0, logLost := s.host.logLost }
    net := { linkA := s.net.linkA, linkB := s.net.linkB }
    ferry := { landings := s.ferry.landings.map (fun p => (p.1, { epoch := p.2.epoch, energy := p.2.energy,
                                                                  unreported := p.2.unreported }))
               links := tabMap {} Link.sticky s.ferry.links }
    ce := { kept := s.ce.kept.sticky, lastB := s.ce.lastB, followSeen := s.ce.followSeen, staleSeen := s.ce.staleSeen, clampSeen := s.ce.clampSeen, satSeen := s.ce.satSeen }
    bm := {}
    cells := {}
    gw := { missSeen := s.gw.missSeen, contentionSeen := s.gw.contentionSeen, changeSeen := s.gw.changeSeen,
            mgmtFailSeen := s.gw.mgmtFailSeen }
    hold := {}
    peerPubs := []
    aggregates := []
    description := 0
    red := { yielded := s.red.yielded, freeSince := s.intake, toService := s.red.toService, silence := s.red.silence,
             cpCase := s.red.cpCase, outcome := s.red.outcome, lastNo := s.red.lastNo } }

/-- The module restart, with the trigger of its transition. -/
def State.moduleRestart (s : State) (trigger : Nat) (straps : List Nat) : State :=
  if s.power.leaving then s else
  let before := modeCode s.mode
  let s := s.closeGate.cdStop 0
  let s := { s with
    cd := { s.cd with due := false, hostStop := false, retry := false }
    clk := { s.clk with serdes := false }
    power := { s.power with lastState := before, bundleWaiting := none, bundleStored := false }
    notRunning := false, profile := 3 }
  let s := s.servicesReset.moveTo .boot 0 trigger
  s.bootRun straps

/-! ## CD start (R82, R83) -/

/-- Counters of the Compute Die and of forecasting, which a CD start resets (R218, R250). -/
def cdCounter (k : Nat) : Bool :=
  let i := k / 256
  decide (0xA100 ≤ i ∧ i < 0xA10C) || decide (0xA200 ≤ i ∧ i < 0xA20C) || decide (0xA300 ≤ i ∧ i < 0xA300 + 768) ||
  decide (i = 0x3030 ∧ 1 ≤ k % 256 ∧ k % 256 ≤ 14) ||
  (decide (0x3A00 ≤ i ∧ i < 0x3D00) && decide (k % 256 ∈ [2, 3, 4, 6]))

/-- Step 1 begins: the rails rise at OP6, VDD_CA, VDD_C, then the HBM rails together (R470).  A rail remembers its
soft-start short until it is power-good (R477). -/
def State.cdPower (s : State) : State :=
  let s := { s with
    clk := { s.clk with point := 6, divider := 256, vddC := 800, target := none, nextTarget := none }
    mpc := { s.mpc with phases := 32, below := 0, sinceShed := 64, holdoff := false, shedding := false,
                        windows := [], feedForward := 0, k := 1, nextK := none, estEnergy := 0, headroom := 0 } }
  let s := s.raiseRails [[5], [6], [7, 8, 9, 10, 11, 12]]
  { s with clk := { s.clk with compute := true, hbm := true } }

/-- Steps 4 and 5: every stack trained and every core tested (R137, R144, R201, R210, R214, R218). -/
def State.cdRun (s : State) (untrained failed : List Nat) : State :=
  let cd := s.cd
  let s := { s with
    od := s.od.filter (fun p => !cdCounter p.1)
    cd := { running := true, thermalLatch := cd.thermalLatch, sram := cd.sram.clear 4 0 (768 * 2 ^ 20),
            sramFlips := cd.sramFlips.filter (768 * 2 ^ 20 ≤ ·),
            stackCond := (upTo 12).foldl (fun (t : Tab Nat) n => tabPut 0 t n 1) [],
            sramAt := cd.sramAt.filter (fun p => decide (768 ≤ p.1)) }
    te := { s.te.stopped with cores := (upTo 96).foldl (fun (t : Tab Core) c => tabPut {} t c { st := 2 }) [], clusters := [],
                              slotFreed := true, mergeNext := s.intake, mergeStarted := s.intake } }
  let s := { s with mpc := { s.mpc with activityRead := [] } }
  let s := ((upTo 12).filter (fun n => decide (n ∈ untrained))).foldl (fun (s : State) n => s.stackFailed n 1) s
  ((upTo 96).filter (fun c => decide (c ∈ failed))).foldl (fun (s : State) c => s.fenceOne c 1) s

/-- A CD start, begun: CD_STOPPED clears. -/
def State.cdStart (s : State) (inp : CdStartInputs) : State :=
  let s := { s with cd := { s.cd with due := false } }
  match inp.highSideShort with
  | some j =>
    if 5 ≤ j ∧ j < 13 then s.latchRail j 0x25 { mv := 0, deciAmp := 0, limited := 0 } else s
  | none =>
    let three := s.cdPower.runStage 3
    if three.1 then (three.2.cdRun inp.untrained inp.selfTestFail).reaim
    else
      let s := three.2
      { s with
        cd := { s.cd with stage3Failed := true }
        clk := { s.clk with compute := false, hbm := false }
        mpc := s.mpc.lowerCd
        notRunning := decide (s.odv 0x3000 0 ≠ 3)
        power := { s.power with bootResult := condResult s.power.failedCond } }

/-- CD_START: a due start whose conditions hold. -/
def State.cdStartDue (s : State) (inp : CdStartInputs) : State := if s.cdMayStart then s.cdStart inp else s

/-- SOFT_START_RETRY (R479, R480): the retry of a SIOD rail in BOOT, or of a CD start. -/
def State.softStartRetry (s : State) (j : Nat) (inp : CdStartInputs) : State :=
  if (s.rail j).st ≠ 3 then s
  else if j < 5 then
    if s.mode ≠ .boot then s
    else match inp.highSideShort with
      | some k => if j ≤ k ∧ k < 5 then s.latchRail k 0x25 { mv := 0, deciAmp := 0, limited := 0 } else s
      | none =>
        let s := s.raiseRails (((upTo 5).filter (j ≤ ·)).map (fun k => [k]))
        { s with power := { s.power with servicesUp := !s.power.bootStopped } }
  else
    let s := { s with
      cd := { s.cd with retry := false }
      mpc := { s.mpc with rails := tabMod {} s.mpc.rails j (fun r => { r with st := 0 }) } }
    -- the wait was the last cause that stopped the CD, or another one holds (R82)
    let s := s.cdDue
    if s.cdMayStart then s.cdStart inp else s

end Sys2Proof.Machine
end

