-- ==== Sys2Proof/Machine/Requests.lean ====
section
/-! DEFINITION. How dictionary requests arrive, are answered and are carried out: the host mailbox (R355 to R357) and the
field network (R361 to R367). -/

namespace Sys2Proof.Machine

open Sys2Proof

/-- The module answers dictionary requests: its services run, or it has stopped in BOOT and reports why (R29, R32). -/
def State.answers (s : State) : Bool := s.services || (s.up && s.power.bootStopped)

/-- The host reaches the module: no D3hot (R353). -/
def State.hostReaches (s : State) : Bool := s.answers && !s.host.d3hot

/-! ## Reads and writes that have been checked -/

/-- What a request leaves: the status answered, the value of a read, and the state. -/
structure Done where
  status : Nat
  len : Nat
  value : Blob
  state : State

/-- A signed request that is accepted draws a new challenge (R357). -/
def State.accepted (s : State) (a : Ask) : State := if a.secure then s.newChallenge else s

/-- Carry out a read (R18, R363). -/
def State.doRead (s : State) (a : Ask) : Done :=
  let st := s.readStatus a
  match entryOf a.index a.sub with
  | none => ⟨st, 0, 0, s.refuse a.index a.sub st a.source⟩
  | some e =>
    if st = stOk then ⟨stOk, e.readBytes, s.odRead a.index a.sub e, s.accepted a⟩
    else ⟨st, 0, 0, s.refuse a.index a.sub st a.source⟩

/-- Carry out a write whose checks gave `st` (R13, R16, R17). -/
def State.conclude (s : State) (a : Ask) (st : Nat) : Done :=
  match entryOf a.index a.sub with
  | none => ⟨st, 0, 0, s.refuse a.index a.sub st a.source⟩
  | some e =>
    if st = stOk then
      let s := (s.commit a).accepted a
      ⟨s.answerOf a e, 0, 0, s⟩
    else ⟨st, 0, 0, s.refuse a.index a.sub st a.source⟩

/-- Carry out a whole write. -/
def State.doWrite (s : State) (a : Ask) : Done := s.conclude a (s.writeStatus a)

/-- An image activation that asked for it restarts the module (R88 step 3): the restart is due, and begins at the next frame
boundary with the straps that it will sample (R30). -/
def State.restartAfter (s : State) (index status : Nat) (value : Blob) (straps : List Nat) : State :=
  if index = 0xB072 ∧ status = stOk ∧ bitAt value 7 then { s with power := { s.power with restart := some straps } } else s

/-! ## The host mailbox -/

/-- Finish the mailbox request: STATUS, DONE and the interrupt; a read leaves the object's size and value (R355, R358). -/
def State.mailboxDone (d : Done) (read : Bool) : State :=
  let s := d.state
  let h := { s.host with busy := false, done := true, status := d.status }
  let h := if read ∧ d.status = stOk then { h with length := d.len, area := setBytes h.area 0 d.len d.value } else h
  let s := { s with host := h }
  (s.raise irqMailbox).emit (.answer .host d.status d.len d.value)

/-- GO of MBX_CTRL: the request that the mailbox registers hold. -/
def State.mailboxGo (s : State) (straps : List Nat) : State :=
  let s := s.count 0x1001 6
  let h := s.host
  let trailer := if h.sign then some (trailerOf h.trailer) else none
  let source := sourceFor .host h.sign h.index
  if h.op = 1 then
    State.mailboxDone (s.doRead { index := h.index, sub := h.sub, write := false, len := 0, value := 0, signed := trailer,
                                  source := source }) true
  else if h.op = 2 then
    let a : Ask := { index := h.index, sub := h.sub, write := true, len := h.length, value := bytesAt h.area 0 (min h.length 65535),
                     signed := trailer, source := source }
    let d := s.doWrite a
    (State.mailboxDone d false).restartAfter h.index d.status a.value straps
  else State.mailboxDone ⟨stRange, 0, 0, s.refuse h.index h.sub stRange source⟩ false

/-- The registers of the mailbox as the host leaves them for a request. -/
def HostPort.mailboxSet (h : HostPort) (op : Nat) (r : Req) : HostPort :=
  let n := if op = 2 then min r.len 65536 else 0
  let h := { h with op := op, sign := r.signed, index := r.index % 65536, sub := r.sub % 256 }
  let h := if op = 2 then { h with length := r.len % 2 ^ 32, area := setBytes h.area 0 n (bytesAt r.data 0 n) } else h
  if r.signed then { h with trailer := bytesAt r.data (if op = 2 then r.len else 0) 104 } else h

/-- A request of the host: it writes the mailbox and rings GO. -/
def State.hostRequest (s : State) (op : Nat) (r : Req) (straps : List Nat) : State :=
  if s.hostReaches then ({ s with host := s.host.mailboxSet op r }).mailboxGo straps else s

/-! ## The field network -/

/-- The latest answer of a client is kept for 1 s (R366). -/
def State.keepAnswer (s : State) (k : Kept) : State :=
  let old := s.net.kept.filter (fun x => !(x.port == k.port && x.mac == k.mac) && decide (s.intake < x.at_ + 1000000))
  { s with net := { s.net with kept := k :: old } }

/-- The number of frames that carry a stream in 1,400-byte pieces. -/
def dapFrames (n : Nat) : Nat := max 1 (ceilDiv n 1400)

/-- The header of an answer; SIGNED and the declared length are echoed, and READ_DATA declares the object's size (log
entry 100). -/
def Kept.head (k : Kept) : DapHead :=
  { typ := if k.write then 0x82 else 0x81, tag := k.tag, index := k.index, sub := k.sub, signed := k.signed, final := true,
    declared := if k.write then k.declared else k.len, offset := if k.write then k.accepted else 0, status := k.status }

/-- The frames of a final answer: one WRITE_ACK, or READ_DATA in stream order, at most 1,400 bytes each, FINAL on the last
(R363, R364). -/
def State.sendAnswer (s : State) (k : Kept) : State :=
  if k.write then s.sendDap k.port k.mac k.head 0 0
  else
    let n := dapFrames k.len
    (upTo n).foldl (fun (s : State) i =>
      let len := min 1400 (k.len - 1400 * i)
      s.sendDap k.port k.mac { k.head with final := decide (i + 1 = n), offset := 1400 * i } len
        (bytesAt k.value (1400 * i) len)) s

/-- What an answer echoes of its request: index, subindex, SIGNED, declared length, stream bytes accepted. -/
structure Echo where
  index : Nat
  sub : Nat
  signed : Bool
  declared : Nat
  accepted : Nat

/-- The final answer of a transfer. -/
def State.dapAnswer (d : Done) (port mac tag : Nat) (write : Bool) (e : Echo) : State :=
  let k : Kept := ⟨port, mac, tag, write, d.status, d.len, d.value, e.index, e.sub, e.signed, e.declared, e.accepted,
    d.state.intake⟩
  (d.state.sendAnswer k).keepAnswer k

/-- The kept answer that a repeated READ or WRITE names. -/
def State.keptFor (s : State) (port mac tag : Nat) : Option Kept :=
  s.net.kept.find? (fun k => k.port == port && k.mac == mac && k.tag == tag && decide (s.intake < k.at_ + 1000000))

/-- The open transfer of a client and tag. -/
def State.transferOf (s : State) (port mac tag : Nat) : Option Transfer :=
  s.net.open_.find? (fun t => t.port == port && t.mac == mac && t.tag == tag)

def Transfer.same (t u : Transfer) : Bool := t.port == u.port && t.mac == u.mac && t.tag == u.tag

/-- Close a transfer: its object is released. -/
def State.closeTransfer (s : State) (t : Transfer) : State :=
  { s with net := { s.net with open_ := s.net.open_.filter (fun u => !t.same u) } }

/-- What the answers of a transfer echo. -/
def Transfer.echo (t : Transfer) : Echo := ⟨t.index, t.sub, t.signed, t.len, t.got⟩

/-- A WRITE_ACK that is not final: the stream bytes accepted (R364). -/
def State.sendAck (s : State) (t : Transfer) : State :=
  s.sendDap t.port t.mac { typ := 0x82, tag := t.tag, index := t.index, sub := t.sub, signed := t.signed, declared := t.len,
                           offset := t.got } 0 0

/-- A transfer is abandoned (R365). -/
def State.abandon (s : State) (t : Transfer) : State :=
  let s := (s.closeTransfer t).refuse t.index t.sub stLength (sourceFor (.dap t.port t.mac t.tag) t.signed t.index)
  let s := (s.count 0x1020 3).raise irqField
  State.dapAnswer ⟨stLength, 0, 0, s⟩ t.port t.mac t.tag true t.echo

/-- READ (R363): a repeated one is answered from the kept copy. -/
def State.dapRead (s : State) (port mac tag : Nat) (r : Req) : State :=
  let s := s.count 0x1020 1
  match s.keptFor port mac tag with
  | some k => (s.count 0x1020 4).sendAnswer k
  | none =>
    State.dapAnswer (s.doRead (readAsk (.dap port mac tag) r.signed r.index r.sub r.data)) port mac tag false
      ⟨r.index % 65536, r.sub % 256, r.signed, 0, 0⟩

/-- The write of a transfer whose whole stream has arrived. -/
def Transfer.ask (t : Transfer) : Ask :=
  streamAsk (.dap t.port t.mac t.tag) t.signed t.index t.sub t.len t.data

/-- The checks that remain when the stream is complete (R364): a transfer that is not signed holds its object itself, and
the signature within its value can only now be checked. -/
def State.lateStatus (s : State) (a : Ask) : Nat := s.bodyStatus a a.secure

/-- The stream is complete. -/
def State.finishTransfer (s : State) (t : Transfer) (straps : List Nat) : State :=
  let s := s.closeTransfer t
  let a := t.ask
  let d := s.conclude a (s.lateStatus a)
  (State.dapAnswer d t.port t.mac t.tag true t.echo).restartAfter a.index d.status a.value straps

/-- The part of the STATE check that does not depend on the value. -/
def State.openState (s : State) (i sub : Nat) : Bool :=
  match i with
  | 0x1320 | 0xB011 | 0xB013 => s.writesOk
  | 0x3022 | 0x3102 | 0x3200 | 0x3202 | 0x3203 => s.loadsOk
  | 0x3104 => s.acting
  | 0xB070 | 0xB072 => decide (s.mode = .standbyCold)
  | 0xB080 => s.writesOk && s.power.inRange
  | 0xB062 => s.writesOk
  | 0xC002 => s.acting || decide (s.mode = .safeHold)
  | _ => s.writeState { index := i, sub := sub, write := true, len := 0, value := 0, signed := none, source := 0 }

/-- Checks on an opening frame that does not carry the whole stream (R364, R367). -/
def State.openStatus (s : State) (t : Transfer) : Nat :=
  let a := t.ask
  let full := if 8 ≤ s.net.open_.length then stBusy else stOk
  let busy := s.heldObject a.index || (decide (a.index ≠ 0x3202) && s.commandBusy a.index a.sub 0)
  if t.signed then andThen a.headStatus full
  else
    andThen a.headStatus (andThen (if s.openState a.index a.sub then stOk else stState)
      (andThen (s.loopStatusOf a) (andThen (if busy then stBusy else stOk) full)))

/-- The frames of a transfer but its last, 1,400 bytes each: each is answered with the stream bytes accepted (R364). -/
def State.ackFrames (s : State) (t : Transfer) (frames : Nat) : State :=
  (upTo (frames - 1)).foldl (fun (s : State) i => s.sendAck { t with got := 1400 * (i + 1) }) s

/-- Checks on the opening frame, where the stream takes several frames (R364). -/
def State.openedStatus (s : State) (t : Transfer) (frames : Nat) : Nat :=
  if t.got = streamLen t.len t.signed ∧ frames ≤ 1 then stOk else s.openStatus t

/-- The transfer that the frames of a write row carry (R363). -/
def reqTransfer (r : Req) (port mac tag : Nat) : Transfer :=
  { port := port, mac := mac, tag := tag, signed := r.signed, index := r.index % 65536, sub := r.sub % 256,
    len := r.len, data := bytesAt r.data 0 r.dataLen, got := r.dataLen }

/-- WRITE (R364): `frames` frames carry what has arrived, a WRITE and then SEGMENTs, none after a refusal of the first. -/
def State.dapWrite (s : State) (port mac tag : Nat) (r : Req) (straps : List Nat) (frames : Nat) : State :=
  match s.keptFor port mac tag with
  | some k => ((s.count 0x1020 1).count 0x1020 4).sendAnswer k
  | none =>
    let s := match s.transferOf port mac tag with
      | some t => s.abandon t
      | none => s
    let t := reqTransfer r port mac tag
    let total := streamLen r.len r.signed
    let a := t.ask
    let st := s.openedStatus t frames
    if st ≠ stOk then
      State.dapAnswer ⟨st, 0, 0, (s.count 0x1020 1).refuse a.index a.sub st a.source⟩ port mac tag true { t.echo with accepted := min 1400 t.got }
    else
      let s := s.count 0x1020 1 frames
      if r.dataLen = total then
        let d := s.doWrite a
        -- the acknowledgements of the earlier frames stand before what the write itself sends
        let out := (s.ackFrames t frames).out ++ d.state.out.drop s.out.length
        (State.dapAnswer { d with state := { d.state with out := out } } port mac tag true t.echo).restartAfter a.index d.status
          a.value straps
      else
        let s := s.ackFrames t frames
        if total < r.dataLen then s.abandon t
        else ({ s with net := { s.net with open_ := s.net.open_ ++ [t] } }).sendAck t

/-- A frame that is dropped without an answer (R362). -/
def State.dapDrop (s : State) : State := (s.count 0x1020 1).count 0x1020 2

/-- SEGMENT (R364, R365). -/
def State.dapSegment (s : State) (port mac tag offset : Nat) (data : Blob) (len : Nat) (straps : List Nat) : State :=
  match s.transferOf port mac tag with
  | none => s.dapDrop
  | some t =>
    let s := s.count 0x1020 1
    let total := streamLen t.len t.signed
    if offset ≠ t.got ∨ total < t.got + len then s.abandon t
    else
      let u := { t with data := t.data + bytesAt data 0 len <<< (8 * t.got), got := t.got + len }
      if u.got = total then s.finishTransfer u straps
      else
        let s := { s with net := { s.net with open_ := s.net.open_.map (fun x => if t.same x then u else x) } }
        s.sendAck u

/-- ABORT (R365). -/
def State.dapAbort (s : State) (port mac tag : Nat) : State :=
  match s.transferOf port mac tag with
  | none => s.dapDrop
  | some t => (s.count 0x1020 1).abandon t

/-- 100 ms without a frame (R365). -/
def State.dapTimeout (s : State) (port mac tag : Nat) : State :=
  match s.transferOf port mac tag with
  | none => s
  | some t => s.abandon t

/-! ## Requests of either path -/

/-- A dictionary read (R18, R355, R363). -/
def State.requestRead (s : State) (r : Req) : State :=
  match r.via with
  | .host => s.hostRequest 1 r []
  | .dap p m t => if s.answers then s.dapRead p m t r else s

/-- A dictionary write (R18, R355, R364) that arrives in as many frames as it needs. -/
def State.requestWrite (s : State) (r : Req) (straps : List Nat) (frames : Nat) : State :=
  match r.via with
  | .host => s.hostRequest 2 r straps
  | .dap p m t => if s.answers then s.dapWrite p m t r straps frames else s

/-- The straps that a restart would sample, where a command does not carry them. -/
def State.presentStraps (s : State) : List Nat := [s.power.straps]

/-- A command of a special entry: the whole write of a value of `len` bytes. -/
def State.command (s : State) (h : ReqHead) (index sub len value : Nat) (straps : List Nat) : State :=
  let r := headReq h index sub len value
  s.requestWrite r straps (dapFrames r.dataLen)

end Sys2Proof.Machine
end

