-- ==== Sys2Proof/Machine/Frame.lean ====
section
/-! DEFINITION. The Gangway frame boundary (R28 to R35, R276, R298, R302, R303, R338, R376, R532): the evaluation of the
operating state, the effective profile, and the order in which the blocks act at a boundary. -/

namespace Sys2Proof.Machine

open Sys2Proof

/-! ## Degradation causes (R28) -/

/-- Some loaded stream runs: it has a slot on a core that runs and is not suspended, and its copy is complete. -/
def State.forecastRunning (s : State) : Bool :=
  s.cd.running && s.te.streams.any (fun p =>
    p.2.loaded && !p.2.copying && !p.2.stopped &&
    (match p.2.slot with
     | some k => decide ((s.core (k / 8)).st = 2) && !(s.core (k / 8)).suspended
     | none => false))

/-- FORECAST_NOT_RUNNING holds. -/
def State.noForecast (s : State) : Bool := decide (s.odv 0x3000 0 ≠ 3) && !s.forecastRunning

/-- The degradation causes in force. -/
def State.causesNow (s : State) : Nat :=
  pack [(1, b2n s.cdStoppedNow), (1, b2n s.noForecast), (1, b2n s.reducedNow)]

/-! ## SAFE_HOLD (R29, R532) -/

/-- Every present node has missed its last three due replies (R29, R379). -/
def State.nodesSilent (s : State) : Bool :=
  decide (s.presentNodes ≠ []) && s.presentNodes.all s.word0Missing

/-- Some present node returned a good due reply in the frame that has ended. -/
def State.nodeHeard (s : State) : Bool := s.presentNodes.any (fun a => (s.node a).fresh)

/-- The causes of a hold that are present at this boundary join it. -/
def State.holdCauses (s : State) : State :=
  { s with hold := { s.hold with damage := s.hold.damage || s.hold.damageDue, noMeas := s.hold.noMeas || s.nodesSilent,
                                 host := s.hold.host || s.hold.hostDue, damageDue := false, hostDue := false } }

/-- Enter SAFE_HOLD where a cause is present. -/
def State.enterHold (s : State) : State :=
  let trigger := if s.hold.damageDue then 0x08 else if s.nodesSilent then 0x09 else 0x0A
  s.holdCauses.move .safeHold 0 trigger

/-- The state an ended hold leaves to: causes re-evaluated, and the CE restarted (R29, R311, R532). -/
def State.leaveHold (s : State) (trigger : Nat) : State :=
  let causes := s.causesNow
  let s := { s with hold := {} }
  s.ceRestart.move (if causes = 0 then .active else .degraded) causes trigger

/-- Clear the causes that R532 says have cleared. -/
def State.clearHold (s : State) : State :=
  { s with hold := { s.hold with damage := s.hold.damage && s.red.own.isNone, noMeas := s.hold.noMeas && !s.nodeHeard } }

/-- A boundary in SAFE_HOLD: after the hold limit or a conflict nothing ends the hold but the lease's end. -/
def State.holdFrame (s : State) : State :=
  if s.hold.limit || s.hold.conflict then s
  else if s.hold.release then s.leaveHold 0x0C
  else
    let s := s.clearHold.holdCauses
    if s.hold.damage || s.hold.noMeas || s.hold.host then s else s.leaveHold 0x0B

/-! ## Evaluation (R30) -/

/-- The state of a module in ACTIVE or DEGRADED, from its causes. -/
def State.causesFrame (s : State) : State :=
  let c := s.causesNow
  if c = s.causes then s
  else if c = 0 then s.move .active 0 0x07
  else s.move .degraded c 0x06

/-- The restart that an image activation has asked for begins at the frame boundary (R30, R79, R88).  R405 gives it no trigger
code of its own: the code is open among those of its table (log entry 1). -/
def State.restartFrame (s : State) : State :=
  match s.power.restart with
  | some straps => s.draw.2.moduleRestart (s.draw.1 % 16) straps
  | none => s

/-- The state evaluation of one frame boundary, by precedence (R30): nothing while OFF waits, the lost lease, a restart that
is due, the switch-over, SAFE_HOLD, DEGRADED and its causes, the return to ACTIVE. -/
def State.judge (s : State) : State :=
  let s := { s with notRunning := s.noForecast && holdsLeaseMode s.mode }
  if s.power.leaving then s
  else if s.red.lost then s.move .standbyCold 0 0x0E
  else if s.mode = .standbyCold then s.restartFrame
  else if s.mode = .safeHold then s.holdFrame
  else if s.acting then
    let s := s.switchFrame
    if !s.acting then s
    else if s.hold.damageDue || s.nodesSilent || s.hold.hostDue then s.enterHold
    else s.causesFrame
  else s

/-- The effective profile (R34).  In SAFE_HOLD no degradation cause is set (R26, R30), so the selected one runs. -/
def State.effectiveProfile (s : State) : Nat :=
  if s.mode = .active ∨ s.mode = .degraded then (if s.cdStoppedNow || s.noForecast then 3 else s.odv 0x3000 0)
  else if s.mode = .safeHold then s.odv 0x3000 0
  else 3

/-- A change of effective profile takes effect (R35, R288). -/
def State.profileFrame (s : State) : State :=
  let p := s.effectiveProfile
  if p = s.profile then s
  else
    let s := { s with profile := p }
    if s.ce.inService then { s.limitForecastLoops with ce := { s.limitForecastLoops.ce with profileChanged := true } } else s

/-! ## The boundary -/

/-- The CE's part of a boundary: the branch is kept or dropped, the profile changes, and the record is committed. -/
def State.ceFrame (s : State) (taken : Option Merged) : State :=
  let measured := s.ceRuns && s.ce.branchA.isSome && !s.ce.lStale
  let s := { s with te := { s.te with noMeas := if measured then 0 else min (s.te.noMeas + 1) 3 } }
  let s := if s.ceRuns then s.selectBranch else s.dropBranches
  let s := s.profileFrame
  if s.ceRuns then s.commitRecord taken else s

/-- GANGWAY_FRAME_BOUNDARY. -/
def State.frameBoundary (s : State) (differs : Bool) : State :=
  if !s.up then s
  else
    let s := ({ s with frame := s.frame + 1 }).latchConvs
    let t := s.takeRecords
    let s := (t.1.judge).ceFrame t.2
    let s := if s.services then s.frameEffects.digestFrame else s
    -- the Gangway reads its table memory, and the management processor runs from its own (R206, R213; log entry 99)
    let s := { s with gw := { s.gw with readBack := differs } }
    (((s.siodRead 784 801).gangwayFrame differs).commitGrants).lostCharge

end Sys2Proof.Machine
end

