-- ==== Sys2Proof/Machine/Host.lean ====
section
/-! DEFINITION. The host's window onto the module: BAR0 reads and writes (R8 to R10, R351, R354, R409 to R416), the
interrupt registers (R359), and what resets or blocks the PCI Express controller (R353). -/

namespace Sys2Proof.Machine

open Sys2Proof

/-! ## The configuration space (R349)

Registers the rule gives a content; no command of the table reads them.  OD 0x1001.01 reads the same Vendor ID.  PRESUMED
(log entry 7): the registers and capability structures have the layout that PCI Express gives them; the spec gives only the
properties, and the offsets of the structures are the model's. -/

/-- Largest payload of a packet, bytes. -/
def maxPayload : Nat := 512

/-- The header: Vendor ID at offset 0x00, Device ID at 0x02, capability list present, class code at 0x09, and the first
capability at 0x40. -/
def configHeader : List (Nat × Nat × Nat) :=
  [(0, 2, Config.vendorId), (2, 2, 0x0960), (6, 2, 0x0010), (9, 3, 0x0B4000), (0x34, 1, 0x40)]

/-- Power management at 0x40 (D0 and D3hot, neither D1 nor D2), then PCI Express at 0x50: payload size, error reporting, reset
of the function, x8 at Gen7 without ASPM, 10-bit tags as completer; then MSI-X at 0x90 with 256 vectors; and Advanced Error
Reporting at 0x100.  There is no Device Serial Number (R98), and no SR-IOV, ATS or PRI. -/
def configCaps : List (Nat × Nat × Nat) :=
  [(0x40, 1, 0x01), (0x41, 1, 0x50), (0x42, 2, 0x0003),
   (0x50, 1, 0x10), (0x51, 1, 0x90), (0x52, 2, 0x0002), (0x54, 4, Nat.log2 (maxPayload / 128) + 2 ^ 15 + 2 ^ 28),
   (0x5C, 4, 7 + 8 * 16), (0x74, 4, 2 ^ 16),
   (0x90, 1, 0x11), (0x91, 1, 0), (0x92, 2, 255), (0x94, 4, 0x1000), (0x98, 4, 0x2000),
   (0x100, 4, 0x0001 + 2 * 65536)]

/-- Configuration space after reset. -/
def configSpace : Blob := (configHeader ++ configCaps).foldl (fun (b : Blob) f => setBytes b f.1 f.2.1 f.2.2) 0

/-- A read of configuration space: `n` bytes at an offset. -/
def configRead (o n : Nat) : Nat := bytesAt configSpace o n

/-! ## The BAR0 map (R409) -/

def ringBase : Nat := 0x100000
def tableBase : Nat := 0x800000
def mirrorBase : Nat := 0x2000000

/-- The offset lies in `[a, a + n)`. -/
def within (o a n : Nat) : Bool := decide (a ≤ o ∧ o < a + n)

/-- The offset lies in a window that no write changes: the log ring, the controller tables, the mirror (R410). -/
def readOnlyWindow (o : Nat) : Bool := within o ringBase 0x10000 || within o tableBase 0x800000 || within o mirrorBase 0x6000000

/-- The BAR0 map assigns the 32-bit word at this offset. -/
def assigned (o : Nat) : Bool :=
  within o 0 0x18 || within o 0x40 64 || within o 0x100 16 || within o 0x200 16 || within o 0x1000 0x1000 ||
  within o 0x2000 32 || within o 0x4000 384 || within o 0x4400 384 || within o 0x5000 8 || within o 0x5100 196 ||
  within o 0x10000 0x10000 || within o 0x20000 104 || readOnlyWindow o

/-- BAR0 accepts the access: naturally aligned, 32 or 64 bits (R351). -/
def alignedAccess (o w : Nat) : Bool := (w == 4 || w == 8) && decide (o % w = 0)

/-- The words of an access. -/
def accessWords (o w : Nat) : List Nat := if w = 8 then [o, o + 4] else [o]

/-- The data area and the trailer of the mailbox (R409). -/
def mailboxArea (o : Nat) : Bool := within o 0x10000 0x10000 || within o 0x20000 104

/-- An access that counts in OD 0x1001.07 (R351, R410). -/
def irregular (o w : Nat) (write : Bool) : Bool :=
  !alignedAccess o w || (accessWords o w).any (fun x => !assigned x || (write && readOnlyWindow x))

/-! ## Reads -/

/-- Half of a 64-bit value. -/
def loHalf (v : Nat) : Nat := v % 2 ^ 32
def hiHalf (v : Nat) : Nat := v / 2 ^ 32 % 2 ^ 32

/-- The present value of the register at an offset (R411 to R414). -/
def State.reg32 (s : State) (o : Nat) : Nat :=
  if o = 0 then s.moduleStatus
  else if o = 4 then dictVersion
  else if o = 8 then loHalf s.frame
  else if o = 0xC then hiHalf s.frame
  else if o = 0x10 then s.host.intStatus
  else if o = 0x14 then s.host.intEnable
  else if within o 0x40 64 then s.vectorOf ((o - 0x40) / 4)
  else if o = 0x100 then s.mbxCtrl
  else if o = 0x104 then s.mbxReq
  else if o = 0x108 then s.mbxAddr
  else if o = 0x10C then s.host.length
  else if o = 0x200 then loHalf s.log.next
  else if o = 0x204 then hiHalf s.log.next
  else if o = 0x208 then loHalf s.log.oldest
  else if o = 0x20C then hiHalf s.log.oldest
  else if within o 0x1000 0x1000 then cellsGet msixDefault s.host.msix (o - 0x1000) 4
  else if within o 0x2000 32 then fld s.host.pba (8 * (o - 0x2000)) 32
  else if within o 0x4000 384 then s.teCoreStatus ((o - 0x4000) / 4)
  else if within o 0x4400 384 then s.teSeqStatus ((o - 0x4400) / 4)
  else if o = 0x5000 then s.ceStatus
  else if o = 0x5004 then s.gangwayStatus
  else if within o 0x5100 196 then s.ferryStatus ((o - 0x5100) / 4)
  else if mailboxArea o && s.host.busy then 0
  else if within o 0x10000 0x10000 then bytesAt s.host.area (o - 0x10000) 4
  else if within o 0x20000 104 then bytesAt s.host.trailer (o - 0x20000) 4
  else 0

/-- The log entry that stands at a position of the ring window. -/
def Log.atSlot (l : Log) (i : Nat) : Blob :=
  match l.ring.find? (fun e => decide ((e.seq - 1) % 2048 = i)) with
  | some e => e.bytes
  | none => 0

/-- Bytes of the log ring window. -/
def State.ringBytes (s : State) (o w : Nat) : Nat :=
  let x := o - ringBase
  bytesAt (s.log.atSlot (x / 32)) (x % 32) w

/-- A non-secure read of a repetitive controller's table (R304, R416). -/
def State.tableRead (s : State) (o w : Nat) : Nat × State :=
  let x := o - tableBase
  let r := x / 0x200000
  let off := x % 0x200000
  if bitAt (s.effv 0xB031 0) (768 + 2 * r + off / 2 ^ 20) then (0, s.violation)
  else
    let a := entryWord r (off / 2)
    let p := fun (x : Nat) => decide (a ≤ x ∧ x < a + w)
    let s := s.siodWords p
    let t := ((s.asRead p s.ce.kept).rc r).table
    (packBytes ((upTo (w / 2)).map (fun i => (2, unsigned 16 (tabGet 0 t (off / 2 + i))))), s)

/-- A mirror read (R354, R415). -/
def State.mirrorRead (s : State) (o w : Nat) : Nat × State :=
  let x := o - mirrorBase
  let e := s.mirrorEntry (0x1000 + x / 0x800) (x % 0x800 / 8)
  let v := fld e.1 (8 * (x % 8)) (8 * w)
  (v, if e.2 then s.violation else s)

/-- The latched or present upper half of a register pair, and its latch consumed (R411). -/
def State.readHi (s : State) (o : Nat) : Nat × State :=
  let h := s.host
  if o = 0xC then (h.latchFrame.getD (hiHalf s.frame), { s with host := { h with latchFrame := none } })
  else if o = 0x204 then (h.latchNext.getD (hiHalf s.log.next), { s with host := { h with latchNext := none } })
  else (h.latchOldest.getD (hiHalf s.log.oldest), { s with host := { h with latchOldest := none } })

/-- The lower half of a register pair, and its upper half latched (R411). -/
def State.readLo (s : State) : LoReg → Nat × State
  | .frame => (loHalf s.frame, { s with host := { s.host with latchFrame := some (hiHalf s.frame) } })
  | .logNext => (loHalf s.log.next, { s with host := { s.host with latchNext := some (hiHalf s.log.next) } })
  | .logOldest => (loHalf s.log.oldest, { s with host := { s.host with latchOldest := some (hiHalf s.log.oldest) } })

/-- A regular BAR0 read. -/
def State.bar0Read (s : State) (o w : Nat) : Nat × State :=
  if within o mirrorBase 0x6000000 then s.mirrorRead o w
  else if within o tableBase 0x800000 then s.tableRead o w
  else if within o ringBase 0x10000 then (s.ringBytes o w, s)
  else if w = 8 then (s.reg32 o + s.reg32 (o + 4) * 2 ^ 32, s)
  else if o = 8 then s.readLo .frame
  else if o = 0x200 then s.readLo .logNext
  else if o = 0x208 then s.readLo .logOldest
  else if o = 0xC ∨ o = 0x204 ∨ o = 0x20C then s.readHi o
  else (s.reg32 o, s)

/-- A BAR0 read: an irregular one returns zeros and counts. -/
def State.hostRead (s : State) (o w : Nat) : State :=
  if !s.hostReaches then s
  else if irregular o w false then (s.count 0x1001 7).emit (.bar0 0)
  else (s.bar0Read o w).2.emit (.bar0 (s.bar0Read o w).1)

/-! ## Interrupt registers (R359) -/

/-- INT_STATUS_CLEAR: written ones clear causes, and nothing is sent. -/
def State.clearCauses (s : State) (mask : Nat) : State :=
  { s with host := { s.host with intStatus := maskOf 16 (fun n => bitAt s.host.intStatus n && !bitAt mask n) } }

/-- INT_ENABLE_WRITE: each newly enabled cause that is set sends its message. -/
def State.writeEnables (s : State) (v : Nat) : State :=
  let old := s.host.intEnable
  let s := { s with host := { s.host with intEnable := v % 2 ^ 16 } }
  ((upTo 16).filter (fun n => bitAt v n && !bitAt old n && bitAt s.host.intStatus n)).foldl
    (fun (s : State) n => s.sendVector (s.vectorOf n)) s

/-- A write to the MSI-X table; unmasking a vector whose bit is pending sends its message. -/
def State.msixWrite (s : State) (a v : Nat) : State :=
  let x := if a % 16 = 12 then v % 2 else v
  let s := { s with host := { s.host with msix := cellsPut msixDefault s.host.msix a 4 x } }
  let n := a / 16
  if a % 16 = 12 ∧ x = 0 ∧ bitAt s.host.pba n then
    ({ s with host := { s.host with pba := setBit s.host.pba n false } }).sendVector n
  else s

/-! ## Register writes (R9, R411, R413) -/

/-- Written ones clear sticky bits. -/
def clearOnes (b : Bool) (v i : Nat) : Bool := b && !bitAt v i

/-- W1C of TE_CORE_STATUS and TE_SEQ_STATUS. -/
def Core.clearSticky (k : Core) (v : Nat) : Core :=
  { k with satSeen := clearOnes k.satSeen v 24, nanSeen := clearOnes k.nanSeen v 25, accSeen := clearOnes k.accSeen v 26,
           b4Seen := clearOnes k.b4Seen v 27 }

/-- MBX_CTRL: DONE is W1C, GO starts the request that the registers hold (R355). -/
def State.writeMbxCtrl (s : State) (v : Nat) : State :=
  let s := if bitAt v 2 then { s with host := { s.host with done := false } } else s
  if bitAt v 0 && !s.host.busy then s.mailboxGo s.presentStraps else s

/-- A 32-bit write to an assigned register: read-only bits ignore it. -/
def State.write32 (s : State) (o v : Nat) : State :=
  let h := s.host
  if o = 0 then { s with host := { h with logLost := clearOnes h.logLost v 19 } }
  else if o = 0x10 then s.clearCauses v
  else if o = 0x14 then s.writeEnables v
  else if within o 0x40 64 then
    { s with host := { h with intMap := tabPut ((o - 0x40) / 4) h.intMap ((o - 0x40) / 4) (v % 256) } }
  else if o = 0x100 then s.writeMbxCtrl v
  else if o = 0x104 then { s with host := { h with op := v % 256, sign := bitAt v 8 } }
  else if o = 0x108 then { s with host := { h with index := v % 65536, sub := fld v 16 8 } }
  else if o = 0x10C then { s with host := { h with length := v % 2 ^ 32 } }
  else if within o 0x1000 0x1000 then s.msixWrite (o - 0x1000) v
  else if within o 0x4000 384 then (if s.cd.running then s.setCore ((o - 0x4000) / 4) (fun k => k.clearSticky v) else s)
  else if within o 0x4400 384 then
    (if s.cd.running then s.setCore ((o - 0x4400) / 4) (fun k => { k with boundsSeen := clearOnes k.boundsSeen v 7 }) else s)
  else if o = 0x5000 then
    { s with ce := { s.ce with followSeen := clearOnes s.ce.followSeen v 16, staleSeen := clearOnes s.ce.staleSeen v 17,
                               clampSeen := clearOnes s.ce.clampSeen v 18, satSeen := clearOnes s.ce.satSeen v 19 } }
  else if o = 0x5004 then
    { s with gw := { s.gw with missSeen := clearOnes s.gw.missSeen v 16, contentionSeen := clearOnes s.gw.contentionSeen v 17,
                               changeSeen := clearOnes s.gw.changeSeen v 18, mgmtFailSeen := clearOnes s.gw.mgmtFailSeen v 19 } }
  else if within o 0x5100 196 then
    s.setLink ((o - 0x5100) / 4) (fun x =>
      { x with dropSeen := clearOnes x.dropSeen v 16, staleSeen := clearOnes x.staleSeen v 17,
               uncorrSeen := clearOnes x.uncorrSeen v 18, downSeen := clearOnes x.downSeen v 19,
               nonCompSeen := clearOnes x.nonCompSeen v 20 })
  else if within o 0x10000 0x10000 then { s with host := { h with area := setBytes h.area (o - 0x10000) 4 v } }
  else if within o 0x20000 104 then { s with host := { h with trailer := setBytes h.trailer (o - 0x20000) 4 v } }
  else s

/-- A word that a write may not change now: the mailbox carries out a request (R414). -/
def State.heldWord (s : State) (o : Nat) : Bool := mailboxArea o && s.host.busy

/-- One word of a write: dropped where the offset is unassigned, read-only or held. -/
def State.writeWord (s : State) (o v : Nat) : State :=
  if assigned o && !readOnlyWindow o && !s.heldWord o then s.write32 o v else s

/-- A BAR0 write: a 64-bit one acts as two 32-bit writes, the lower first; an irregular one counts (R351, R410, R411). -/
def State.hostWrite (s : State) (o w v : Nat) : State :=
  if !s.hostReaches then s
  else
    let s := if irregular o w true || (accessWords o w).any s.heldWord then s.count 0x1001 7 else s
    if !alignedAccess o w then s
    else if w = 8 then (s.writeWord o (v % 2 ^ 32)).writeWord (o + 4) (v / 2 ^ 32 % 2 ^ 32)
    else s.writeWord o (v % 2 ^ 32)

/-! ## Controller resets and D3hot (R353) -/

/-- CONTROLLER_RESET: the controller, the mailbox registers, INT_STATUS, INT_ENABLE and the MSI-X table. -/
def State.ctlReset (s : State) (kind : CtlReset) : State :=
  if !s.answers then s
  else
    let h := s.host
    let s := { s with host := { h with
      d3hot := false, busy := false, done := false, status := 0, op := 0, sign := false, index := 0, sub := 0, length := 0,
      intStatus := 0, intEnable := 0, msix := [], pba := 0 } }
    let s := s.count 0x1001 5
    match kind with
    | .flr => s
    | _ => s.hostLinkUp

/-- FN_LINK_STATUS_CHANGE (R358). -/
def State.fnLink (s : State) (port : Nat) (up : Bool) : State :=
  let was := if port = 0 then s.net.linkA else s.net.linkB
  if !s.services || was = up then s
  else
    let s := { s with net := if port = 0 then { s.net with linkA := up } else { s.net with linkB := up } }
    s.raise irqField

end Sys2Proof.Machine
end

