-- ==== Sys2Proof/Machine/Startup.lean ====
section
/-! DEFINITION. Commands of power, start-up and the non-volatile records: INPUT_ENTERS_RANGE to NVR_WRITE_COMPLETE,
MP_WATCHDOG_KICK, VAON_POWER_GOOD_LOST. -/

namespace Sys2Proof.Machine

open Sys2Proof

/-- Act while the SIOD is powered. -/
def State.ifUp (s : State) (f : State → State) : State := if s.up then f s else s

/-- Act while the SIOD services run. -/
def State.ifServed (s : State) (f : State → State) : State := if s.services then f s else s

/-! ## Leases of BOOT (R52, R80, R81) -/

/-- The lease-line watch ends (R52). -/
def State.watchEnd (s : State) (driver : Bool) : State :=
  if s.mode ≠ .boot ∨ s.power.bootStopped ∨ s.power.watchDone ∨ s.power.leaving then s
  else if driver then s.bootStop 0x03 false
  else { s with power := { s.power with watchDone := true } }

/-- BOOT ends at the first frame boundary at which step 8 and the watch are complete (R81), unless OFF waits (R30). -/
def State.bootDone (s : State) : State :=
  let s := if s.mode = .boot then s.rampAll else s
  if s.mode = .boot ∧ s.power.servicesUp ∧ s.power.watchDone ∧ !s.power.bootStopped ∧ !s.power.leaving then
    { s.move .standbyCold 0 0x01 with
      power := { (s.move .standbyCold 0 0x01).power with bootTime := 4 * (s.frame - s.power.romFrame), kickAt := s.intake } }
  else s

/-- The boot watchdog expires (R80).  DESIGN CHOICE (log entry 103): OD 0xB001.05 keeps the state before the power-on or
restart whose boot it repeats. -/
def State.bootWatchdog (s : State) (straps : List Nat) : State :=
  if s.mode ≠ .boot ∨ s.power.bootStopped ∨ s.power.leaving then s
  else
    let n := s.power.bootExpiries + 1
    let s := { s with power := { s.power with bootExpiries := n } }
    if 3 ≤ n then s.bootStop 0x04 false else (s.servicesReset).bootRun straps

/-- The management-processor watchdog expires outside BOOT: 100 ms after its count restarted (R79, R80). -/
def State.mpWatchdog (s : State) : State :=
  if s.up && decide (s.mode ≠ .boot) && decide (s.power.kickAt + 100000 ≤ s.intake) then s.enterShutdown 0x01 {} else s

/-- A strap changes (R51). -/
def State.strapMove (s : State) (v : Nat) : State :=
  let old := s.power.straps
  let new := v % 16
  if !s.up || old = new then s
  else
    let s := { s with power := { s.power with straps := new } }
    if s.mode = .boot then s else s.logEvent 0xB001 (packBytes [(1, old), (1, new)])

/-! ## The input supervisor (R42, R44, R45) -/

/-- One tick of 10 µs. -/
def State.supervise (s : State) (mv : Nat) : State :=
  if s.mode = .off then s
  else
    let s := { s with power := { s.power with vin := mv } }
    if s.power.leaving then (if 61000 < mv then { s with power := { s.power with hotSwap := false } } else s)
    else if s.power.mateHigh ∨ mv < 44000 ∨ 61000 < mv then
      (if 61000 < mv then { s with power := { s.power with hotSwap := false } } else s).leaveRange
    else if mv < 48000 then
      let n := s.power.lowTicks + 1
      let s := { s with power := { s.power with inputLow := true, lowTicks := n } }
      if 2000 < n then s.leaveRange else s
    else { s with power := { s.power with inputLow := false, lowTicks := 0 } }

/-- The input has stayed below 48 V for more than 20 ms (R44): 2,000 ticks. -/
def State.rideThroughEnd (s : State) : State :=
  if s.mode ≠ .off ∧ !s.power.leaving ∧ s.power.inputLow ∧ 2000 ≤ s.power.lowTicks then s.leaveRange else s

/-- MATE_N goes high (R42): at least 10 µs. -/
def State.mateOpen (s : State) (ns : Nat) : State :=
  if s.mode = .off ∨ ns < 10000 then s
  else
    let s := { s with power := { s.power with mateHigh := true } }
    if s.power.leaving then s else s.leaveRange

/-- VAON leaves power-good (R469): as on leaving the input range. -/
def State.vaonLost (s : State) : State := if s.mode = .off ∨ s.power.leaving then s else s.leaveRange

/-! ## Records (R89, R92, R100, R461, R462, R482) -/

/-- The key table after a record took effect: a new entry counts as verified, an empty slot does not (R92). -/
def State.keysTaken (s : State) (old : Nat → Blob) : State :=
  [1, 2, 3, 4].foldl (fun (s : State) k =>
    let v := s.keyRecord k
    if v = old k then s
    else { s with power := { s.power with keysVerified := setBit s.power.keysVerified (k - 1) (decide (v ≠ 0)) } }) s

/-- What the completion of a slot write brings. -/
def State.recordTaken (s : State) (w : NvrWrite) : State :=
  let old := s.keyRecord
  let s := { s with nvr := s.nvr.store w }
  match w.kind with
  | .keys => s.keysTaken old
  | .floors => s
  | .bundle => { s with power := { s.power with bundleStored := s.power.bundleWaiting.isSome } }
  | .se => ({ s with se := { s.se with seqUsed := w.seq } }).count 0x6001 5
  | .fault => { s with mpc := { s.mpc with faultRecord := w.data } }

/-- A slot write completes, the next one starts, and a module leaving its range enters OFF (R45, R461). -/
def State.nvrDone (s : State) : State :=
  match s.nvr.writing with
  | none => s
  | some w =>
    let s := ({ s with nvr := { s.nvr with writing := none } })
    if s.power.leaving then ({ s with nvr := s.nvr.store w }).enterOff
    else
      let s := if s.up then s.recordTaken w else { s with nvr := s.nvr.store w }
      match s.nvr.waiting with
      | [] => s
      | x :: t => { s with nvr := { s.nvr with writing := some x, waiting := t } }

/-! ## Commands -/

/-- INPUT_ENTERS_RANGE (R44, R81). -/
def execInputEntersRange (b : BootInputs) (s : State) : Out := s.act (fun s => s.powerOn b)

/-- LEASE_LINE_WATCH_END (R52). -/
def execLeaseLineWatchEnd (driverSeen : Bool) (s : State) : Out := s.act (fun s => s.watchEnd driverSeen)

/-- BOOT_COMPLETE (R81). -/
def execBootComplete (s : State) : Out := s.act State.bootDone

/-- BOOT_WATCHDOG_EXPIRY (R80). -/
def execBootWatchdogExpiry (b : BootInputs) (s : State) : Out := s.act (fun s => s.bootWatchdog b.straps)

/-- MP_WATCHDOG_EXPIRY (R79). -/
def execMpWatchdogExpiry (s : State) : Out := s.act State.mpWatchdog

/-- MP_WATCHDOG_KICK (R80). -/
def execMpWatchdogKick (s : State) : Out :=
  s.act (fun s => s.ifUp (fun s => { s with power := { s.power with kickAt := s.intake } }))

/-- STRAP_CHANGE (R51). -/
def execStrapChange (straps : Nat) (s : State) : Out := s.act (fun s => s.strapMove straps)

/-- INPUT_SUPERVISOR_TICK (R44). -/
def execInputSupervisorTick (millivolt : Nat) (s : State) : Out := s.act (fun s => s.supervise millivolt)

/-- RIDE_THROUGH_TIMEOUT (R44). -/
def execRideThroughTimeout (s : State) : Out := s.act State.rideThroughEnd

/-- MATE_N_HIGH (R42). -/
def execMateNHigh (nanoseconds : Nat) (s : State) : Out := s.act (fun s => s.mateOpen nanoseconds)

/-- VAON_POWER_GOOD_LOST (R469). -/
def execVaonPowerGoodLost (s : State) : Out := s.act State.vaonLost

/-- NVR_WRITE_COMPLETE (R461). -/
def execNvrWriteComplete (s : State) : Out := s.act State.nvrDone

end Sys2Proof.Machine
end

