-- ==== Sys2Proof/Machine/Clocks.lean ====
section
/-! DEFINITION. Commands of the clock tree, the operating point and the start and stop of the Compute Die: R55, R72 to R78,
R82, R147, R499. -/

namespace Sys2Proof.Machine

open Sys2Proof

/-- The width a dictionary entry gives its value. -/
def entryLen (index sub : Nat) : Nat := ((entryOf index sub).map (fun e => e.ty.bytes)).getD 0

/-- A command row that writes one value of its entry's own size. -/
def State.commandTo (s : State) (h : ReqHead) (index sub value : Nat) : State :=
  s.command h index sub (entryLen index sub) value s.presentStraps

/-- The SerDes PLL relocks (R73): the links may train again. -/
def State.serdesBack (s : State) : State := { s with clk := { s.clk with serdes := true } }

/-- ROOT_OR_IO_PLL_LOST (R73). -/
def execRootOrIoPllLost (rootLost : Bool) (s : State) : Out := s.act (fun s => s.clockLost rootLost)

/-- CD_PLL_UNLOCK (R73). -/
def execCdPllUnlock (hbm : Bool) (s : State) : Out := s.act (fun s => s.ifUp (fun s => s.cdPllUnlock hbm))

/-- SERDES_PLL_UNLOCK (R73). -/
def execSerdesPllUnlock (s : State) : Out := s.act (fun s => s.ifServed State.serdesLost)

/-- SERDES_PLL_RELOCK (R73). -/
def execSerdesPllRelock (s : State) : Out := s.act (fun s => s.ifServed State.serdesBack)

/-- ROOT_COMPENSATION_UPDATE (R72). -/
def execRootCompensationUpdate (s : State) : Out := s.act (fun s => s.ifUp State.rootUpdate)

/-- OPERATING_POINT_CHANGE (R76). -/
def execOperatingPointChange (point : Nat) (s : State) : Out := s.act (fun s => s.ifUp (fun s => s.pointChange point))

/-- COMPUTE_SLEW_STEP (R76). -/
def execComputeSlewStep (s : State) : Out := s.act (fun s => s.ifUp State.slewStep)

/-- FIXED_OP_WRITE (R78). -/
def execFixedOpWrite (h : ReqHead) (point : Nat) (s : State) : Out := s.act (fun s => s.commandTo h 0xB062 0 point)

/-- SYNC_IN_LOST (R55). -/
def execSyncInLost (cause : Nat) (s : State) : Out := s.act (fun s => s.ifUp (fun s => s.syncLost cause))

/-- SYNC_IN_RETURNED (R55). -/
def execSyncInReturned (s : State) : Out := s.act (fun s => s.ifUp State.syncReturned)

/-- CD_START (R82, R83). -/
def execCdStart (inp : CdStartInputs) (s : State) : Out := s.act (fun s => s.ifUp (fun s => s.cdStartDue inp))

/-- CD_STOP (R147). -/
def execCdStop (h : ReqHead) (s : State) : Out := s.act (fun s => s.commandTo h 0x3104 0 1)

/-- CLEAR_HOST_STOP (R147). -/
def execClearHostStop (h : ReqHead) (s : State) : Out := s.act (fun s => s.commandTo h 0x3104 0 2)

/-- FLOW_LOST (R499). -/
def execFlowLost (s : State) : Out := s.act (fun s => s.ifUp State.flowLoss)

/-- FLOW_RETURNED (R499). -/
def execFlowReturned (s : State) : Out := s.act (fun s => s.ifUp State.flowReturn)

end Sys2Proof.Machine
end

