-- ==== Sys2Proof/Machine/Security.lean ====
section
/-! DEFINITION. Commands of signed images, floors, keys, configuration bundles and region worlds: R84 to R103. -/

namespace Sys2Proof.Machine

open Sys2Proof

/-- 60 s without a segment (R88). -/
def State.imageTimeout (s : State) : State := if s.power.imageStage = 0 then s else s.abandonImage

/-- IMAGE_OPEN (R88 step 1). -/
def execImageOpen (h : ReqHead) (header : Blob) (s : State) : Out := s.act (fun s => s.commandTo h 0xB070 0 header)

/-- IMAGE_SEGMENT (R88 step 2). -/
def execImageSegment (h : ReqHead) (offset reserved : Nat) (body : Blob) (s : State) : Out :=
  s.act (fun s => s.commandTo h 0xB071 0 (packBytes [(4, offset), (4, reserved), (32768, body)]))

/-- IMAGE_ACTIVATE (R88 step 3): where bit 7 asks for the restart, `b` is what that start-up meets. -/
def execImageActivate (h : ReqHead) (arg : Nat) (b : BootInputs) (s : State) : Out :=
  s.act (fun s => s.command h 0xB072 0 1 arg b.straps)

/-- IMAGE_TRANSFER_TIMEOUT (R88). -/
def execImageTransferTimeout (s : State) : Out := s.act (fun s => s.ifServed State.imageTimeout)

/-- FLOOR_COMMAND (R89). -/
def execFloorCommand (h : ReqHead) (record : Blob) (s : State) : Out := s.act (fun s => s.commandTo h 0xB013 4 record)

/-- KEY_ENROL (R92): a record with operation 0x01. -/
def execKeyEnrol (h : ReqHead) (record : Blob) (s : State) : Out := s.act (fun s => s.commandTo h 0xB011 0 record)

/-- KEY_REMOVE (R92): a record with operation 0x02. -/
def execKeyRemove (h : ReqHead) (record : Blob) (s : State) : Out := s.act (fun s => s.commandTo h 0xB011 0 record)

/-- CONFIGURATION_BUNDLE (R100). -/
def execConfigurationBundle (h : ReqHead) (bundle : Blob) (s : State) : Out := s.act (fun s => s.commandTo h 0xB080 0 bundle)

/-- BUNDLE_APPLY (R100). -/
def execBundleApply (s : State) : Out := s.act (fun s => s.ifServed State.bundleApply)

/-- REGION_WORLD_CHANGE (R95). -/
def execRegionWorldChange (s : State) : Out := s.act (fun s => s.ifServed State.worldChange)

end Sys2Proof.Machine
end

