-- ==== Sys2Proof/Machine/Nodes.lean ====
section
/-! DEFINITION. Commands of the Gangway and of the operating state: R29, R30, R376 to R389, R401. -/

namespace Sys2Proof.Machine

open Sys2Proof

/-- A reply slot of a node (R379): good, or missing. -/
def State.replySlot (s : State) (a : Nat) (bits : Option Nat) : State :=
  if !s.replyDue a then s
  else
    match bits.bind (parseReply a) with
    | some r => s.replyGood a r.1 r.2
    | none => s.replyMissing a

/-- A management reply (R380): good when it names the node and index of the request, else absent. -/
def State.mgmtReply (s : State) (a : Nat) (bits : Option Nat) : State :=
  if s.gw.mgmtNode ≠ some a then s
  else
    match bits.bind parseMgmt with
    | some r =>
      if r.1 = a ∧ (s.gw.mgmtOp.op ≠ 0 ∨ r.2.2.1 = s.gw.mgmtIndex) then s.mgmtGood a r.2.1 r.2.2.2 else s.mgmtAbsent a
    | none => s.mgmtAbsent a

/-- The 16-bit argument of a node command. -/
def nodeArg (node op : Nat) : Nat := pack [(5, node), (3, op)]

/-- GANGWAY_FRAME_BOUNDARY (R30, R276, R376). -/
def execGangwayFrameBoundary (readBackDiffers : Bool) (s : State) : Out := s.act (fun s => s.frameBoundary readBackDiffers)

/-- REPLY_SLOT_RECEIVE (R379). -/
def execReplySlotReceive (node : Nat) (bits : Option Nat) (s : State) : Out :=
  s.act (fun s => s.ifServed (fun s => s.replySlot node bits))

/-- MANAGEMENT_REPLY_RECEIVE (R380). -/
def execManagementReplyReceive (node : Nat) (bits : Option Nat) (s : State) : Out :=
  s.act (fun s => s.ifServed (fun s => s.mgmtReply node bits))

/-- NODE_DISABLE (R389). -/
def execNodeDisable (h : ReqHead) (node : Nat) (s : State) : Out := s.act (fun s => s.commandTo h 0x1320 0 (nodeArg node 0))

/-- NODE_ENABLE (R389). -/
def execNodeEnable (h : ReqHead) (node : Nat) (s : State) : Out := s.act (fun s => s.commandTo h 0x1320 0 (nodeArg node 1))

/-- NODE_CLEAR_FAULT (R389). -/
def execNodeClearFault (h : ReqHead) (node : Nat) (s : State) : Out := s.act (fun s => s.commandTo h 0x1320 0 (nodeArg node 2))

/-- HOLD (R401). -/
def execHold (h : ReqHead) (s : State) : Out := s.act (fun s => s.commandTo h 0xC002 0 1)

/-- RELEASE (R401). -/
def execRelease (h : ReqHead) (s : State) : Out := s.act (fun s => s.commandTo h 0xC002 0 2)

/-- HOLD_LIMIT_EXPIRY (R29). -/
def execHoldLimitExpiry (s : State) : Out := s.act (fun s => s.ifUp State.holdLimit)

end Sys2Proof.Machine
end

