-- ==== Sys2Proof/Machine/Tensor.lean ====
section
/-! DEFINITION. Commands of the tensor engine and the loader beside those of a program: R140 to R148, R181 to R190, R222 to
R227, R244 to R247, R267, R268. -/

namespace Sys2Proof.Machine

open Sys2Proof

/-- The 16 bytes of a load request (R181). -/
def loadArg (addr first count op : Nat) : Blob := packBytes [(8, addr), (2, first), (2, count), (1, op), (3, 0)]

/-- The 16 bytes of a ripening image command (R244). -/
def ripenArg (modelId addr : Nat) : Blob := packBytes [(4, modelId), (4, 0), (8, addr)]

/-- The argument of the fence command OD 0x3102 (R146). -/
def fenceArg (who op : Nat) : Nat := pack [(8, who), (2, op)]

/-- The argument of the unload command OD 0x3202 (R185). -/
def unloadArg (first count : Nat) : Nat := pack [(16, first), (16, count)]

/-- The intake frame boundary (R222): the frame closes, and every block takes what waits for it. -/
def State.intakeBoundary (s : State) : State :=
  let j := s.intake
  let s := { s with intake := j + 1 }
  let s := s.rampTick.takeEffect .intake
  -- an image is written before the catalogue that names it (R518)
  ((s.addEnergy j).catalogueFrame.teBoundary j).settled

/-- The bank of the frame that closed last is sealed (R224). -/
def State.sealLast (s : State) : State := if s.cd.running ∧ s.intake ≠ 0 then s.sealBank (s.intake - 1) else s

/-- INTAKE_FRAME_BOUNDARY (R222). -/
def execIntakeFrameBoundary (s : State) : Out := s.act (fun s => s.ifUp State.intakeBoundary)

/-- BANK_SEAL (R224). -/
def execBankSeal (s : State) : Out := s.act (fun s => s.ifUp State.sealLast)

/-- RUN_ENDED_AT_BANK_REUSE (R227). -/
def execRunEndedAtBankReuse (core : Nat) (s : State) : Out := s.act (fun s => s.ifUp (fun s => s.bankReuse core))

/-- FENCE_CORE (R146). -/
def execFenceCore (h : ReqHead) (core : Nat) (s : State) : Out := s.act (fun s => s.commandTo h 0x3102 0 (fenceArg core 0))

/-- RELEASE_CORE (R143). -/
def execReleaseCore (h : ReqHead) (core : Nat) (s : State) : Out := s.act (fun s => s.commandTo h 0x3102 0 (fenceArg core 1))

/-- FENCE_CLUSTER (R146). -/
def execFenceCluster (h : ReqHead) (cluster : Nat) (s : State) : Out :=
  s.act (fun s => s.commandTo h 0x3102 0 (fenceArg cluster 2))

/-- CORE_SELF_TEST_DONE (R143). -/
def execCoreSelfTestDone (core : Nat) (pass : Bool) (s : State) : Out :=
  s.act (fun s => s.ifUp (fun s => (s.selfTestDone core pass).settled))

/-- STREAM_SETTINGS_WRITE (R148): subindex 1 rounding mode, 2 seed, 3 overflow mode. -/
def execStreamSettingsWrite (h : ReqHead) (stream sub value : Nat) (s : State) : Out :=
  s.act (fun s => s.commandTo h (0x3400 + stream) sub value)

/-- LOAD_NEW_STREAMS (R182). -/
def execLoadNewStreams (h : ReqHead) (addr first count : Nat) (s : State) : Out :=
  s.act (fun s => s.commandTo h 0x3200 0 (loadArg addr first count 1))

/-- REPLACE_MODEL (R182). -/
def execReplaceModel (h : ReqHead) (addr first count : Nat) (s : State) : Out :=
  s.act (fun s => s.commandTo h 0x3200 0 (loadArg addr first count 2))

/-- LOAD_COMMIT (R183). -/
def execLoadCommit (s : State) : Out := s.act (fun s => s.ifUp State.commitLoad)

/-- LOAD_REPLAY (R184). -/
def execLoadReplay (c : ModelCatalogue) (s : State) : Out := s.act (fun s => s.ifUp (fun s => s.replayLoads c))

/-- UNLOAD (R185). -/
def execUnload (h : ReqHead) (first count : Nat) (s : State) : Out :=
  s.act (fun s => s.commandTo h 0x3202 0 (unloadArg first count))

/-- HOST_WORK (R190). -/
def execHostWork (h : ReqHead) (descriptor : Blob) (s : State) : Out := s.act (fun s => s.commandTo h 0x3203 0 descriptor)

/-- RIPENING_IMAGE_REGISTER (R244). -/
def execRipeningImageRegister (h : ReqHead) (modelId addr : Nat) (s : State) : Out :=
  s.act (fun s => s.commandTo h 0x3022 0 (ripenArg modelId addr))

/-- RIPENING_IMAGE_DEREGISTER (R244). -/
def execRipeningImageDeregister (h : ReqHead) (modelId : Nat) (s : State) : Out :=
  s.act (fun s => s.commandTo h 0x3022 0 (ripenArg modelId u64Max))

/-- RIPENING_JOB_START (R245). -/
def execRipeningJobStart (modelId : Nat) (s : State) : Out := s.act (fun s => s.ifUp (fun s => s.startJob modelId))

/-- RIPENING_TIMEOUT (R247). -/
def execRipeningTimeout (modelId : Nat) (s : State) : Out := s.act (fun s => s.ifUp (fun s => s.jobTimeout modelId))

/-- MASTER_COPY_RESTORE (R213). -/
def execMasterCopyRestore (modelId : Nat) (upsets : List Upset) (s : State) : Out :=
  s.act (fun s => s.ifUp (fun s => s.masterRestore modelId upsets))

/-- CORE_RESUME (R268). -/
def execCoreResume (s : State) : Out := s.act (fun s => s.ifUp State.resumeCore)

end Sys2Proof.Machine
end

