-- ==== Sys2Proof/Machine/Stacks.lean ====
section
/-! DEFINITION. Commands of the memories and of the forecast merge: R200, R204 to R220, R229 to R248. -/

namespace Sys2Proof.Machine

open Sys2Proof

/-- BAR2_READ (R200). -/
def execBar2Read (offset len : Nat) (upsets : List Upset) (s : State) : Out :=
  s.act (fun s => if s.hostReaches then (s.bar2Read offset len upsets).settled else s)

/-- BAR2_WRITE (R200). -/
def execBar2Write (offset len : Nat) (data : Blob) (upsets : List Upset) (s : State) : Out :=
  s.act (fun s => if s.hostReaches then (s.bar2Write offset len data upsets).settled else s)

/-- HBM_ACCESS_TIMEOUT (R214). -/
def execHbmAccessTimeout (stack : Nat) (s : State) : Out := s.act (fun s => s.ifUp (fun s => (s.stackFailed stack 4).settled))

/-- STACK_MANAGEMENT_FATAL (R214). -/
def execStackManagementFatal (stack : Nat) (s : State) : Out :=
  s.act (fun s => s.ifUp (fun s => (s.stackFailed stack 3).settled))

/-- HBM_SCRUB_STEP (R215). -/
def execHbmScrubStep (stack : Nat) (upsets again : List Upset) (s : State) : Out :=
  s.act (fun s => s.ifUp (fun s => (s.hbmScrub stack upsets again).settled))

/-- SRAM_SCRUB_STEP (R215). -/
def execSramScrubStep (sramMacro : Nat) (upsets again : List Upset) (s : State) : Out :=
  s.act (fun s => s.ifUp (fun s => (s.sramScrub sramMacro upsets again).settled))

/-- REFRESH_UPDATE (R219). -/
def execRefreshUpdate (stack : Nat) (readout : Option Int) (s : State) : Out :=
  s.act (fun s => s.ifUp (fun s => s.refreshUpdate stack readout))

/-- RESULT_RECORD_ACCEPT (R229). -/
def execResultRecordAccept (core : Nat) (s : State) : Out := s.act (fun s => s.ifUp (fun s => s.acceptResult core))

/-- MERGE_RUN (R230). -/
def execMergeRun (upsets : List MergeUpset) (s : State) : Out := s.act (fun s => s.ifUp (fun s => s.mergeRun upsets))

/-- MERGE_OVERRUN (R230). -/
def execMergeOverrun (s : State) : Out := s.act (fun s => s.ifUp State.mergeOverrun)

end Sys2Proof.Machine
end

