-- ==== Sys2Proof/Machine/Budget.lean ====
section
/-! DEFINITION. Commands of the rack budget manager and of the control engine: R252 to R275, R276 to R311. -/

namespace Sys2Proof.Machine

open Sys2Proof

/-- The budget period boundary: the BM's run, the cap controller, the suspension of cores and the aggregates follow one
another (R258, R267, R345, R489); its grants are committed at the boundary itself, the first frame of the period (R258, R274), and the log's count of the period starts anew (R406).  In SAFE_HOLD the last reasons stand
and no core is suspended (R274). -/
def State.periodBoundary (s : State) : State :=
  let was := s.bm.capUnmet
  -- the entries of the boundary itself count in the period that begins (R258, R406)
  let s := { s with log := { s.log with inPeriod := 0 } }
  let s := s.budgetPeriod.capUpdate
  let s := if s.mode = .safeHold then { s with te := { s.te with calm := if s.bm.capUnmet then 0 else s.te.calm } }
    else s.dieReasons.suspendCore was
  s.commitGrants.sendAggregates

/-- The budget has not been rewritten within the time of OD 0x4001.04 (R253). -/
def State.refreshMissed (s : State) : State :=
  if s.odv 0x4001 4 = 0 then s else { s with bm := { s.bm with refreshDue := true } }

/-- The release of a group where grants are given (R266). -/
def State.releaseGroup (s : State) (g : Nat) : State := if s.grants then s.barrierRelease g else s

/-- Tick 600 of a Gangway frame: the channel currents are taken, and the CE runs (R276, R446). -/
def State.tick600 (s : State) : State := s.senseCurrents.ceSnapshot

/-- BUDGET_PERIOD_BOUNDARY (R258). -/
def execBudgetPeriodBoundary (s : State) : Out := s.act (fun s => s.ifUp State.periodBoundary)

/-- BUDGET_WRITE (R252). -/
def execBudgetWrite (h : ReqHead) (watts : Nat) (s : State) : Out := s.act (fun s => s.commandTo h 0x4001 1 watts)

/-- BUDGET_REFRESH_TIMEOUT (R253). -/
def execBudgetRefreshTimeout (s : State) : Out := s.act (fun s => s.ifServed State.refreshMissed)

/-- BARRIER_RELEASE (R266). -/
def execBarrierRelease (group : Nat) (s : State) : Out := s.act (fun s => s.ifServed (fun s => s.releaseGroup group))

/-- CE_SNAPSHOT (R276). -/
def execCeSnapshot (s : State) : Out := s.act (fun s => s.ifUp State.tick600)

/-- FOLLOWING_ERROR_TIMEOUT (R308). -/
def execFollowingErrorTimeout (loop : Nat) (s : State) : Out := s.act (fun s => s.ifUp (fun s => s.followTimeout loop))

/-- LOOP_MODE_OFF (R291). -/
def execLoopModeOff (h : ReqHead) (loop : Nat) (s : State) : Out := s.act (fun s => s.commandTo h (0x2200 + loop) 1 0)

/-- LOOP_MODE_OPEN (R291). -/
def execLoopModeOpen (h : ReqHead) (loop : Nat) (s : State) : Out := s.act (fun s => s.commandTo h (0x2200 + loop) 1 1)

/-- LOOP_MODE_CLOSED (R291). -/
def execLoopModeClosed (h : ReqHead) (loop : Nat) (s : State) : Out := s.act (fun s => s.commandTo h (0x2200 + loop) 1 2)

/-- RC_CLEAR (R307). -/
def execRcClear (h : ReqHead) (rc : Nat) (s : State) : Out := s.act (fun s => s.commandTo h (0x2600 + rc) 7 1)

/-- RC_PHASE_NUDGE (R307). -/
def execRcPhaseNudge (h : ReqHead) (rc arg : Nat) (s : State) : Out := s.act (fun s => s.commandTo h (0x2600 + rc) 8 arg)

/-- RC_SET_INDEX (R307). -/
def execRcSetIndex (h : ReqHead) (rc arg : Nat) (s : State) : Out := s.act (fun s => s.commandTo h (0x2600 + rc) 9 arg)

/-- RC_PERIOD_WRITE (R307). -/
def execRcPeriodWrite (h : ReqHead) (rc arg : Nat) (s : State) : Out := s.act (fun s => s.commandTo h (0x2600 + rc) 1 arg)

/-- CE_ENTERS_SERVICE (R311, R519). -/
def execCeEntersService (s : State) : Out := s.act (fun s => s.ifUp State.ceEnter)

end Sys2Proof.Machine
end

