-- ==== Sys2Proof/Machine/Links.lean ====
section
/-! DEFINITION. Commands of the Ferry links and of the peer links: R317 to R345, R373. -/

namespace Sys2Proof.Machine

open Sys2Proof

/-- A link leaves UP (R323): causes 1 to 4. -/
def State.linkFails (s : State) (l cause : Nat) : State := if s.linkIsUp l then s.dropLink l cause else s

/-- LINK_SIGNAL_DETECTED (R322). -/
def execLinkSignalDetected (link : Nat) (s : State) : Out := s.act (fun s => s.linkSignal link)

/-- LINK_CODE_LOCK (R322). -/
def execLinkCodeLock (link : Nat) (s : State) : Out := s.act (fun s => s.linkCode link)

/-- LINK_CROSSING_LOCK (R322). -/
def execLinkCrossingLock (link : Nat) (s : State) : Out := s.act (fun s => s.linkCrossing link)

/-- LINK_UP (R322, R324). -/
def execLinkUp (link roundTrip : Nat) (s : State) : Out := s.act (fun s => s.linkUp link roundTrip)

/-- LINK_TRAINING_TIMEOUT (R322). -/
def execLinkTrainingTimeout (link : Nat) (s : State) : Out := s.act (fun s => s.linkTimeout link)

/-- LINK_DOWN (R323). -/
def execLinkDown (link cause : Nat) (s : State) : Out := s.act (fun s => s.ifServed (fun s => s.linkFails link cause))

/-- DOWNSTREAM_CROSSING_START (R319, R339). -/
def execDownstreamCrossingStart (link : Nat) (s : State) : Out := s.act (fun s => s.downCrossing link)

/-- CROSSING_RELEASE (R325). -/
def execCrossingRelease (link corrected uncorrectable : Nat) (windows : List Window) (s : State) : Out :=
  s.act (fun s => s.crossingRelease link corrected uncorrectable windows)

/-- ATTACH (R330). -/
def execAttach (link berth : Nat) (payload : Blob) (s : State) : Out :=
  s.act (fun s => s.ifServed (fun s => s.attachReq link berth payload))

/-- DETACH (R334). -/
def execDetach (link berth : Nat) (payload : Blob) (s : State) : Out :=
  s.act (fun s => s.ifServed (fun s => s.detachReq link berth payload))

/-- ATTACHMENT_CHANGE_EFFECT (R331). -/
def execAttachmentChangeEffect (s : State) : Out := s.act (fun s => s.ifServed State.attachEffect)

/-- PEER_AGGREGATE_RECEIVE (R345). -/
def execPeerAggregateReceive (link : Nat) (payload : Blob) (s : State) : Out := s.act (fun s => s.aggregateReceive link payload)

/-- CONFIGURATION_RECEIVE (R373). -/
def execConfigurationReceive (link : Nat) (payload : Blob) (s : State) : Out := s.act (fun s => s.configReceive link payload)

end Sys2Proof.Machine
end

