-- ==== Sys2Proof/Machine/Access.lean ====
section
/-! DEFINITION. Commands of the host port and of the field network: dictionary requests, BAR0 accesses, controller resets,
publications, the describe command and the log cursors (R9 to R18, R353 to R373, R394, R407 to R416). -/

namespace Sys2Proof.Machine

open Sys2Proof

/-- Act while the host reaches the module. -/
def State.ifHost (s : State) (f : State → State) : State := if s.hostReaches then f s else s

/-- Act while the module answers requests. -/
def State.ifAnswers (s : State) (f : State → State) : State := if s.answers then f s else s

/-- GO with an OP that is neither read nor write (R355). -/
def State.badOp (s : State) : State :=
  let h := if s.host.op = 1 ∨ s.host.op = 2 then { s.host with op := 0 } else s.host
  ({ s with host := h }).mailboxGo s.presentStraps

/-- A lower half is read by the host (R411). -/
def State.loRead (s : State) (r : LoReg) : State := (s.readLo r).2.emit (.bar0 (s.readLo r).1)

/-- An irregular access (R351, R410): a read returns zeros, a write is dropped, and either is counted; an access of no
irregularity acts as the read it is, or has the effect of no row here. -/
def State.irregularAccess (s : State) (o w : Nat) (write : Bool) : State :=
  if irregular o w write then
    let s := s.count 0x1001 7
    if write then s else s.emit (.bar0 0)
  else if write then s
  else s.hostRead o w

/-- A whole second of module time (R370). -/
def State.publishSecond (s : State) : State :=
  if s.mode ≠ .boot ∧ s.intake % 1000000 = 0 then s.publishAll else s

/-- The digest or the generation has changed since the last publication of this kind, and 100 ms have passed since it: the
values now in force are published, also where they have changed back (R370). -/
def State.publishChange (s : State) : State :=
  let s := s.noteChange
  let n := s.net
  if s.mode ≠ .boot ∧ n.pubDue = true ∧ (n.pubTime = 0 ∨ n.pubTime + 100000 ≤ s.intake) then
    let s := s.publishAll
    { s with net := { s.net with pubDue := false, pubTime := s.intake } }
  else s

/-- The function enters or leaves D3hot (R353). -/
def State.setD3hot (s : State) (b : Bool) : State := { s with host := { s.host with d3hot := b } }

/-- DICTIONARY_READ (R18). -/
def execDictionaryRead (r : Req) (s : State) : Out := s.act (fun s => s.requestRead r)

/-- DICTIONARY_WRITE (R13): a mailbox write, or a WRITE frame of DAP that carries its first bytes or all of them. -/
def execDictionaryWrite (r : Req) (s : State) : Out :=
  s.act (fun s => s.requestWrite r s.presentStraps (dapFrames r.dataLen))

/-- MAILBOX_BAD_OP (R355). -/
def execMailboxBadOp (s : State) : Out := s.act (fun s => s.ifHost State.badOp)

/-- DAP_SEGMENT (R364). -/
def execDapSegment (port mac tag offset : Nat) (data : Blob) (dataLen : Nat) (s : State) : Out :=
  s.act (fun s => s.ifAnswers (fun s => s.dapSegment port mac tag offset data dataLen s.presentStraps))

/-- DAP_ABORT (R365). -/
def execDapAbort (port mac tag : Nat) (s : State) : Out := s.act (fun s => s.ifAnswers (fun s => s.dapAbort port mac tag))

/-- DAP_TRANSFER_TIMEOUT (R365). -/
def execDapTransferTimeout (port mac tag : Nat) (s : State) : Out :=
  s.act (fun s => s.ifAnswers (fun s => s.dapTimeout port mac tag))

/-- DAP_FRAME_DROP (R362): dropped on either port alike. -/
def execDapFrameDrop (_port : Nat) (s : State) : Out := s.act (fun s => s.ifAnswers State.dapDrop)

/-- MIRROR_READ (R415). -/
def execMirrorRead (offset width : Nat) (s : State) : Out := s.act (fun s => s.hostRead offset width)

/-- IRREGULAR_BAR0_ACCESS (R351, R410). -/
def execIrregularBar0Access (offset width : Nat) (write : Bool) (s : State) : Out :=
  s.act (fun s => s.ifHost (fun s => s.irregularAccess offset width write))

/-- LO_REGISTER_READ (R411). -/
def execLoRegisterRead (r : LoReg) (s : State) : Out := s.act (fun s => s.ifHost (fun s => s.loRead r))

/-- INT_STATUS_CLEAR (R359). -/
def execIntStatusClear (mask : Nat) (s : State) : Out := s.act (fun s => s.ifHost (fun s => s.clearCauses mask))

/-- INT_ENABLE_WRITE (R359). -/
def execIntEnableWrite (value : Nat) (s : State) : Out := s.act (fun s => s.ifHost (fun s => s.writeEnables value))

/-- REGISTER_WRITE (R9). -/
def execRegisterWrite (offset width value : Nat) (s : State) : Out := s.act (fun s => s.hostWrite offset width value)

/-- CONTROLLER_RESET (R353). -/
def execControllerReset (kind : CtlReset) (s : State) : Out := s.act (fun s => s.ctlReset kind)

/-- D3HOT_TRANSITION (R353). -/
def execD3hotTransition (s : State) : Out := s.act (fun s => s.ifAnswers (fun s => s.setD3hot true))

/-- D0_RETURN (R353). -/
def execD0Return (s : State) : Out := s.act (fun s => s.ifAnswers (fun s => s.setD3hot false))

/-- FN_LINK_STATUS_CHANGE (R358). -/
def execFnLinkStatusChange (port : Nat) (up : Bool) (s : State) : Out := s.act (fun s => s.fnLink port up)

/-- PERIODIC_PUBLICATION (R370). -/
def execPeriodicPublication (s : State) : Out := s.act (fun s => s.ifServed State.publishSecond)

/-- CHANGE_PUBLICATION (R370). -/
def execChangePublication (s : State) : Out := s.act (fun s => s.ifServed State.publishChange)

/-- DESCRIBE (R394). -/
def execDescribe (h : ReqHead) (arg : Nat) (s : State) : Out := s.act (fun s => s.commandTo h 0xC020 0 arg)

/-- LOG_CURSOR_WRITE (R407): client c's cursor is subindex c + 1. -/
def execLogCursorWrite (h : ReqHead) (client value : Nat) (s : State) : Out :=
  s.act (fun s => s.commandTo h 0xC102 (client + 1) value)

end Sys2Proof.Machine
end

