-- ==== Sys2Proof/Machine/Sensing.lean ====
section
/-! DEFINITION. Commands of cell monitoring and of storage state estimation: R65, R423 to R468. -/

namespace Sys2Proof.Machine

open Sys2Proof

/-- Act while the module holds the lease and runs sweeps (R428). -/
def State.ifSweeping (s : State) (f : State → State) : State := if s.sweeping then f s else s

/-- Act on a channel that exists, while the SIOD is powered. -/
def State.onChannel (s : State) (ch : Nat) (f : State → State) : State := if s.up && decide (ch < 8) then f s else s

/-- The close of a sweep: the ports, then the channels (R428, R449). -/
def State.sweepEnd (s : State) : State := if s.cells.inSweep then s.sweepCloseCells.sweepCloseSe else s

/-- SWEEP_SAMPLE (R428 step 1). -/
def execSweepSample (s : State) : Out := s.act (fun s => s.ifSweeping State.sweepSample)

/-- SWEEP_READ (R428 step 2). -/
def execSweepRead (s : State) : Out := s.act (fun s => s.ifSweeping State.sweepRead)

/-- CELL_ANSWER_TIMEOUT (R426). -/
def execCellAnswerTimeout (port : Nat) (s : State) : Out := s.act (fun s => s.ifSweeping (fun s => s.cellTimeout port))

/-- HELLO_ACK (R430). -/
def execHelloAck (port : Nat) (f : CellFrame) (s : State) : Out := s.act (fun s => s.ifSweeping (fun s => s.helloAck port f))

/-- CONFIGURE_ACK (R430). -/
def execConfigureAck (port : Nat) (f : CellFrame) (s : State) : Out :=
  s.act (fun s => s.ifSweeping (fun s => s.configureAck port f))

/-- DATA (R428). -/
def execCellData (port : Nat) (f : CellFrame) (s : State) : Out := s.act (fun s => s.ifSweeping (fun s => s.cellData port f))

/-- SWEEP_CLOSE (R428 step 4). -/
def execSweepClose (s : State) : Out := s.act (fun s => s.ifSweeping State.sweepEnd)

/-- PORT_RETRY (R432). -/
def execPortRetry (port : Nat) (s : State) : Out := s.act (fun s => s.ifSweeping (fun s => s.portRetry port))

/-- CHARGE_TRIM_TICK (R445). -/
def execChargeTrimTick (s : State) : Out := s.act (fun s => s.ifUp State.trimTick)

/-- CURRENT_SENSE_BIT (R445). -/
def execCurrentSenseBit (ch : Nat) (bit : Bool) (s : State) : Out :=
  s.act (fun s => s.onChannel ch (fun s => s.senseBit ch bit))

/-- CS_LOST (R447). -/
def execCsLost (ch : Nat) (s : State) : Out := s.act (fun s => s.onChannel ch (fun s => s.csLost ch))

/-- CS_RETURN (R65). -/
def execCsReturn (ch : Nat) (s : State) : Out := s.act (fun s => s.onChannel ch (fun s => s.csReturn ch))

/-- FULL_DETECT (R450). -/
def execFullDetect (ch : Nat) (s : State) : Out := s.act (fun s => s.onChannel ch (fun s => s.fullDetect ch))

/-- LIMIT_UPDATE (R456). -/
def execLimitUpdate (s : State) : Out := s.act (fun s => s.ifUp State.limitUpdate)

/-- RESET_LEARNED_VALUES (R460). -/
def execResetLearnedValues (h : ReqHead) (mask : Nat) (s : State) : Out := s.act (fun s => s.commandTo h 0x6002 0 mask)

/-- SE_RECORD_WRITE (R462). -/
def execSeRecordWrite (s : State) : Out := s.act (fun s => s.ifServed State.seRecordWrite)

end Sys2Proof.Machine
end

