-- ==== Sys2Proof/Machine/Rails.lean ====
section
/-! DEFINITION. Commands of the module power controller: rails, phases, the current hints, the power estimate, the thermal
controller and the sensors (R469 to R503). -/

namespace Sys2Proof.Machine

open Sys2Proof

/-- RAIL_OVER_VOLTAGE (R477). -/
def execRailOverVoltage (rail : Nat) (m : RailMeas) (s : State) : Out :=
  s.act (fun s => s.ifUp (fun s => s.railFault rail 0x20 m))

/-- SOFT_START_SHORT (R477, R479). -/
def execSoftStartShort (rail : Nat) (m : RailMeas) (s : State) : Out :=
  s.act (fun s => s.ifUp (fun s => s.softStartShort rail m))

/-- RAIL_OVERCURRENT (R477). -/
def execRailOvercurrent (rail : Nat) (m : RailMeas) (s : State) : Out :=
  s.act (fun s => s.ifUp (fun s => s.railFault rail 0x23 m))

/-- RAIL_UNDER_VOLTAGE (R477). -/
def execRailUnderVoltage (rail : Nat) (m : RailMeas) (s : State) : Out :=
  s.act (fun s => s.ifUp (fun s => s.railFault rail 0x24 m))

/-- SOFT_START_RETRY (R479). -/
def execSoftStartRetry (rail : Nat) (inp : CdStartInputs) (s : State) : Out :=
  s.act (fun s => s.ifUp (fun s => s.softStartRetry rail inp))

/-- LATCH_RELEASE (R481). -/
def execLatchRelease (h : ReqHead) (arg : Nat) (s : State) : Out := s.act (fun s => s.commandTo h 0x7041 0 arg)

/-- PHASE_SHED_EVALUATION (R471, R474). -/
def execPhaseShedEvaluation (s : State) : Out := s.act (fun s => s.ifUp State.shedEvaluate)

/-- PHASE_ROTATION (R472). -/
def execPhaseRotation (rail : Nat) (s : State) : Out := s.act (fun s => s.ifUp (fun s => s.rotate rail))

/-- SHED_ABORT (R475): by a load step or by a hint alike. -/
def execShedAbort (_byHint : Bool) (s : State) : Out := s.act (fun s => s.ifUp State.shedAbort)

/-- SHED_HOLDOFF_END (R475). -/
def execShedHoldoffEnd (s : State) : Out := s.act (fun s => s.ifUp State.holdoffEnd)

/-- MPC_HINT_RECEIVE (R476). -/
def execMpcHintReceive (unit : Nat) (s : State) : Out := s.act (fun s => s.ifUp (fun s => s.hintReceive unit))

/-- HINT_WINDOW_START (R476). -/
def execHintWindowStart (s : State) : Out := s.act (fun s => s.ifUp State.windowStart)

/-- POWER_SLOT_BOUNDARY (R471, R484). -/
def execPowerSlotBoundary (r : SlotReadings) (s : State) : Out := s.act (fun s => s.ifUp (fun s => (s.slotBoundary r).sendAllCopies))

/-- CALIBRATION_UPDATE (R485). -/
def execCalibrationUpdate (measuredMicrojoule : Nat) (s : State) : Out :=
  s.act (fun s => s.ifUp (fun s => s.calibrate measuredMicrojoule))

/-- INPUT_POWER_SAMPLE (R486). -/
def execInputPowerSample (millivolt milliamp : Nat) (s : State) : Out :=
  s.act (fun s => s.ifUp (fun s => s.inputSample millivolt milliamp))

/-- THERMAL_CONTROLLER_UPDATE (R489). -/
def execThermalControllerUpdate (s : State) : Out := s.act (fun s => s.ifUp State.thermalUpdate)

/-- OPPORTUNISTIC_RAISE (R491). -/
def execOpportunisticRaise (s : State) : Out := s.act (fun s => s.ifUp State.opportunisticRaise)

/-- SENSOR_READ (R494). -/
def execSensorRead (readings : List Int) (s : State) : Out := s.act (fun s => s.ifUp (fun s => s.sensorRead readings))

end Sys2Proof.Machine
end

