-- ==== Sys2Proof/Machine/Lease.lean ====
section
/-! DEFINITION. Commands of the mooring lease, the checkpoints and the switch-over: R504 to R532. -/

namespace Sys2Proof.Machine

open Sys2Proof

/-- The lease timer expires 200 ms after the latest renewal (R29, R504, R506, R510).  In SAFE_HOLD the module restarts: after the hold limit with trigger 0x0D,
after a conflict with 0x0E (log entry 62). -/
def State.leaseExpires (s : State) (straps : List Nat) : State :=
  if !s.red.timer || decide (s.intake < s.red.renewedAt + 200000) then s
  else
    let s := s.setRed (fun r => { r with timer := false })
    if s.mode = .safeHold then
      if s.hold.conflict then s.moduleRestart 0x0E straps else (s.leaseLost 1).moduleRestart 0x0D straps
    else if s.red.held then s.leaseLost 1
    else s

/-- 40 ms (10,000 frames) from the claim without the CE in service (R520). -/
def State.takeoverFails (s : State) (straps : List Nat) : State :=
  if s.mode = .takeover ∧ !s.power.leaving ∧ s.red.claimFrame + 10000 ≤ s.frame then
    let s := s.closeGate.redLog 0x8108 (packBytes [(4, 4 * (s.frame - s.red.claimFrame)), (1, s.red.step)])
    let s := s.setRed (fun r => { r with armed := false })
    let s := { s with cd := { s.cd with due := false } }
    s.moduleRestart 0x05 straps
  else s

/-- LEASE_RENEW_SEND (R505). -/
def execLeaseRenewSend (s : State) : Out := s.act (fun s => s.ifUp State.renewSend)

/-- LEASE_PULSE_RECEIVE (R53, R507). -/
def execLeasePulseReceive (microseconds : Nat) (s : State) : Out :=
  s.act (fun s => s.ifServed (fun s => s.pulseIn microseconds))

/-- LEASE_RENEW_RECEIVE (R507): the renewal number is what the module takes from the payload. -/
def execLeaseRenewReceive (number _state _slot _checkpoint : Nat) (s : State) : Out :=
  s.act (fun s => s.ifServed (fun s => s.renewIn number))

/-- LEASE_ACK_SEND (R511). -/
def execLeaseAckSend (s : State) : Out := s.act (fun s => s.ifServed State.ackSend)

/-- LEASE_ACK_RECEIVE (R511). -/
def execLeaseAckReceive (number paths _state : Nat) (s : State) : Out :=
  s.act (fun s => s.ifServed (fun s => s.ackIn number paths))

/-- LEASE_CLAIM (R508). -/
def execLeaseClaim (s : State) : Out := s.act (fun s => s.ifServed State.claim)

/-- LEASE_EXPIRY (R506). -/
def execLeaseExpiry (b : BootInputs) (s : State) : Out := s.act (fun s => s.ifUp (fun s => s.leaseExpires b.straps))

/-- TAKEOVER_LIMIT_EXPIRY (R520). -/
def execTakeoverLimitExpiry (b : BootInputs) (s : State) : Out := s.act (fun s => s.ifUp (fun s => s.takeoverFails b.straps))

/-- CHECKPOINT_READ_COMPLETE (R519, R521). -/
def execCheckpointReadComplete (slot0 slot1 : Option Blob) (s : State) : Out :=
  s.act (fun s => s.ifUp (fun s => s.checkpointRead slot0 slot1))

/-- STORE_READ_TIMEOUT (R519). -/
def execStoreReadTimeout (s : State) : Out := s.act (fun s => s.ifUp State.storeTimeout)

/-- RC_TABLE_RESTORE (R519). -/
def execRcTableRestore (rc : Nat) (table : Blob) (s : State) : Out := s.act (fun s => s.ifUp (fun s => s.tableRestore rc table))

/-- CHECKPOINT_TAKE (R513). -/
def execCheckpointTake (s : State) : Out := s.act (fun s => s.ifUp State.checkpointTake)

/-- CHECKPOINT_VERIFIED (R513). -/
def execCheckpointVerified (s : State) : Out := s.act (fun s => s.ifUp State.checkpointVerified)

/-- CHECKPOINT_TIMEOUT (R517). -/
def execCheckpointTimeout (s : State) : Out := s.act (fun s => s.ifUp State.checkpointTimeout)

/-- MANUAL_SWITCH_OVER (R524). -/
def execManualSwitchOver (h : ReqHead) (arg : Nat) (s : State) : Out := s.act (fun s => s.commandTo h 0x8010 0 arg)

/-- HANDOVER_RECEIVE (R525): the final renewal number is what the module takes from the payload. -/
def execHandoverReceive (number _checkpoint : Nat) (s : State) : Out :=
  s.act (fun s => s.ifServed (fun s => s.handoverIn number))

/-- PEER_STATE_SEND (R512). -/
def execPeerStateSend (s : State) : Out := s.act State.peerStateSend

/-- PEER_STATE_RECEIVE (R512). -/
def execPeerStateReceive (state flags : Nat) (s : State) : Out := s.act (fun s => s.ifServed (fun s => s.peerStateIn state flags))

end Sys2Proof.Machine
end

