-- ==== Sys2Proof/Machine/Dispatch.lean ====
section
/-! DEFINITION. The dispatch: one arm per command, each one call of its meaning. -/

namespace Sys2Proof.Machine

open Sys2Proof

/-- The effect of a command on everything but the queue of waiting commands. -/
def exec (i : Instr) (s : State) : Host.Outcome State Fault Refusal :=
  match i with
  | .inputEntersRange b => Sys2Proof.Machine.execInputEntersRange b s
  | .leaseLineWatchEnd driverSeen => Sys2Proof.Machine.execLeaseLineWatchEnd driverSeen s
  | .bootComplete => Sys2Proof.Machine.execBootComplete s
  | .bootWatchdogExpiry b => Sys2Proof.Machine.execBootWatchdogExpiry b s
  | .mpWatchdogExpiry => Sys2Proof.Machine.execMpWatchdogExpiry s
  | .strapChange straps => Sys2Proof.Machine.execStrapChange straps s
  | .inputSupervisorTick millivolt => Sys2Proof.Machine.execInputSupervisorTick millivolt s
  | .rideThroughTimeout => Sys2Proof.Machine.execRideThroughTimeout s
  | .mateNHigh nanoseconds => Sys2Proof.Machine.execMateNHigh nanoseconds s
  | .nvrWriteComplete => Sys2Proof.Machine.execNvrWriteComplete s
  | .rootOrIoPllLost rootLost => Sys2Proof.Machine.execRootOrIoPllLost rootLost s
  | .cdPllUnlock hbm => Sys2Proof.Machine.execCdPllUnlock hbm s
  | .serdesPllUnlock => Sys2Proof.Machine.execSerdesPllUnlock s
  | .rootCompensationUpdate => Sys2Proof.Machine.execRootCompensationUpdate s
  | .operatingPointChange point => Sys2Proof.Machine.execOperatingPointChange point s
  | .computeSlewStep => Sys2Proof.Machine.execComputeSlewStep s
  | .fixedOpWrite h point => Sys2Proof.Machine.execFixedOpWrite h point s
  | .syncInLost cause => Sys2Proof.Machine.execSyncInLost cause s
  | .syncInReturned => Sys2Proof.Machine.execSyncInReturned s
  | .cdStart inp => Sys2Proof.Machine.execCdStart inp s
  | .loadReplay c => Sys2Proof.Machine.execLoadReplay c s
  | .imageOpen h header => Sys2Proof.Machine.execImageOpen h header s
  | .imageSegment h offset reserved body => Sys2Proof.Machine.execImageSegment h offset reserved body s
  | .imageActivate h arg b => Sys2Proof.Machine.execImageActivate h arg b s
  | .imageTransferTimeout => Sys2Proof.Machine.execImageTransferTimeout s
  | .floorCommand h record => Sys2Proof.Machine.execFloorCommand h record s
  | .keyEnrol h record => Sys2Proof.Machine.execKeyEnrol h record s
  | .keyRemove h record => Sys2Proof.Machine.execKeyRemove h record s
  | .configurationBundle h bundle => Sys2Proof.Machine.execConfigurationBundle h bundle s
  | .bundleApply => Sys2Proof.Machine.execBundleApply s
  | .regionWorldChange => Sys2Proof.Machine.execRegionWorldChange s
  | .gangwayFrameBoundary readBackDiffers => Sys2Proof.Machine.execGangwayFrameBoundary readBackDiffers s
  | .replySlotReceive node bits => Sys2Proof.Machine.execReplySlotReceive node bits s
  | .managementReplyReceive node bits => Sys2Proof.Machine.execManagementReplyReceive node bits s
  | .nodeDisable h node => Sys2Proof.Machine.execNodeDisable h node s
  | .nodeEnable h node => Sys2Proof.Machine.execNodeEnable h node s
  | .nodeClearFault h node => Sys2Proof.Machine.execNodeClearFault h node s
  | .holdLimitExpiry => Sys2Proof.Machine.execHoldLimitExpiry s
  | .intakeFrameBoundary => Sys2Proof.Machine.execIntakeFrameBoundary s
  | .bankSeal => Sys2Proof.Machine.execBankSeal s
  | .runEndedAtBankReuse core => Sys2Proof.Machine.execRunEndedAtBankReuse core s
  | .nop p => Sys2Proof.Machine.execNop p s
  | .matmul p fx => Sys2Proof.Machine.execMatmul p fx s
  | .vector p fx => Sys2Proof.Machine.execVector p fx s
  | .copy p fx => Sys2Proof.Machine.execCopy p fx s
  | .gather p fx => Sys2Proof.Machine.execGather p fx s
  | .scalar p fx => Sys2Proof.Machine.execScalar p fx s
  | .skip p => Sys2Proof.Machine.execSkip p s
  | .hint p => Sys2Proof.Machine.execHint p s
  | .fence p => Sys2Proof.Machine.execFence p s
  | .barrier p => Sys2Proof.Machine.execBarrier p s
  | .barrierTimeout p ident => Sys2Proof.Machine.execBarrierTimeout p ident s
  | .emit p fx => Sys2Proof.Machine.execEmit p fx s
  | .progEnd p cycles => Sys2Proof.Machine.execProgEnd p cycles s
  | .tileYield core => Sys2Proof.Machine.execTileYield core s
  | .clusterWake cluster => Sys2Proof.Machine.execClusterWake cluster s
  | .tollCreditReturn toll unit => Sys2Proof.Machine.execTollCreditReturn toll unit s
  | .sequencerWatchdogExpiry core => Sys2Proof.Machine.execSequencerWatchdogExpiry core s
  | .fenceCore h core => Sys2Proof.Machine.execFenceCore h core s
  | .releaseCore h core => Sys2Proof.Machine.execReleaseCore h core s
  | .fenceCluster h cluster => Sys2Proof.Machine.execFenceCluster h cluster s
  | .coreSelfTestDone core pass => Sys2Proof.Machine.execCoreSelfTestDone core pass s
  | .cdStop h => Sys2Proof.Machine.execCdStop h s
  | .clearHostStop h => Sys2Proof.Machine.execClearHostStop h s
  | .streamSettingsWrite h stream sub value => Sys2Proof.Machine.execStreamSettingsWrite h stream sub value s
  | .loadNewStreams h addr first count => Sys2Proof.Machine.execLoadNewStreams h addr first count s
  | .replaceModel h addr first count => Sys2Proof.Machine.execReplaceModel h addr first count s
  | .loadCommit => Sys2Proof.Machine.execLoadCommit s
  | .unload h first count => Sys2Proof.Machine.execUnload h first count s
  | .hostWork h descriptor => Sys2Proof.Machine.execHostWork h descriptor s
  | .masterCopyRestore modelId upsets => Sys2Proof.Machine.execMasterCopyRestore modelId upsets s
  | .bar2Read offset len upsets => Sys2Proof.Machine.execBar2Read offset len upsets s
  | .bar2Write offset len data upsets => Sys2Proof.Machine.execBar2Write offset len data upsets s
  | .hbmAccessTimeout stack => Sys2Proof.Machine.execHbmAccessTimeout stack s
  | .hbmScrubStep stack upsets again => Sys2Proof.Machine.execHbmScrubStep stack upsets again s
  | .sramScrubStep sramMacro upsets again => Sys2Proof.Machine.execSramScrubStep sramMacro upsets again s
  | .refreshUpdate stack readout => Sys2Proof.Machine.execRefreshUpdate stack readout s
  | .resultRecordAccept core => Sys2Proof.Machine.execResultRecordAccept core s
  | .mergeRun upsets => Sys2Proof.Machine.execMergeRun upsets s
  | .mergeOverrun => Sys2Proof.Machine.execMergeOverrun s
  | .ripeningImageRegister h modelId addr => Sys2Proof.Machine.execRipeningImageRegister h modelId addr s
  | .ripeningImageDeregister h modelId => Sys2Proof.Machine.execRipeningImageDeregister h modelId s
  | .ripeningJobStart modelId => Sys2Proof.Machine.execRipeningJobStart modelId s
  | .ripeningTimeout modelId => Sys2Proof.Machine.execRipeningTimeout modelId s
  | .budgetPeriodBoundary => Sys2Proof.Machine.execBudgetPeriodBoundary s
  | .coreResume => Sys2Proof.Machine.execCoreResume s
  | .budgetWrite h watts => Sys2Proof.Machine.execBudgetWrite h watts s
  | .budgetRefreshTimeout => Sys2Proof.Machine.execBudgetRefreshTimeout s
  | .barrierRelease group => Sys2Proof.Machine.execBarrierRelease group s
  | .ceSnapshot => Sys2Proof.Machine.execCeSnapshot s
  | .followingErrorTimeout loop => Sys2Proof.Machine.execFollowingErrorTimeout loop s
  | .loopModeOff h loop => Sys2Proof.Machine.execLoopModeOff h loop s
  | .loopModeOpen h loop => Sys2Proof.Machine.execLoopModeOpen h loop s
  | .loopModeClosed h loop => Sys2Proof.Machine.execLoopModeClosed h loop s
  | .rcClear h rc => Sys2Proof.Machine.execRcClear h rc s
  | .rcPhaseNudge h rc arg => Sys2Proof.Machine.execRcPhaseNudge h rc arg s
  | .rcSetIndex h rc arg => Sys2Proof.Machine.execRcSetIndex h rc arg s
  | .rcPeriodWrite h rc arg => Sys2Proof.Machine.execRcPeriodWrite h rc arg s
  | .ceEntersService => Sys2Proof.Machine.execCeEntersService s
  | .linkCodeLock link => Sys2Proof.Machine.execLinkCodeLock link s
  | .linkCrossingLock link => Sys2Proof.Machine.execLinkCrossingLock link s
  | .linkUp link roundTrip => Sys2Proof.Machine.execLinkUp link roundTrip s
  | .linkTrainingTimeout link => Sys2Proof.Machine.execLinkTrainingTimeout link s
  | .linkDown link cause => Sys2Proof.Machine.execLinkDown link cause s
  | .downstreamCrossingStart link => Sys2Proof.Machine.execDownstreamCrossingStart link s
  | .crossingRelease link corrected uncorrectable windows => Sys2Proof.Machine.execCrossingRelease link corrected uncorrectable windows s
  | .attach link berth payload => Sys2Proof.Machine.execAttach link berth payload s
  | .detach link berth payload => Sys2Proof.Machine.execDetach link berth payload s
  | .attachmentChangeEffect => Sys2Proof.Machine.execAttachmentChangeEffect s
  | .peerAggregateReceive link payload => Sys2Proof.Machine.execPeerAggregateReceive link payload s
  | .configurationReceive link payload => Sys2Proof.Machine.execConfigurationReceive link payload s
  | .dictionaryRead r => Sys2Proof.Machine.execDictionaryRead r s
  | .dictionaryWrite r => Sys2Proof.Machine.execDictionaryWrite r s
  | .mailboxBadOp => Sys2Proof.Machine.execMailboxBadOp s
  | .dapSegment port mac tag offset data dataLen => Sys2Proof.Machine.execDapSegment port mac tag offset data dataLen s
  | .dapAbort port mac tag => Sys2Proof.Machine.execDapAbort port mac tag s
  | .dapTransferTimeout port mac tag => Sys2Proof.Machine.execDapTransferTimeout port mac tag s
  | .dapFrameDrop port => Sys2Proof.Machine.execDapFrameDrop port s
  | .mirrorRead offset width => Sys2Proof.Machine.execMirrorRead offset width s
  | .irregularBar0Access offset width write => Sys2Proof.Machine.execIrregularBar0Access offset width write s
  | .loRegisterRead r => Sys2Proof.Machine.execLoRegisterRead r s
  | .intStatusClear mask => Sys2Proof.Machine.execIntStatusClear mask s
  | .intEnableWrite value => Sys2Proof.Machine.execIntEnableWrite value s
  | .registerWrite offset width value => Sys2Proof.Machine.execRegisterWrite offset width value s
  | .controllerReset kind => Sys2Proof.Machine.execControllerReset kind s
  | .d3hotTransition => Sys2Proof.Machine.execD3hotTransition s
  | .fnLinkStatusChange port up => Sys2Proof.Machine.execFnLinkStatusChange port up s
  | .periodicPublication => Sys2Proof.Machine.execPeriodicPublication s
  | .changePublication => Sys2Proof.Machine.execChangePublication s
  | .hold h => Sys2Proof.Machine.execHold h s
  | .release h => Sys2Proof.Machine.execRelease h s
  | .describe h arg => Sys2Proof.Machine.execDescribe h arg s
  | .logCursorWrite h client value => Sys2Proof.Machine.execLogCursorWrite h client value s
  | .sweepSample => Sys2Proof.Machine.execSweepSample s
  | .sweepRead => Sys2Proof.Machine.execSweepRead s
  | .cellAnswerTimeout port => Sys2Proof.Machine.execCellAnswerTimeout port s
  | .helloAck port f => Sys2Proof.Machine.execHelloAck port f s
  | .configureAck port f => Sys2Proof.Machine.execConfigureAck port f s
  | .cellData port f => Sys2Proof.Machine.execCellData port f s
  | .sweepClose => Sys2Proof.Machine.execSweepClose s
  | .portRetry port => Sys2Proof.Machine.execPortRetry port s
  | .chargeTrimTick => Sys2Proof.Machine.execChargeTrimTick s
  | .csLost ch => Sys2Proof.Machine.execCsLost ch s
  | .csReturn ch => Sys2Proof.Machine.execCsReturn ch s
  | .fullDetect ch => Sys2Proof.Machine.execFullDetect ch s
  | .limitUpdate => Sys2Proof.Machine.execLimitUpdate s
  | .resetLearnedValues h mask => Sys2Proof.Machine.execResetLearnedValues h mask s
  | .seRecordWrite => Sys2Proof.Machine.execSeRecordWrite s
  | .railOverVoltage rail m => Sys2Proof.Machine.execRailOverVoltage rail m s
  | .softStartShort rail m => Sys2Proof.Machine.execSoftStartShort rail m s
  | .railOvercurrent rail m => Sys2Proof.Machine.execRailOvercurrent rail m s
  | .railUnderVoltage rail m => Sys2Proof.Machine.execRailUnderVoltage rail m s
  | .softStartRetry rail inp => Sys2Proof.Machine.execSoftStartRetry rail inp s
  | .latchRelease h arg => Sys2Proof.Machine.execLatchRelease h arg s
  | .phaseShedEvaluation => Sys2Proof.Machine.execPhaseShedEvaluation s
  | .phaseRotation rail => Sys2Proof.Machine.execPhaseRotation rail s
  | .shedAbort byHint => Sys2Proof.Machine.execShedAbort byHint s
  | .shedHoldoffEnd => Sys2Proof.Machine.execShedHoldoffEnd s
  | .mpcHintReceive unit => Sys2Proof.Machine.execMpcHintReceive unit s
  | .hintWindowStart => Sys2Proof.Machine.execHintWindowStart s
  | .powerSlotBoundary r => Sys2Proof.Machine.execPowerSlotBoundary r s
  | .calibrationUpdate measuredMicrojoule => Sys2Proof.Machine.execCalibrationUpdate measuredMicrojoule s
  | .inputPowerSample millivolt milliamp => Sys2Proof.Machine.execInputPowerSample millivolt milliamp s
  | .thermalControllerUpdate => Sys2Proof.Machine.execThermalControllerUpdate s
  | .opportunisticRaise => Sys2Proof.Machine.execOpportunisticRaise s
  | .sensorRead readings => Sys2Proof.Machine.execSensorRead readings s
  | .flowLost => Sys2Proof.Machine.execFlowLost s
  | .leaseRenewSend => Sys2Proof.Machine.execLeaseRenewSend s
  | .leasePulseReceive microseconds => Sys2Proof.Machine.execLeasePulseReceive microseconds s
  | .leaseRenewReceive number state slot checkpoint => Sys2Proof.Machine.execLeaseRenewReceive number state slot checkpoint s
  | .leaseAckSend => Sys2Proof.Machine.execLeaseAckSend s
  | .leaseAckReceive number paths state => Sys2Proof.Machine.execLeaseAckReceive number paths state s
  | .leaseClaim => Sys2Proof.Machine.execLeaseClaim s
  | .leaseExpiry b => Sys2Proof.Machine.execLeaseExpiry b s
  | .takeoverLimitExpiry b => Sys2Proof.Machine.execTakeoverLimitExpiry b s
  | .checkpointReadComplete slot0 slot1 => Sys2Proof.Machine.execCheckpointReadComplete slot0 slot1 s
  | .storeReadTimeout => Sys2Proof.Machine.execStoreReadTimeout s
  | .rcTableRestore rc table => Sys2Proof.Machine.execRcTableRestore rc table s
  | .checkpointTake => Sys2Proof.Machine.execCheckpointTake s
  | .checkpointVerified => Sys2Proof.Machine.execCheckpointVerified s
  | .checkpointTimeout => Sys2Proof.Machine.execCheckpointTimeout s
  | .manualSwitchOver h arg => Sys2Proof.Machine.execManualSwitchOver h arg s
  | .handoverReceive number checkpoint => Sys2Proof.Machine.execHandoverReceive number checkpoint s
  | .peerStateSend => Sys2Proof.Machine.execPeerStateSend s
  | .peerStateReceive state flags => Sys2Proof.Machine.execPeerStateReceive state flags s
  | .flowReturned => Sys2Proof.Machine.execFlowReturned s
  | .currentSenseBit ch bit => Sys2Proof.Machine.execCurrentSenseBit ch bit s
  | .serdesPllRelock => Sys2Proof.Machine.execSerdesPllRelock s
  | .stackManagementFatal stack => Sys2Proof.Machine.execStackManagementFatal stack s
  | .vaonPowerGoodLost => Sys2Proof.Machine.execVaonPowerGoodLost s
  | .mpWatchdogKick => Sys2Proof.Machine.execMpWatchdogKick s
  | .linkSignalDetected link => Sys2Proof.Machine.execLinkSignalDetected link s
  | .d0Return => Sys2Proof.Machine.execD0Return s

end Sys2Proof.Machine
end

