-- ==== Sys2Proof/WellFormed.lean ====
section
/-! DEFINITION. Which commands can reach the module: every operand in the range that its wire, pin or entry gives it. -/

namespace Sys2Proof

/-- A value of `n` bytes. -/
def fits (n : Nat) (b : Blob) : Bool := decide (b < 2 ^ (8 * n))

/-- Nothing, or a value below a bound. -/
def below? (n : Nat) (x : Option Nat) : Bool := x.all (fun v => decide (v < n))

/-- The path of a request (R355, R361): one of two field-network ports, a 6-byte address and a 2-byte tag. -/
def Via.wf : Via → Bool
  | .host => true
  | .dap port mac tag => decide (port < 2) && fits 6 mac && fits 2 tag

/-- The trailer of a signed request: 8, 32 and 64 bytes (R356). -/
def Trailer.wf (t : Trailer) : Bool := fits 8 t.challenge && fits 32 t.key && fits 64 t.sig

/-- The head of a command row. -/
def ReqHead.wf (h : ReqHead) : Bool := h.via.wf && h.signed.all Trailer.wf

/-- A dictionary request: a 16-bit index, an 8-bit subindex, a 32-bit length, and the bytes that arrive. -/
def Req.wf (r : Req) : Bool :=
  r.via.wf && fits 2 r.index && fits 1 r.sub && fits 4 r.len && fits r.dataLen r.data

/-- A stored word struck in HBM (R195) or in one of 801 SRAM macros of 1 MiB (R221): a 32-bit word's address, 39 bits
of its codeword and 3 copies of its valid bit. -/
def Upset.wf (u : Upset) : Bool :=
  decide (u.addr % 4 = 0 ∧ u.mask < 2 ^ 42) &&
  (match u.space with | .hbm => fits 8 u.addr | .sram => decide (u.addr < 801 * 2 ^ 20))

/-- A program: of one of 768 streams, or on one of 96 cores (R104, R149, R179). -/
def ProgRef.wf : ProgRef → Bool
  | .stream s => decide (s < 768)
  | .host c => decide (c < 96)
  | .ripen c => decide (c < 96)

/-- What a TE command meets. -/
def MergeUpset.wf (u : MergeUpset) : Bool :=
  below? 768 u.stream && decide (u.word < (if u.stream.isSome then 64 else 2 ^ 18) ∧ 0 < u.mask ∧ u.mask < 2 ^ 42)

def ExecFx.wf (f : ExecFx) : Bool := f.upsets.all Upset.wf

/-- What a start-up meets: 16 strap samples of 4 bits (R50), and one of the SIOD rails 0 to 4. -/
def BootInputs.wf (b : BootInputs) : Bool :=
  decide (b.straps.length = 16) && b.straps.all (fun x => decide (x < 16)) && below? 5 b.highSideShort

/-- What a CD start meets: a CD rail 5 to 12, stacks 0 to 11, cores 0 to 95. -/
def CdStartInputs.wf (i : CdStartInputs) : Bool :=
  i.highSideShort.all (fun j => decide (5 ≤ j ∧ j < 13)) && i.untrained.all (fun n => decide (n < 12)) &&
  i.selfTestFail.all (fun c => decide (c < 96))

/-- A rail's measurement, as the fault record holds it (R482). -/
def RailMeas.wf (m : RailMeas) : Bool := fits 2 m.mv && fits 2 m.deciAmp && fits 4 m.limited

/-- A slot's readings: 12 clusters of 48 counters (R483, R484). -/
def SlotReadings.wf (r : SlotReadings) : Bool :=
  r.counts.all (fun x => decide (x.1 < 12 ∧ x.2.1 < 48)) && fits 2 r.mv && fits 2 r.deciAmp && fits 2 r.edge

/-- A cell monitor frame (R423). -/
def CellFrame.wf (f : CellFrame) : Bool :=
  fits 1 f.typ && fits 1 f.seq && fits 1 f.len && fits f.len f.payload && fits 2 f.crc

/-- A berth's window (R319): one of 128 berths, 76 and 22 bytes. -/
def Window.wf (w : Window) : Bool := decide (w.berth < 128) && fits 76 w.record && fits 22 w.msg

/-- A load recorded in the model area (R518). -/
def ModelEntry.wf (e : ModelEntry) : Bool := fits 16 e.request && fits e.imageLen e.image && fits 4 e.crc

/-- The widths of a BAR0 access (R351). -/
def widthOk (w : Nat) : Bool := decide (w = 1 ∨ w = 2 ∨ w = 4 ∨ w = 8)

/-- A byte of a record. -/
def recordByte (r : Blob) (i : Nat) : Nat := r / 2 ^ (8 * i) % 256

/-- The operands of a command are in range. -/
def Instr.wf : Instr → Bool
  | .inputEntersRange b => b.wf
  | .leaseLineWatchEnd _ => true
  | .bootComplete => true
  | .bootWatchdogExpiry b => b.wf
  | .mpWatchdogExpiry => true
  | .strapChange v => decide (v < 16)
  | .inputSupervisorTick _ => true
  | .rideThroughTimeout => true
  | .mateNHigh _ => true
  | .nvrWriteComplete => true
  | .rootOrIoPllLost _ => true
  | .cdPllUnlock _ => true
  | .serdesPllUnlock => true
  | .rootCompensationUpdate => true
  | .operatingPointChange p => decide (p < 8)
  | .computeSlewStep => true
  | .fixedOpWrite h p => h.wf && fits 1 p
  | .syncInLost c => fits 1 c
  | .syncInReturned => true
  | .cdStart i => i.wf
  | .loadReplay c => c.newest.all (fun n => decide (n.1 < 2) && fits 4 n.2) && c.entries.all ModelEntry.wf
  | .imageOpen h r => h.wf && fits 256 r
  | .imageSegment h o z b => h.wf && fits 4 o && fits 4 z && fits 32768 b
  | .imageActivate h a b => h.wf && fits 1 a && b.wf
  | .imageTransferTimeout => true
  | .floorCommand h r => h.wf && fits 136 r
  | .keyEnrol h r => h.wf && fits 144 r && decide (recordByte r 4 = 1)
  | .keyRemove h r => h.wf && fits 144 r && decide (recordByte r 4 = 2)
  | .configurationBundle h b => h.wf && fits 65535 b
  | .bundleApply => true
  | .regionWorldChange => true
  | .gangwayFrameBoundary _ => true
  | .replySlotReceive a _ => decide (a < 24)
  | .managementReplyReceive a _ => decide (a < 24)
  | .nodeDisable h a => h.wf && decide (a < 32)
  | .nodeEnable h a => h.wf && decide (a < 32)
  | .nodeClearFault h a => h.wf && decide (a < 32)
  | .holdLimitExpiry => true
  | .intakeFrameBoundary => true
  | .bankSeal => true
  | .runEndedAtBankReuse c => decide (c < 96)
  | .nop p => p.wf
  | .matmul p fx => p.wf && fx.wf
  | .vector p fx => p.wf && fx.wf
  | .copy p fx => p.wf && fx.wf
  | .gather p fx => p.wf && fx.wf
  | .scalar p fx => p.wf && fx.wf
  | .skip p => p.wf
  | .hint p => p.wf
  | .fence p => p.wf
  | .barrier p => p.wf
  | .barrierTimeout p i => p.wf && fits 1 i
  | .emit p fx => p.wf && fx.wf
  | .progEnd p _ => p.wf
  | .tileYield c => decide (c < 96)
  | .clusterWake c => decide (c < 12)
  | .tollCreditReturn _ _ => true
  | .sequencerWatchdogExpiry c => decide (c < 96)
  | .fenceCore h c => h.wf && fits 1 c
  | .releaseCore h c => h.wf && fits 1 c
  | .fenceCluster h c => h.wf && fits 1 c
  | .coreSelfTestDone c _ => decide (c < 96)
  | .cdStop h => h.wf
  | .clearHostStop h => h.wf
  | .streamSettingsWrite h n k v => h.wf && decide (n < 768 ∧ 1 ≤ k ∧ k ≤ 3) && fits 8 v
  | .loadNewStreams h a f c => h.wf && fits 8 a && fits 2 f && fits 2 c
  | .replaceModel h a f c => h.wf && fits 8 a && fits 2 f && fits 2 c
  | .loadCommit => true
  | .unload h f c => h.wf && fits 2 f && fits 2 c
  | .hostWork h d => h.wf && fits 32 d
  | .masterCopyRestore k us => fits 4 k && us.all Upset.wf
  | .bar2Read _ n us => decide (0 < n) && us.all Upset.wf
  | .bar2Write _ n d us => decide (0 < n) && fits n d && us.all Upset.wf
  | .hbmAccessTimeout n => decide (n < 12)
  | .hbmScrubStep n us again => decide (n < 12) && us.all Upset.wf && again.all Upset.wf
  | .sramScrubStep m us again => decide (m < 801) && us.all Upset.wf && again.all Upset.wf
  | .refreshUpdate n _ => decide (n < 12)
  | .resultRecordAccept c => decide (c < 96)
  | .mergeRun us => us.all MergeUpset.wf
  | .mergeOverrun => true
  | .ripeningImageRegister h k a => h.wf && fits 4 k && fits 8 a
  | .ripeningImageDeregister h k => h.wf && fits 4 k
  | .ripeningJobStart k => fits 4 k
  | .ripeningTimeout k => fits 4 k
  | .budgetPeriodBoundary => true
  | .coreResume => true
  | .budgetWrite h w => h.wf && fits 4 w
  | .budgetRefreshTimeout => true
  | .barrierRelease g => decide (g < 64)
  | .ceSnapshot => true
  | .followingErrorTimeout n => decide (n < 64)
  | .loopModeOff h n => h.wf && decide (n < 64)
  | .loopModeOpen h n => h.wf && decide (n < 64)
  | .loopModeClosed h n => h.wf && decide (n < 64)
  | .rcClear h r => h.wf && decide (r < 4)
  | .rcPhaseNudge h r a => h.wf && decide (r < 4) && fits 2 a
  | .rcSetIndex h r a => h.wf && decide (r < 4) && fits 4 a
  | .rcPeriodWrite h r a => h.wf && decide (r < 4) && fits 4 a
  | .ceEntersService => true
  | .linkCodeLock l => decide (l < 49)
  | .linkCrossingLock l => decide (l < 49)
  | .linkUp l _ => decide (l < 49)
  | .linkTrainingTimeout l => decide (l < 49)
  | .linkDown l c => decide (l < 49 ∧ 1 ≤ c ∧ c ≤ 4)
  | .downstreamCrossingStart l => decide (l < 49)
  | .crossingRelease l _ _ ws => decide (l < 49) && ws.all Window.wf
  | .attach l b p => decide (l < 49 ∧ b < 128) && fits 8 p
  | .detach l b p => decide (l < 49 ∧ b < 128) && fits 4 p
  | .attachmentChangeEffect => true
  | .peerAggregateReceive l p => decide (l < 49) && fits 132 p
  | .configurationReceive l p => decide (l < 49) && fits 72 p
  | .dictionaryRead r => r.wf
  | .dictionaryWrite r => r.wf
  | .mailboxBadOp => true
  | .dapSegment p m t o d n => decide (p < 2) && fits 6 m && fits 2 t && fits 4 o && fits n d
  | .dapAbort p m t => decide (p < 2) && fits 6 m && fits 2 t
  | .dapTransferTimeout p m t => decide (p < 2) && fits 6 m && fits 2 t
  | .dapFrameDrop p => decide (p < 2)
  | .mirrorRead o w => decide (o < 2 ^ 27) && widthOk w
  | .irregularBar0Access o w _ => decide (o < 2 ^ 27) && widthOk w
  | .loRegisterRead _ => true
  | .intStatusClear m => fits 4 m
  | .intEnableWrite v => fits 4 v
  | .registerWrite o w v => decide (o < 2 ^ 27) && widthOk w && fits w v
  | .controllerReset _ => true
  | .d3hotTransition => true
  | .fnLinkStatusChange p _ => decide (p < 2)
  | .periodicPublication => true
  | .changePublication => true
  | .hold h => h.wf
  | .release h => h.wf
  | .describe h a => h.wf && fits 4 a
  | .logCursorWrite h c v => h.wf && decide (c < 3) && fits 8 v
  | .sweepSample => true
  | .sweepRead => true
  | .cellAnswerTimeout p => decide (p < 32)
  | .helloAck p f => decide (p < 32) && f.wf
  | .configureAck p f => decide (p < 32) && f.wf
  | .cellData p f => decide (p < 32) && f.wf
  | .sweepClose => true
  | .portRetry p => decide (p < 32)
  | .chargeTrimTick => true
  | .csLost c => decide (c < 8)
  | .csReturn c => decide (c < 8)
  | .fullDetect c => decide (c < 8)
  | .limitUpdate => true
  | .resetLearnedValues h m => h.wf && fits 1 m
  | .seRecordWrite => true
  | .railOverVoltage j m => decide (j < 13) && m.wf
  | .softStartShort j m => decide (j < 13) && m.wf
  | .railOvercurrent j m => decide (j < 13) && m.wf
  | .railUnderVoltage j m => decide (j < 13) && m.wf
  | .softStartRetry j i => decide (j < 13) && i.highSideShort.all (fun k => decide (k < 13))
  | .latchRelease h a => h.wf && fits 1 a
  | .phaseShedEvaluation => true
  | .phaseRotation j => decide (j < 13)
  | .shedAbort _ => true
  | .shedHoldoffEnd => true
  | .mpcHintReceive _ => true
  | .hintWindowStart => true
  | .powerSlotBoundary r => r.wf
  | .calibrationUpdate _ => true
  | .inputPowerSample _ _ => true
  | .thermalControllerUpdate => true
  | .opportunisticRaise => true
  | .sensorRead rs => decide (rs.length = 95)
  | .flowLost => true
  | .leaseRenewSend => true
  | .leasePulseReceive _ => true
  | .leaseRenewReceive n st sl c => fits 4 n && fits 1 st && fits 1 sl && fits 4 c
  | .leaseAckSend => true
  | .leaseAckReceive n p st => fits 4 n && fits 1 p && fits 1 st
  | .leaseClaim => true
  | .leaseExpiry b => b.wf
  | .takeoverLimitExpiry b => b.wf
  | .checkpointReadComplete a b => a.all (fits 0xD544) && b.all (fits 0xD544)
  | .storeReadTimeout => true
  | .rcTableRestore r t => decide (r < 4) && fits 0x200000 t
  | .checkpointTake => true
  | .checkpointVerified => true
  | .checkpointTimeout => true
  | .manualSwitchOver h a => h.wf && fits 1 a
  | .handoverReceive n c => fits 4 n && fits 4 c
  | .peerStateSend => true
  | .peerStateReceive st f => fits 1 st && fits 1 f
  | .flowReturned => true
  | .currentSenseBit c _ => decide (c < 8)
  | .serdesPllRelock => true
  | .stackManagementFatal n => decide (n < 12)
  | .vaonPowerGoodLost => true
  | .mpWatchdogKick => true
  | .linkSignalDetected l => decide (l < 49)
  | .d0Return => true

end Sys2Proof
end

