-- ==== Sys2Proof/Safety.lean ====
section
/-! DEFINITION. What counts as a safe run: every step answers a next state. -/

namespace Sys2Proof

/-- The machine answers a next state to the command at the front of its queue. -/
def Advances (s : Machine.State) : Prop := ∃ t, Machine.step s = .next t

/-- The machine answers a next state `n` times in a row. -/
def SafeFor : Nat → Machine.State → Prop
  | 0, _ => True
  | n + 1, s => ∃ t, Machine.step s = .next t ∧ SafeFor n t

/-! ## What a command leaves -/

/-- A command answers a next state of which `P` holds. -/
def Runs (c : Instr) (s : Machine.State) (P : Machine.State → Prop) : Prop := ∃ t, Machine.exec c s = .next t ∧ P t

/-- Everything volatile is gone: what remains is the queue, what was sent, the free values drawn, the operating state, the
NVR and the input stage. -/
def Dark (t : Machine.State) : Prop :=
  t = { pending := t.pending, out := t.out, free := t.free, mode := t.mode, nvr := t.nvr, power := t.power }

/-- A module in SHUTDOWN_LATCHED: as when everything volatile is gone, but for the log (R402) and the rails with their
latches (R478). -/
def Shut (t : Machine.State) : Prop :=
  t.mode = .shutdownLatched ∧ t.power.gate = false ∧
  t = { pending := t.pending, out := t.out, free := t.free, mode := t.mode, nvr := t.nvr, power := t.power,
        log := t.log, mpc := { rails := t.mpc.rails } }

/-- The parts of the state, one for each group of fields. -/
inductive Part where
  | mode | causes | frame | intake | profile | hold | dictionary | config | published | log | nvr | power | clk | host | net
  | gw | ce | te | cd | bm | ferry | cells | se | mpc | red | out | free
  deriving DecidableEq, Repr

/-- A part is the same in two states. -/
def Part.same (p : Part) (s t : Machine.State) : Prop :=
  match p with
  | .mode => t.mode = s.mode ∧ t.lastTransition = s.lastTransition ∧ t.lastTrigger = s.lastTrigger
  | .causes => t.causes = s.causes ∧ t.notRunning = s.notRunning
  | .frame => t.frame = s.frame
  | .intake => t.intake = s.intake
  | .profile => t.profile = s.profile
  | .hold => t.hold = s.hold
  | .dictionary => t.od = s.od ∧ t.eff = s.eff
  | .config => t.digest = s.digest ∧ t.digestDue = s.digestDue ∧ t.generation = s.generation ∧ t.mismatch = s.mismatch ∧
      t.description = s.description
  | .published => t.peerPubs = s.peerPubs ∧ t.aggregates = s.aggregates
  | .log => t.log = s.log
  | .nvr => t.nvr = s.nvr
  | .power => t.power = s.power
  | .clk => t.clk = s.clk
  | .host => t.host = s.host
  | .net => t.net = s.net
  | .gw => t.gw = s.gw
  | .ce => t.ce = s.ce
  | .te => t.te = s.te
  | .cd => t.cd = s.cd
  | .bm => t.bm = s.bm
  | .ferry => t.ferry = s.ferry
  | .cells => t.cells = s.cells
  | .se => t.se = s.se
  | .mpc => t.mpc = s.mpc
  | .red => t.red = s.red
  | .out => t.out = s.out
  | .free => t.free = s.free

/-- Only the named parts may differ; the queue never does. -/
def Touches (ps : List Part) (s t : Machine.State) : Prop :=
  t.pending = s.pending ∧ ∀ p, p ∉ ps → p.same s t

/-- The module keeps to its output gate: the Gangway driver is enabled only through an open gate (R62), and the gate is open
only in a state in which the module holds the lease (R49). -/
def Machine.State.GateInv (s : Machine.State) : Prop :=
  (s.gw.driving = true → s.power.gate = true) ∧ (s.power.gate = true → Machine.holdsLeaseMode s.mode = true)

/-! ## Command rows that arrive as one whole write (R18, R355, R364) -/

/-- The write that a command row makes. -/
def headAsk (h : ReqHead) (i k n v : Nat) : Machine.Ask :=
  { index := i, sub := k, write := true, len := n, value := v, signed := h.signed,
    source := Machine.sourceFor h.via h.signed.isSome i }

/-- The state in which the write is checked: the mailbox registers hold it and the request is counted (R355), or the frames
that carried it are counted (R374). -/
def Machine.State.arrival (s : Machine.State) (h : ReqHead) (i k n v : Nat) : Machine.State :=
  match h.via with
  | .host =>
    Machine.State.count { s with out := [], host := s.host.mailboxSet 2 (Machine.headReq h i k n v) } 0x1001 6
  | .dap _ _ _ =>
    Machine.State.count { s with out := [] } 0x1020 1 (Machine.dapFrames (Machine.headReq h i k n v).dataLen)

/-- The module takes requests from the sender: the host outside D3hot (R353), or a client of the field network that neither
repeats an answered request nor has a transfer of that identifier open (R365, R366). -/
def Machine.State.takesFrom (s : Machine.State) (h : ReqHead) : Bool :=
  match h.via with
  | .host => s.hostReaches
  | .dap p m t => s.answers && (s.keptFor p m t).isNone && (s.transferOf p m t).isNone

/-- No check on the opening frame refuses a stream that takes several frames of the field network (R364, R367). -/
def Machine.State.opens (s : Machine.State) (h : ReqHead) (i k n v : Nat) : Bool :=
  match h.via with
  | .host => true
  | .dap p m t =>
    let r := Machine.headReq h i k n v
    decide (Machine.State.openedStatus { s with out := [] } (Machine.reqTransfer r p m t) (Machine.dapFrames r.dataLen) =
      Machine.stOk)

/-- The write is well formed, reaches the module, and no check of R16 refuses it. -/
def Machine.State.admits (s : Machine.State) (h : ReqHead) (i k n v : Nat) : Prop :=
  h.wf = true ∧ (i < 65536 ∧ k < 256 ∧ n < 65536 ∧ v < 2 ^ (8 * n)) ∧
    (s.takesFrom h = true ∧ s.opens h i k n v = true) ∧
    (s.arrival h i k n v).writeStatus (headAsk h i k n v) = Machine.stOk

/-- `t` is `c` but for the bookkeeping of an answered request: the mailbox registers, the answer kept for a client, what was
sent, and the challenge drawn after a signed request (R355, R357, R366). -/
def Answered (c t : Machine.State) : Prop :=
  ∃ host net out free challenge,
    t = { c with host := host, net := net, out := out, free := free, power := { c.power with challenge := challenge } }

/-- The operands of a tensor command, read in order (R156): the state after the reads, their bytes, and whether every word
was readable. -/
def readAll (s : Machine.State) (p : ProgRef) (c : Nat) (r : Machine.Run) (cmd : Blob) (l : List (Nat × Nat)) :
    Machine.State × List Blob × Bool :=
  l.foldl (fun (a : Machine.State × List Blob × Bool) x =>
    let g := a.1.operand p c r cmd x.1 x.2
    (g.s, a.2.1 ++ [g.data], a.2.2 && g.ok)) (s, [], true)

/-- No word is struck while the command runs, and its group sums pass their residue check. -/
def quiet : ExecFx := { upsets := [], residueFail := false }

/-- Where the write of a command row is admitted, the row has the effect `f` on the state in which it was checked, and beside
it only the bookkeeping of an answered request. -/
def RowDoes (c : Instr) (h : ReqHead) (i k n v : Nat) (f : Machine.State → Machine.State) : Prop :=
  ∀ s : Machine.State, s.admits h i k n v → Runs c s (Answered (f (s.arrival h i k n v)))

/-- The effect of a command entry, after which its status reads OK (R13). -/
def done (i k : Nat) (f : Machine.State → Machine.State) (s : Machine.State) : Machine.State :=
  (f s).setLast i k Machine.stOk

end Sys2Proof
end

