-- ==== Sys2Proof/Certificates/Slice0/Obligations.lean ====
section
/-! DEFINITION. The statements about the block, in the spec's order: the queue, whole-machine rules, then one family of
commands after another. -/

open Sys2Proof Sys2Proof.Machine


/-! ## The queue and whole-machine rules -/

/-- A step takes the command at the front of the queue and runs it on the state with the queue's rest. On an empty queue
the block idles (the model's choice, log entry 4). -/
def Obligations.StepAndIdle : Prop :=
  (∀ (c : Instr) (rest : List Instr) (s : State),
    step { s with pending := c :: rest } = exec c { s with pending := rest }) ∧
  (∀ s : State, s.pending = [] → step s = .next s)

/-- Every command, in every state, answers a next state, and none touches the queue of waiting commands. -/
def Obligations.EveryCommandAnswers : Prop := ∀ (c : Instr) (s : State), Runs c s (fun t => t.pending = s.pending)

/-- Every step keeps the gate invariant: the Gangway driver is enabled only through an open gate, and the gate is open
only in a state in which the module holds the lease (part of R49 and R62). -/
def Obligations.GateInvariant : Prop := ∀ s t : State, s.GateInv → step s = .next t → t.GateInv

/-- A gate that is closed opens at no command but a claim of the lease, made by a module that runs its services and is
allowed to claim (part of R508 and R526). -/
def Obligations.OnlyAClaimOpensTheGate : Prop :=
  ∀ (c : Instr) (s t : State), exec c s = .next t → t.power.gate = true →
    s.power.gate = true ∨ (c = .leaseClaim ∧ s.services = true ∧ s.claimAllowed = true)

/-- The state after reset meets the gate invariant. In it the module is OFF, no command waits, the gate is closed, the
Gangway driver is off, no lease is held, the CD does not run, everything volatile is at its start, no rail is up, no
link is up and no stream is loaded (part of R29, R30 and R41). -/
def Obligations.AfterReset : Prop :=
  State.reset.GateInv ∧
  State.reset.mode = .off ∧ State.reset.pending = [] ∧ State.reset.power.gate = false ∧ State.reset.gw.driving = false ∧
  State.reset.red.held = false ∧ State.reset.cd.running = false ∧ Dark State.reset ∧
  (∀ j, (State.reset.rail j).st = 0) ∧ (∀ l, State.reset.linkIsUp l = false) ∧
  (∀ n, (State.reset.stream n).loaded = false)

/-- No command gives the Gangway frame number another value than the one before it, 0, or, at a GANGWAY_FRAME_BOUNDARY
alone, the one before it plus one; and at a GANGWAY_FRAME_BOUNDARY of a module with power it is the one before it plus
one (part of R71). -/
def Obligations.FrameNumberAdvances : Prop :=
  (∀ (c : Instr) (s t : State), exec c s = .next t →
    t.frame = s.frame ∨ t.frame = 0 ∨ (∃ b, c = .gangwayFrameBoundary b ∧ t.frame = s.frame + 1)) ∧
  (∀ (b : Bool) (s : State), s.up = true →
    Runs (.gangwayFrameBoundary b) s (fun t => t.frame = s.frame + 1))

/-- R406: at most 32 entries are written in a budget period. Below the limit an event adds its entry and counts towards
the 32; at the limit it is suppressed and counted in OD 0xC100.04; a STATE_CHANGE entry is always added and counts; a
limited source's own limit comes first; a period boundary starts the count anew, whatever it was. -/
def Obligations.LogLimit : Prop :=
  (∀ (event params : Nat) (s : State),
    (s.log.inPeriod < 32 → (s.logEvent event params).log = { s.log with
      ring := (⟨s.log.next, s.frame, event, modeCode s.mode, params⟩ :: s.log.ring).take 2048
      next := s.log.next + 1, inPeriod := s.log.inPeriod + 1 }) ∧
    (32 ≤ s.log.inPeriod → (s.logEvent event params).log = s.log ∧
      (s.logEvent event params).odv 0xC100 4 = min (s.odv 0xC100 4 + 1) u32Max)) ∧
  (∀ (old new : Mode) (trigger causes : Nat) (s : State), ∃ params,
    (s.logState old new trigger causes).log = { s.log with
      ring := (⟨s.log.next, s.frame, 0xC002, modeCode s.mode, params⟩ :: s.log.ring).take 2048
      next := s.log.next + 1, inPeriod := s.log.inPeriod + 1 }) ∧
  (∀ (n source event params : Nat) (s : State), s.log.second = s.second →
    (n ≤ tabGet 0 s.log.perSecond (event * 4096 + source) → s.logLimited n source event params = s) ∧
    (tabGet 0 s.log.perSecond (event * 4096 + source) < n →
      s.logLimited n source event params = State.logEvent { s with
        log := { s.log with perSecond := tabMod 0 s.log.perSecond (event * 4096 + source) (· + 1) } } event params)) ∧
  (∀ (n : Nat) (s : State), s.up = true →
    exec .budgetPeriodBoundary { s with log := { s.log with inPeriod := n } } = exec .budgetPeriodBoundary s)

/-! ## Boot, input power and the NVR -/

/-- The input enters its range (part of R41, R44 and R81). A module in OFF closes its hot-swap switch, takes its input
as in range and is in BOOT; its frame number, its gate and its Gangway driver are as before. Where a rail of the SIOD is
shorted, the module is in SHUTDOWN_LATCHED with its gate closed and everything volatile but the log and the rails' report
lost: that frame of SHUTDOWN_LATCHED is the model's choice (log entry 90, DEDUCED). In every other state nothing happens. -/
def Obligations.InputEntersRange : Prop :=
  (∀ (b : BootInputs) (s : State), s.mode = .off → b.highSideShort = none →
    Runs (.inputEntersRange b) s (fun t =>
      t.mode = .boot ∧ t.power.hotSwap = true ∧ t.power.inRange = true ∧ t.frame = s.frame ∧ t.power.gate = s.power.gate ∧ t.gw.driving = s.gw.driving)) ∧
  (∀ (b : BootInputs) (j : Nat) (s : State), s.mode = .off → b.highSideShort = some j → j < 5 →
    Runs (.inputEntersRange b) s Shut) ∧
  (∀ (b : BootInputs) (s : State), s.mode ≠ .off → exec (.inputEntersRange b) s = .next { s with out := [] })

/-- The boot (part of R52, R80, R81 and R51). The lease-line watch that ends without a driver is noted as done, and one
that has seen a driver stops the boot with result 0x03. BOOT_COMPLETE takes a module whose services are up and whose
watch is done to STANDBY_COLD, with its gate closed, its time since the ROM and the watchdog's count started. Outside
OFF and SHUTDOWN_LATCHED a kick restarts the management-processor watchdog. The third expiry of the boot watchdog stops
the boot with result 0x04; an earlier one is counted and leaves the module in BOOT with its Gangway driver off. A strap
that changes is taken, and outside BOOT logged with its old and new value. -/
def Obligations.BootProgress : Prop :=
  (∀ s : State, s.mode = .boot → s.power.bootStopped = false → s.power.watchDone = false → s.power.leaving = false →
    exec (.leaseLineWatchEnd false) s = .next { s with out := [], power := { s.power with watchDone := true } } ∧
    exec (.leaseLineWatchEnd true) s = .next { s with
      out := [], power := { s.power with bootResult := 3, bootStopped := true, servicesUp := false } }) ∧
  (∀ s : State, s.mode = .boot → s.power.servicesUp = true → s.power.watchDone = true → s.power.bootStopped = false →
    s.power.leaving = false →
    Runs .bootComplete s (fun t =>
      t.mode = .standbyCold ∧ t.lastTrigger = 1 ∧ t.lastTransition = s.frame ∧ t.causes = 0 ∧ t.power.gate = false ∧
      t.gw.driving = false ∧ t.power.bootTime = 4 * (s.frame - s.power.romFrame) ∧ t.power.kickAt = s.intake ∧
      t.red.held = false ∧ t.frame = s.frame)) ∧
  (∀ s : State, s.up = true →
    exec .mpWatchdogKick s = .next { s with out := [], power := { s.power with kickAt := s.intake } }) ∧
  (∀ (b : BootInputs) (s : State), s.mode = .boot → s.power.bootStopped = false → s.power.leaving = false →
    2 ≤ s.power.bootExpiries →
    exec (.bootWatchdogExpiry b) s = .next { s with
      out := []
      power := { s.power with bootExpiries := s.power.bootExpiries + 1, bootResult := 4, bootStopped := true,
                              servicesUp := false } }) ∧
  (∀ (b : BootInputs) (s : State), s.mode = .boot → s.power.bootStopped = false → s.power.leaving = false →
    s.power.bootExpiries < 2 →
    Runs (.bootWatchdogExpiry b) s (fun t =>
      t.mode = .boot ∧ t.power.bootExpiries = s.power.bootExpiries + 1 ∧ t.power.gate = s.power.gate ∧
      t.gw.driving = false ∧ t.frame = s.frame)) ∧
  (∀ (v : Nat) (s : State), s.up = true → s.mode ≠ .boot → s.power.straps ≠ v % 16 →
    exec (.strapChange v) s = .next (State.logEvent { s with out := [], power := { s.power with straps := v % 16 } }
      0xB001 (packBytes [(1, s.power.straps), (1, v % 16)]))) ∧
  (∀ (v : Nat) (s : State), s.mode = .boot → s.power.straps ≠ v % 16 →
    exec (.strapChange v) s = .next { s with out := [], power := { s.power with straps := v % 16 } })

/-- An expiry of the management-processor watchdog outside BOOT, 100 ms after its last kick, and the loss of the root or
of the I/O PLL take the module to SHUTDOWN_LATCHED with its gate closed and everything volatile but the log and the rails'
report lost, a frame that is the model's choice (log entry 90, DEDUCED); its NVR is what the fault record of cause 0x01, 0x02
or 0x03 leaves. With the input in range and no record of faults waiting or
being written, a fault record of a cause is being written under the next sequence number (part of R73, R79 and R482). -/
def Obligations.ShutdownFaults : Prop :=
  (∀ s : State, s.up = true → s.mode ≠ .boot → s.power.kickAt + 100000 ≤ s.intake →
    Runs .mpWatchdogExpiry s (fun t => Shut t ∧
      t.nvr = (State.faultRecord { s with out := [] } 1 7 {}).nvr)) ∧
  (∀ (root : Bool) (s : State), s.up = true →
    Runs (.rootOrIoPllLost root) s (fun t => Shut t ∧
      t.nvr = (State.faultRecord { s with out := [] } (if root then 2 else 3) 7 {}).nvr)) ∧
  (∀ (cause after : Nat) (p : FaultAt) (s : State), s.power.inRange = true → s.power.leaving = false →
    s.nvr.busy .fault = false → s.nvr.writing = none →
    (s.faultRecord cause after p).nvr.writing =
      some ⟨.fault, s.nvr.nextSeq .fault, s.faultBytes cause after (s.nvr.nextSeq .fault) p⟩)

/-- The input supervisor and the ways out of the range (part of R42, R44, R45 and R469). From 48 V to 61 V a tick notes
the voltage and clears the low-input flag and its count; from 44 V to 48 V it sets the flag and counts the tick; outside
44 V to 61 V, after more than 2,000 low ticks, with MATE_N high for 10 µs and on the loss of VAON the module is in OFF
with everything volatile lost, at once where no NVR write is in progress. With one in progress the gate is closed, the
CD stopped and no write waits, and the module is in OFF, with that record stored, when the write completes. -/
def Obligations.InputRange : Prop :=
  (∀ (mv : Nat) (s : State), s.mode ≠ .off → s.power.leaving = false → s.power.mateHigh = false →
    48000 ≤ mv → mv ≤ 61000 →
    exec (.inputSupervisorTick mv) s = .next { s with
      out := [], power := { s.power with vin := mv, inputLow := false, lowTicks := 0 } }) ∧
  (∀ (mv : Nat) (s : State), s.mode ≠ .off → s.power.leaving = false → s.power.mateHigh = false →
    44000 ≤ mv → mv < 48000 → s.power.lowTicks < 2000 →
    exec (.inputSupervisorTick mv) s = .next { s with
      out := [], power := { s.power with vin := mv, inputLow := true, lowTicks := s.power.lowTicks + 1 } }) ∧
  (∀ (mv : Nat) (s : State), s.mode ≠ .off → s.power.leaving = false → s.nvr.writing = none → (mv < 44000 ∨ 61000 < mv) →
    Runs (.inputSupervisorTick mv) s (fun t => t.mode = .off ∧ t.power = {} ∧ Dark t)) ∧
  (∀ s : State, s.mode ≠ .off → s.power.leaving = false → s.nvr.writing = none →
    (s.power.inputLow = true → 2000 ≤ s.power.lowTicks →
      Runs .rideThroughTimeout s (fun t => t.mode = .off ∧ t.power = {} ∧ Dark t)) ∧
    (∀ ns, 10000 ≤ ns → Runs (.mateNHigh ns) s (fun t => t.mode = .off ∧ t.power = {} ∧ Dark t)) ∧
    Runs .vaonPowerGoodLost s (fun t => t.mode = .off ∧ t.power = {} ∧ Dark t)) ∧
  (∀ (w : NvrWrite) (s : State), s.mode ≠ .off → s.power.leaving = false → s.nvr.writing = some w →
    Runs .vaonPowerGoodLost s (fun t => t.mode = s.mode ∧ t.power.leaving = true ∧ t.power.gate = false ∧
      t.gw.driving = false ∧ t.cd.running = false ∧ t.nvr.writing = some w ∧ t.nvr.waiting = [])) ∧
  (∀ (w : NvrWrite) (s : State), s.power.leaving = true → s.nvr.writing = some w →
    Runs .nvrWriteComplete s (fun t => t.mode = .off ∧ t.power = {} ∧ Dark t ∧
      t.nvr = ({ s.nvr with writing := none } : Nvr).store w))

/-- Records in the NVR (part of R89, R92 and R461). A floor record whose write completes is in its slot and the next
waiting write starts. An admitted floor record is written as the whole table with one slot replaced, under the next
sequence number; an admitted enrolment or removal of a key as the whole table with that key's slot replaced or emptied,
under the record's own sequence number. -/
def Obligations.NvrRecords : Prop :=
  (∀ (w : NvrWrite) (s : State), s.up = true → s.power.leaving = false → s.nvr.writing = some w → w.kind = .floors →
    exec .nvrWriteComplete s = .next { s with
      out := []
      nvr := { ({ s.nvr with writing := none } : Nvr).store w with writing := s.nvr.waiting.head?, waiting := s.nvr.waiting.tail } }) ∧
  (∀ (h : ReqHead) (r : Nat), RowDoes (.floorCommand h r) h 0xB013 4 136 r (done 0xB013 4 (fun s =>
    s.nvrWrite { kind := .floors, seq := s.nvr.nextSeq .floors,
                 data := setBytes (((s.nvr.newest .floors).map (·.data)).getD 0) (4 * (bytesAt r 4 1 - 1)) 4 (bytesAt r 8 4) }))) ∧
  (∀ (h : ReqHead) (r : Nat), bytesAt r 4 1 = 1 → RowDoes (.keyEnrol h r) h 0xB011 0 144 r (done 0xB011 0 (fun s =>
    s.nvrWrite { kind := .keys, seq := bytesAt r 8 4,
                 data := setBytes (((s.nvr.newest .keys).map (·.data)).getD 0) (144 * (bytesAt r 5 1 - 1)) 144 r }))) ∧
  (∀ (h : ReqHead) (r : Nat), bytesAt r 4 1 ≠ 1 → RowDoes (.keyRemove h r) h 0xB011 0 144 r (done 0xB011 0 (fun s =>
    s.nvrWrite { kind := .keys, seq := bytesAt r 8 4,
                 data := setBytes (((s.nvr.newest .keys).map (·.data)).getD 0) (144 * (bytesAt r 5 1 - 1)) 144 0 })))

/-- An image transfer (part of R88). An admitted header opens the transfer and an admitted segment extends it. An admitted
activation marks the bank where its body has the digest of its header, with the module restart due where bit 7 asks for
it, and ends with status SIGNATURE where it has not. What open, extend and mark do to the banks and to the transfer is
said in full. 60 s without a segment abandon a transfer that is open; without an open one nothing happens. -/
def Obligations.ImageTransfer : Prop :=
  (∀ (h : ReqHead) (header : Nat),
    RowDoes (.imageOpen h header) h 0xB070 0 256 header (done 0xB070 0 (fun s => s.imageOpen header))) ∧
  (∀ (h : ReqHead) (offset reserved body : Nat),
    RowDoes (.imageSegment h offset reserved body) h 0xB071 0 32776 (packBytes [(4, offset), (4, reserved), (32768, body)])
      (done 0xB071 0 (fun s => s.imageSegment (packBytes [(4, offset), (4, reserved), (32768, body)])))) ∧
  (∀ (h : ReqHead) (arg : Nat) (b : BootInputs) (s : State), s.admits h 0xB072 0 1 arg → bitAt arg 7 = false →
    (s.arrival h 0xB072 0 1 arg).imageGood = true →
    Runs (.imageActivate h arg b) s
      (Answered (done 0xB072 0 (fun s => s.imageMark) (s.arrival h 0xB072 0 1 arg)))) ∧
  (∀ (h : ReqHead) (arg : Nat) (b : BootInputs) (s : State), s.admits h 0xB072 0 1 arg → bitAt arg 7 = true →
    (s.arrival h 0xB072 0 1 arg).imageGood = true →
    ∀ c : State, c = done 0xB072 0 (fun s => s.imageMark) (s.arrival h 0xB072 0 1 arg) →
      Runs (.imageActivate h arg b) s (Answered { c with power := { c.power with restart := some b.straps } })) ∧
  (∀ (h : ReqHead) (arg : Nat) (b : BootInputs) (s : State), s.admits h 0xB072 0 1 arg →
    (s.arrival h 0xB072 0 1 arg).imageGood = false →
    Runs (.imageActivate h arg b) s (Answered
      (((s.arrival h 0xB072 0 1 arg).refuse 0xB072 0 stSignature (headAsk h 0xB072 0 1 arg).source).setLast 0xB072 0
        stSignature))) ∧
  (∀ (header : Nat) (s : State), ∀ stage, stage = bytesAt header 6 1 →
    s.imageOpen header = { s with
      nvr := { s.nvr with
        images := tabPut {} s.nvr.images (4 * (1 - s.nvr.active stage) + stage) { header := header, body := 0, unmarked := true }
        trial := setBit s.nvr.trial (stage - 1) false }
      power := { s.power with imageStage := stage, imageBytes := 0 } }) ∧
  (∀ (v : Nat) (s : State), s.imageSegment v = { s with
    nvr := { s.nvr with
      images := tabMod {} s.nvr.images (4 * (1 - s.nvr.active s.power.imageStage) + s.power.imageStage)
        (fun m => { m with body := m.body + bytesAt v 8 32768 <<< (8 * s.power.imageBytes) }) }
    power := { s.power with imageBytes := min (s.power.imageBytes + 32768) (bodyLen s.openImage.header) } }) ∧
  (∀ s : State, s.imageMark = { s with
    nvr := { s.nvr with
      images := tabMod {} s.nvr.images (4 * (1 - s.nvr.active s.power.imageStage) + s.power.imageStage)
        (fun m => { m with unmarked := false })
      trial := setBit s.nvr.trial (s.power.imageStage - 1) true }
    power := { s.power with
      imageStage := 0, imageBytes := 0, restart := none
      trial3 := s.power.trial3 && decide (s.power.imageStage ≠ 3) } }) ∧
  (∀ s : State, s.services = true →
    (s.power.imageStage ≠ 0 → exec .imageTransferTimeout s = .next { s with
      out := [], power := { s.power with imageStage := 0, imageBytes := 0, restart := none } }) ∧
    (s.power.imageStage = 0 → exec .imageTransferTimeout s = .next { s with out := [] }))

/-- Bundles and worlds (part of R95, R100 and R102). An admitted bundle waits and is written to the NVR. A stored one
that is applied sets the generation it names and ends the wait, and no digest is due. At the boundary the worlds of the
HBM and SRAM regions become those of the dictionary; where no HBM region changes its world the HBM keeps its contents,
and where no SRAM region does the error masks of the SRAM stay. -/
def Obligations.BundlesAndRegions : Prop :=
  (∀ (h : ReqHead) (b : Nat), RowDoes (.configurationBundle h b) h 0xB080 0 65535 b (done 0xB080 0 (fun s =>
    State.nvrWrite { s with power := { s.power with bundleWaiting := some b, bundleStored := false } }
      { kind := .bundle, seq := s.nvr.nextSeq .bundle, data := b }))) ∧
  (∀ (b : Nat) (s : State), s.services = true → s.power.bundleWaiting = some b → s.power.bundleStored = true →
    Runs .bundleApply s (fun t => t.generation = bytesAt b 8 4 ∧ t.digestDue = false ∧ t.power.bundleWaiting = none ∧
      t.power.bundleStored = false ∧ t.mode = s.mode ∧ t.power.gate = s.power.gate)) ∧
  (∀ s : State, s.services = true →
    Runs .regionWorldChange s (fun t =>
      t.effv 0xB030 0 = s.odv 0xB030 0 ∧ t.effv 0xB031 0 = s.odv 0xB031 0 ∧ t.od = s.od ∧
      ((∀ r, r < 144 → bitAt (s.effv 0xB030 0) r = bitAt (s.odv 0xB030 0) r) → t.cd.hbm = s.cd.hbm) ∧
      ((∀ r, r < 784 → bitAt (s.effv 0xB031 0) r = bitAt (s.odv 0xB031 0) r) → t.cd.sram = s.cd.sram) ∧
      t.power = { s.power with siodWritten := t.power.siodWritten } ∧
      Touches [.dictionary, .cd, .ce, .te, .power, .out] s t))

/-! ## Clocks and the start of the CD -/

/-- The clocks (part of R55, R72, R73, R76 and R78). A PLL of the running CD that unlocks stops the CD and its clocks
under the PLL latch; the SerDes PLL that unlocks takes every link down, and its relock restores the clock alone. The
root's compensation moves by at most 10 steps, and onto the correction wanted where that lies within 10. SYNC_IN lost or
returned changes its state, is logged and raises the MPC interrupt; a repeated report changes nothing. An operating
point asked for becomes the target, with its supply set at once where it lies higher; a slew step moves the divider by
one towards the target, and the step that reaches it sets the point and its supply. An admitted fixed operating point is
stored, with its marks of the configuration, and bounds the levels of the power controllers. -/
def Obligations.Clocks : Prop :=
  (∀ (hbm : Bool) (s : State), s.up = true → s.cd.running = true →
    Runs (.cdPllUnlock hbm) s (fun t => t.cd.running = false ∧ t.cd.pllLatch = true ∧ t.cd.due = false ∧
      t.clk.compute = false ∧ t.clk.hbm = false ∧ t.mode = s.mode ∧ t.power.gate = s.power.gate)) ∧
  (∀ s : State, s.services = true →
    Runs .serdesPllUnlock s (fun t => t.clk = { s.clk with serdes := false } ∧ (∀ l, t.linkIsUp l = false) ∧
      Touches [.clk, .ferry, .dictionary, .log, .host, .out] s t)) ∧
  (∀ s : State, s.services = true →
    exec .serdesPllRelock s = .next { s with out := [], clk := { s.clk with serdes := true } }) ∧
  (∀ s : State, s.up = true → ∃ c : Int,
    exec .rootCompensationUpdate s = .next { s with out := [], clk := { s.clk with rootComp := c } } ∧
    s.clk.rootComp - 10 ≤ c ∧ c ≤ s.clk.rootComp + 10 ∧
    (∀ w, w = Config.rootCorrection (s.sensor 92).used → s.clk.rootComp - 10 ≤ w → w ≤ s.clk.rootComp + 10 → c = w)) ∧
  (∀ (cause : Nat) (s : State), s.up = true →
    exec (.syncInLost cause) s = .next (if s.clk.syncIn then
      (State.logEvent { s with out := [], clk := { s.clk with syncIn := false } } 0x7001 (packBytes [(1, cause)])).raise irqMpc
      else { s with out := [] })) ∧
  (∀ s : State, s.up = true →
    exec .syncInReturned s = .next (if s.clk.syncIn then { s with out := [] }
      else (State.logEvent { s with out := [], clk := { s.clk with syncIn := true } } 0x7002 0).raise irqMpc)) ∧
  (∀ (p : Nat) (s : State), s.up = true → s.cd.running = true → s.mayRun p = true → s.clk.target = none → p ≠ s.clk.point →
    exec (.operatingPointChange p) s = .next { s with
      out := []
      clk := { s.clk with target := some p, vddC := if s.clk.divider < pointSteps p then pointMv p else s.clk.vddC } }) ∧
  (∀ (t : Nat) (s : State), s.up = true → s.clk.target = some t →
    (s.clk.divider + 1 < pointSteps t →
      exec .computeSlewStep s = .next { s with out := [], clk := { s.clk with divider := s.clk.divider + 1 } }) ∧
    (pointSteps t + 1 < s.clk.divider →
      exec .computeSlewStep s = .next { s with out := [], clk := { s.clk with divider := s.clk.divider - 1 } }) ∧
    (s.clk.nextTarget = none → (s.clk.divider + 1 = pointSteps t ∨ s.clk.divider = pointSteps t + 1) →
      exec .computeSlewStep s = .next { s with
        out := []
        clk := { s.clk with divider := pointSteps t, point := t, vddC := pointMv t, target := none, nextTarget := none } })) ∧
  (∀ (h : ReqHead) (p : Nat) (s : State), s.admits h 0xB062 0 1 p →
    Runs (.fixedOpWrite h p) s (fun t => t.odv 0xB062 0 = p ∧ t.generation = u32Max ∧ t.digestDue = true ∧
      t.mpc.lCap = min s.mpc.lCap t.lambdaMax ∧ t.mpc.lI = min s.mpc.lI t.lambdaMax ∧ t.mpc.lT = min s.mpc.lT t.lambdaMax ∧
      (∀ i k, okey i k ≠ okey 0xB062 0 → okey i k ≠ okey 0x1001 6 → okey i k ≠ okey 0x1020 1 → t.odv i k = s.odv i k)))

/-- The CD's start and stop (part of R82, R83, R147, R499 and R500). A start that may happen, with no shorted rail, runs
the CD with its clocks at point 6 where Stage 3 verifies; where it fails the CD stays as it was, its clocks stop, and
Stage 3 is marked as failed. An admitted stop command stops the CD under the host stop with cause 0x06; an admitted
clear command releases the host stop and makes the CD due where nothing else holds it down. A stop of any cause leaves
the CD not running and not due. Flow that is lost stops the CD at once and is noted; its return is noted with its time.
-/
def Obligations.CdStartAndStop : Prop :=
  (∀ (inp : CdStartInputs) (s : State), s.up = true → s.cdMayStart = true → inp.highSideShort = none →
    (s.runStage 3).1 = true →
    Runs (.cdStart inp) s (fun t => t.cd.running = true ∧ t.cd.due = false ∧ t.clk.compute = true ∧ t.clk.hbm = true ∧
      t.clk.point = 6 ∧ t.mode = s.mode ∧ t.power.gate = s.power.gate)) ∧
  (∀ (inp : CdStartInputs) (s : State), s.up = true → s.cdMayStart = true → inp.highSideShort = none →
    (s.runStage 3).1 = false →
    Runs (.cdStart inp) s (fun t => t.cd.running = s.cd.running ∧ t.cd.due = false ∧ t.cd.stage3Failed = true ∧
      t.clk.compute = false ∧ t.clk.hbm = false ∧ t.notRunning = decide (s.odv 0x3000 0 ≠ 3))) ∧
  (∀ h : ReqHead,
    RowDoes (.cdStop h) h 0x3104 0 1 1
      (done 0x3104 0 (fun s => State.cdStop { s with cd := { s.cd with hostStop := true } } 6)) ∧
    RowDoes (.clearHostStop h) h 0x3104 0 1 2
      (done 0x3104 0 (fun s => State.cdDue { s with cd := { s.cd with hostStop := false } })) ∧
    (∀ (cause : Nat) (s : State), (s.cdStop cause).cd.running = false ∧ (s.cdStop cause).cd.due = false ∧
      (s.cdStop cause).mode = s.mode ∧ (s.cdStop cause).power = s.power)) ∧
  (∀ s : State, s.up = true → s.power.flowLost = false →
    Runs .flowLost s (fun t => t.cd.running = false ∧ t.cd.due = s.cd.due ∧ t.cd.retry = false ∧ t.mode = s.mode ∧
      t.power = { s.power with flowOk := false, flowLost := true })) ∧
  (∀ s : State, s.up = true → s.power.flowOk = false →
    Runs .flowReturned s (fun t => t.power = { s.power with flowOk := true, flowLost := false, flowSince := s.intake } ∧
      t.mode = s.mode ∧ t.cd.running = s.cd.running))

/-! ## The Gangway and SAFE_HOLD -/

/-- The Gangway's frames (part of R376, R379, R382 and R385). After a frame boundary a module in ACTIVE or DEGRADED has
its driver on exactly while its gate is open; one in STANDBY_COLD, without a restart that is due, stays there, drives
nothing and asks no group. A good reply that is due is stored with its status and its power: a node that is not in service
enters it where the reply says so, without a fault, and the node is enabled and does not differ; a node in service leaves
it where the reply says so or names a fault. A reply that is missing is counted, and the third in a row takes a node out
of service. A reply that is not due changes nothing. -/
def Obligations.GangwayFrames : Prop :=
  (∀ (b : Bool) (s : State), s.up = true →
    Runs (.gangwayFrameBoundary b) s (fun t =>
      (t.mode = .active ∨ t.mode = .degraded) → t.gw.driving = t.power.gate)) ∧
  (∀ (b : Bool) (s : State), s.mode = .standbyCold → s.power.restart = none →
    Runs (.gangwayFrameBoundary b) s (fun t => t.mode = .standbyCold ∧ t.gw.driving = false ∧ t.gw.group = 0)) ∧
  (∀ (a bits word0 status : Nat) (s : State), s.services = true → s.replyDue a = true →
    parseReply a bits = some (word0, status) →
    ∀ u : State, u = State.setNode { s with out := [] } a (fun n => { n with
      missRun := 0, fresh := true, lastStatus := status, words := putWord n.words 0 word0, power := s.powerSignal a word0 }) →
    let good := bitAt status 0 && !bitAt status 1
    (((s.node a).inService = true → good = true) →
      ((s.node a).inService = false → good = false ∨ (s.node a).enabled = false ∨ (s.node a).differs = true) →
      exec (.replySlotReceive a (some bits)) s = .next u) ∧
    ((s.node a).inService = true → good = false → Runs (.replySlotReceive a (some bits)) s (fun t =>
      t.node a = { u.node a with inService := false, left := true } ∧ (∀ b, b ≠ a → t.node b = s.node b) ∧
      Touches [.gw, .dictionary, .log, .host, .out] s t)) ∧
    ((s.node a).inService = false → good = true → (s.node a).enabled = true → (s.node a).differs = false →
      Runs (.replySlotReceive a (some bits)) s (fun t =>
        t.node a = { u.node a with inService := true, left := false, word0 := true } ∧ (∀ b, b ≠ a → t.node b = s.node b) ∧
        Touches [.gw, .dictionary, .log, .host, .out] s t))) ∧
  (∀ (a : Nat) (b : Option Nat) (s : State), s.services = true → s.replyDue a = true → b.bind (parseReply a) = none →
    Runs (.replySlotReceive a b) s (fun t => (t.node a).missRun = (s.node a).missRun + 1 ∧
      t.odv (0x1340 + a) 6 = min (s.odv (0x1340 + a) 6 + 1) u32Max ∧
      (t.node a).inService = ((s.node a).inService && decide ((s.node a).missRun ≠ 2)) ∧
      (∀ b, b ≠ a → t.node b = s.node b) ∧ Touches [.gw, .dictionary, .log, .host, .out] s t)) ∧
  (∀ (a : Nat) (b : Option Nat) (s : State), s.services = true → s.replyDue a = false →
    exec (.replySlotReceive a b) s = .next { s with out := [] })

/-- Node management (part of R380, R381 and R389). A good answer to a READ of an index other than 2 stores the words
read and moves to the next index. A good answer to an ENABLE ends the operation and sets the node's enable, which log
entry 50 (DEDUCED) reads from R380. Each admitted node command queues its management operation behind those of its node. -/
def Obligations.NodeManagement : Prop :=
  (∀ (a bits : Nat) (vs : List Nat) (s : State), s.services = true → s.gw.mgmtNode = some a → s.gw.mgmtOp.op = 0 →
    s.gw.mgmtIndex ≠ 2 → parseMgmt bits = some (a, 0, s.gw.mgmtIndex, vs) →
    exec (.managementReplyReceive a (some bits)) s = .next (State.setNode { s with out := [] } a (fun n =>
      { n with words := readWords n.words s.gw.mgmtIndex vs, failRun := tabPut 0 n.failRun s.gw.mgmtIndex 0,
               nextIndex := (s.gw.mgmtIndex + 1) % 4 }))) ∧
  (∀ (a bits index data : Nat) (vs : List Nat) (s : State), s.services = true → s.gw.mgmtNode = some a →
    s.gw.mgmtOp = ⟨4, data⟩ → parseMgmt bits = some (a, 0, index, vs) →
    Runs (.managementReplyReceive a (some bits)) s (fun t => (t.node a).enabled = decide (data = 1) ∧
      (t.node a).ops = (s.node a).ops.tail ∧ (∀ b, b ≠ a → t.node b = s.node b) ∧ Touches [.gw, .out] s t)) ∧
  (∀ (h : ReqHead) (node : Nat), node < 32 →
    RowDoes (.nodeDisable h node) h 0x1320 0 2 (nodeArg node 0) (done 0x1320 0 (fun s => s.queueOp node 4 0)) ∧
    RowDoes (.nodeEnable h node) h 0x1320 0 2 (nodeArg node 1) (done 0x1320 0 (fun s => s.queueOp node 4 1)) ∧
    RowDoes (.nodeClearFault h node) h 0x1320 0 2 (nodeArg node 2) (done 0x1320 0 (fun s => s.queueOp node 5 0)) ∧
    (∀ (op data : Nat) (s : State), ((s.queueOp node op data).node node).ops = (s.node node).ops ++ [⟨op, data⟩]))

/-- SAFE_HOLD (part of R29, R401 and R506). An admitted hold command makes the hold due, an admitted release command its
end. At the next frame boundary a due hold takes an ACTIVE module to SAFE_HOLD, and a due release takes the module from
SAFE_HOLD, within its limit, to ACTIVE or DEGRADED. 150 ms (37,500 frames) after the entry the gate closes, the driver
stops and renewals are disarmed. -/
def Obligations.SafeHold : Prop :=
  (∀ h : ReqHead,
    RowDoes (.hold h) h 0xC002 0 1 1 (done 0xC002 0 (fun s => { s with hold := { s.hold with hostDue := true } })) ∧
    RowDoes (.release h) h 0xC002 0 1 2 (done 0xC002 0 (fun s => { s with hold := { s.hold with release := true } })) ∧
    (∀ s : State, s.mode = .safeHold → s.hold.limit = false → s.hold.conflict = false → s.hold.release = true → s.power.leaving = false →
      s.red.lost = false →
      ∀ b : Bool, Runs (.gangwayFrameBoundary b) s (fun t => t.mode = .active ∨ t.mode = .degraded)) ∧
    (∀ s : State, s.mode = .active → s.red.closeDue = false → s.hold.hostDue = true → s.power.leaving = false →
      s.red.lost = false →
      ∀ b : Bool, Runs (.gangwayFrameBoundary b) s (fun t => t.mode = .safeHold))) ∧
  (∀ s : State, s.mode = .safeHold → s.hold.limit = false → s.lastTransition + 37500 ≤ s.frame →
    exec .holdLimitExpiry s = .next { s with
      out := []
      power := { s.power with gate := false }
      gw := { s.gw with driving := false, hold := false }
      hold := { s.hold with limit := true }
      red := { s.red with armed := false } })

/-! ## Intake banks and the tensor engine's programs -/

/-- The intake boundary advances the module's time by one frame and leaves the frame number, the state and the gate as
they are; a bank seal seals the frame that closed last and changes nothing else of the tensor engine (part of R222 and
R224). -/
def Obligations.IntakeBanks : Prop :=
  (∀ s : State, s.up = true → Runs .intakeFrameBoundary s (fun t => t.intake = s.intake + 1 ∧ t.frame = s.frame ∧
    t.mode = s.mode ∧ t.power.gate = s.power.gate)) ∧
  (∀ s : State, s.up = true → s.cd.running = true → s.intake ≠ 0 →
    Runs .bankSeal s (fun t => t.te = { s.te with sealedTo := max s.te.sealedTo s.intake } ∧ Touches [.te, .dictionary, .out] s t))

/-- R227: a run of frame j that still executes when frame j + 7 has closed ends: it emits nothing, its completed
commands keep their effect, each such run is counted in OD 0x3030.09, and no other stream, and nothing of the stream but
the run itself, is affected. -/
def Obligations.BankReuse : Prop :=
  ∀ (c : Nat) (s : State) (ended : List Nat), s.up = true →
    ended = (s.streamsOn c).filter (fun n => (s.stream n).run.any (fun r => decide (r.frame + 7 < s.intake))) →
    Runs (.runEndedAtBankReuse c) s (fun t =>
      (∀ n, n ∈ ended → t.stream n = { s.stream n with run := none }) ∧
      (∀ n, n ∉ ended → t.stream n = s.stream n) ∧
      t.odv 0x3030 9 = (if ended = [] then s.odv 0x3030 9 else min (s.odv 0x3030 9 + ended.length) u32Max) ∧
      t.te.host = s.te.host ∧ t.te.ripen = s.te.ripen ∧ t.te.emitQ = s.te.emitQ ∧ t.te.store = s.te.store ∧ t.out = [] ∧
      Touches [.te, .dictionary, .out] s t)

/-- NOP, SKIP and SCALAR that the sequencer issues (part of R156): a NOP moves the program on by one command; a SKIP by
one, or, where its test of a register holds, past the commands it names; a SCALAR by one, with the immediate, the sum
modulo 2^32, the word loaded or the minimum in its register. -/
def Obligations.ScalarCommands : Prop :=
  ∀ (p : ProgRef) (s u : State) (c : Nat) (r : Machine.Run) (cmd : Blob),
    State.issue { s with out := [] } p = (u, some (c, r, cmd)) →
    (cmdOp cmd = 0x00 → exec (.nop p) s = .next (u.goOn p c r (r.index + 1))) ∧
    (cmdOp cmd = 0x06 → ∀ taken : Bool,
      taken = (match cmdSub cmd with
        | 0 => decide (r.reg (fld (cmdWord cmd 1) 0 4) = cmdWord cmd 2)
        | 1 => decide (r.reg (fld (cmdWord cmd 1) 0 4) ≠ cmdWord cmd 2)
        | 2 => decide (r.reg (fld (cmdWord cmd 1) 0 4) < cmdWord cmd 2)
        | _ => decide (cmdWord cmd 2 ≤ r.reg (fld (cmdWord cmd 1) 0 4))) →
      exec (.skip p) s = .next (u.goOn p c r (r.index + 1 + (if taken then fld (cmdWord cmd 3) 0 8 else 0)))) ∧
    (cmdOp cmd = 0x05 → State.waitsForSeal { s with out := [] } r cmd = false → r.inBounds cmd = true →
      let d := fld (cmdWord cmd 3) 0 4
      let put := fun (t : State) v => t.goOn p c { r with regs := tabPut 0 r.regs d v } (r.index + 1)
      (cmdSub cmd = 0 → exec (.scalar p quiet) s = .next (put u (cmdWord cmd 2))) ∧
      (cmdSub cmd = 1 → exec (.scalar p quiet) s = .next (put u ((r.reg d + cmdWord cmd 2) % 2 ^ 32))) ∧
      (cmdSub cmd = 3 → exec (.scalar p quiet) s = .next (put u (min (r.reg d) (cmdWord cmd 2)))) ∧
      (cmdSub cmd = 2 → ∀ g : Got, g = u.operand p c r cmd 1 4 → g.ok = true → g.s.coreRunning c = true →
        exec (.scalar p quiet) s = .next (put g.s g.data)))

/-- MATMUL, VECTOR and COPY that the sequencer issues (part of R121, R156, R162, R163 and R169), with their bank sealed,
their operands in bounds and, for the arithmetic, no hint's lead to wait for: they read their operands in order,
compute, write their result, take the credits of the beats they write and count what they met, and the program moves on
by one command. One whose write needs a credit that is not there waits. A MATMUL without rows or columns reads its operands,
writes nothing and moves on. An element of an INT8 product without an accumulator operand and without a shift is the sum of
its products, saturated to INT8. The model's choices here: with one credit free the command completes, and its beats beyond
the free credits wait (log entries 102 and 106); VECTOR reads Z in the output's format (106); a shorter last group of a
reduction makes one element (94). -/
def Obligations.ArrayCommands : Prop :=
  (∀ (p : ProgRef) (s u : State) (c : Nat) (r : Machine.Run) (cmd : Blob),
     State.issue { s with out := [] } p = (u, some (c, r, cmd)) → State.waitsForSeal { s with out := [] } r cmd = false →
     r.inBounds cmd = true → (cmdOp cmd ≤ 2 → State.held { s with out := [] } r = false) →
     let rows := countOf r.reg (cmdWord cmd 6)
     let cols := countOf r.reg (cmdWord cmd 7)
     let n := countOf r.reg (cmdWord cmd 5)
     let finish := fun (got : State × List Blob × Bool) (out : Blob × TeCount) (len : Nat) (i : Instr) =>
       (r.beats p cmd 3 len ≠ 0 → State.hbmFull { s with out := [] } c = true →
         exec i s = .next (State.awaitCredit { s with out := [] } p r 5 (r.beats p cmd 3 len))) ∧
       (r.beats p cmd 3 len = 0 ∨ State.hbmFull { s with out := [] } c = false →
         got.2.2 = true → got.1.coreRunning c = true →
         ∀ x : Got × Machine.Run, x = got.1.result p c r cmd 3 len out.1 → x.1.ok = true → x.1.s.coreRunning c = true →
           exec i s = .next
             (((x.1.s.takeBeats p c (r.beats p cmd 3 len) r.counted).teCount p c out.2).goOn p c x.2 (r.index + 1)).settled)
     (cmdOp cmd = 0x03 →
       ∀ got, got = readAll u p c r cmd [(1, n)] → finish got (got.2.1.getD 0 0, {}) n (.copy p quiet)) ∧
     (cmdOp cmd = 0x02 → ∀ v : Bool × Bool × Bool, v = vecUses (cmdSub cmd) →
       ∀ got, got = readAll u p c r cmd
           [(1, rowBytes (cmdFa cmd) n), (2, if v.2.1 then rowBytes (cmdFb cmd) n else 0),
            (4, if v.2.2 then rowBytes (cmdFo cmd) n else 0)] →
         finish got
           (vector (u.teMode p r) (cmdSub cmd) (cmdFa cmd) (cmdFb cmd) (cmdFo cmd) (cmdParam cmd 5) n
             rows (got.2.1.getD 0 0) (got.2.1.getD 1 0) (got.2.1.getD 2 0))
           (rowBytes (cmdFo cmd) (vecOut (cmdSub cmd) n rows)) (.vector p quiet)) ∧
     (cmdOp cmd = 0x01 → rows ≠ 0 → cols ≠ 0 → (cmdFa cmd ≠ 6 ∨ n % 16 = 0) →
       ∀ got, got = readAll u p c r cmd
           (((usesAt cmd r.reg).filter (fun x => !x.write)).map (fun x => (x.word, x.len))) →
         finish got
           (matmul (u.teMode p r) (cmdFa cmd) (cmdFb cmd) (cmdFo cmd) (cmdParam cmd 5)
             (cmdParam cmd 6) n rows cols (got.2.1.getD 0 0) (got.2.1.getD 1 0) (if cmdFlag cmd then got.2.1[2]? else none))
           (rows * rowBytes (cmdFo cmd) cols) (.matmul p quiet)) ∧
     (cmdOp cmd = 0x01 → rows = 0 ∨ cols = 0 → (cmdFa cmd ≠ 6 ∨ n % 16 = 0) →
       ∀ got, got = readAll u p c r cmd
           (((usesAt cmd r.reg).filter (fun x => !x.write)).map (fun x => (x.word, x.len))) →
         got.2.2 = true → got.1.coreRunning c = true →
         exec (.matmul p quiet) s = .next ((got.1.teCount p c {}).goOn p c r (r.index + 1)))) ∧
  (∀ (m : TeMode) (sacc k h w i j : Nat) (a b : Blob), m.stochastic = false → k < 2 ^ 32 → i < h → j < w →
    signed 8 (bytesAt (matmul m 5 5 5 sacc 0 k h w a b none).1 (i * w + j) 1) =
      clampI ((upTo k).map (fun l =>
        signed 8 (bytesAt a (i * k + l) 1) * signed 8 (bytesAt b (j * k + l) 1))).sum (-128) 127)

/-- A GATHER that the sequencer issues, with its bank sealed, its operands in bounds and a credit for its write (part of
R156, R160 and R161): an index beyond the table is a bounds fault of the program; otherwise the rows that the indices
name are read and written in order, and the program moves on by one command. Its beats beyond the free credits wait, which
is the model's choice (log entries 102 and 106). -/
def Obligations.GatherCommand : Prop :=
  ∀ (p : ProgRef) (s u : State) (c : Nat) (r : Machine.Run) (cmd : Blob) (b : Buf),
    State.issue { s with out := [] } p = (u, some (c, r, cmd)) → cmdOp cmd = 0x04 →
    State.waitsForSeal { s with out := [] } r cmd = false → r.inBounds cmd = true →
    State.hbmFull { s with out := [] } c = false → r.image.bufs[opBuf (cmdWord cmd 1)]? = some b →
    let n := countOf r.reg (cmdWord cmd 5)
    let row := countOf r.reg (cmdWord cmd 6)
    ∀ ix : Got, ix = u.operand p c r cmd 2 (4 * n) → ix.ok = true → ix.s.coreRunning c = true → row ≠ 0 →
    let idx := (upTo n).map (fun i => bytesAt ix.data (4 * i) 4)
    ((∃ i, i ∈ idx ∧ r.tableLen cmd / row ≤ i) → exec (.gather p quiet) s = .next (ix.s.boundsFault p c r).settled) ∧
    ((∀ i, i ∈ idx → i < r.tableLen cmd / row) →
      ∀ got : State × List Blob × Bool,
        got = idx.foldl (fun (a : State × List Blob × Bool) i =>
          let g : Got := a.1.readArea p c r b.kind (b.offset + opOff r.reg (cmdWord cmd 1) + i * row) row
          (g.s, a.2.1 ++ [g.data], a.2.2 && g.ok)) (ix.s, [], true) →
        got.2.2 = true → got.1.coreRunning c = true →
        ∀ x : Got × Machine.Run,
          x = got.1.result p c r cmd 3 (n * row) (packBytes (got.2.1.map (fun d => (row, d)))) →
          x.1.ok = true → x.1.s.coreRunning c = true →
          exec (.gather p quiet) s = .next
            (((x.1.s.takeBeats p c (r.beats p cmd 3 (n * row)) r.counted).teCount p c {}).goOn p c x.2 (r.index + 1)).settled)

/-- HINT, FENCE and BARRIER that the sequencer issues, and a barrier that times out (part of R165, R166, R167 and R169).
A HINT of the run that leads its batch sends its message, and with FLAG it holds the program's arithmetic for its lead;
the program moves on. A FENCE waits with the toll scope while the program has items pending and with the HBM scope while
beats of it wait for a credit, which is the model's reading of R165's visible writes (log entry 106, DESIGN CHOICE), and a
BARRIER waits for both; else a FENCE moves on and a BARRIER arrives, and its group
goes on where all have arrived. A time-out breaks the barrier for the program that waits at it and for its group: for
every core of a group-wide barrier, for those of the cluster otherwise; one that does not wait at it is untouched. -/
def Obligations.OrderingCommands : Prop :=
  (∀ (p : ProgRef) (s u : State) (c : Nat) (r : Machine.Run) (cmd : Blob),
    State.issue { s with out := [] } p = (u, some (c, r, cmd)) →
    (cmdOp cmd = 0x08 → ∀ (msg : HintMsg) (t : State),
      msg = { source := c, level := fld (cmdWord cmd 2) 0 16, lead := fld (cmdWord cmd 1) 0 24,
              duration := fld (cmdWord cmd 3) 0 24, issued := u.timeNs, owner := some p } →
      t = (if u.leads p c r then u.sendHint (c / 8) msg else u) →
      exec (.hint p) s = .next (t.goOn p c
        { r with hintHold := if cmdFlag cmd then max r.hintHold (t.timeNs + fld (cmdWord cmd 1) 0 24) else r.hintHold }
        (r.index + 1))) ∧
    (cmdOp cmd = 0x09 → exec (.fence p) s = .next (
      if (bitAt (cmdWord cmd 1) 2 && u.tollsPending p) || (bitAt (cmdWord cmd 1) 1 && u.writesPending p) then u.setRun p { r with fenceWait := true }
      else u.goOn p c r (r.index + 1))) ∧
    (cmdOp cmd = 0x0A →
      (u.tollsPending p = true ∨ u.writesPending p = true →
        exec (.barrier p) s = .next (u.setRun p { r with fenceWait := true })) ∧
      (u.tollsPending p = false → u.writesPending p = false →
        let i := fld (cmdWord cmd 1) 0 5
        let v := u.setRun p { r with arrivals := tabMod 0 r.arrivals i (· + 1), barrier := some i, fenceWait := false }
        exec (.barrier p) s = .next (if i ∈ r.broken then v.settled else (v.releaseBarrier r.group i).settled)))) ∧
  (∀ (p : ProgRef) (ident : Nat) (q : Machine.Run) (s : State), State.progRun { s with out := [] } p = some q →
    (q.barrier ≠ some ident → exec (.barrierTimeout p ident) s = .next { s with out := [] }) ∧
    (q.barrier = some ident →
      ∀ mark : Machine.Run → Machine.Run,
        mark = (fun x => if 16 ≤ ident ∨ x.core / 8 = q.core / 8 then { x with broken := ordInsert x.broken ident } else x) →
        exec (.barrierTimeout p ident) s =
          .next ((State.fixGroup { s with out := [] } q.group q.core mark).setRun p (mark q)).settled))

/-- EMIT, the merge's acceptance and returned credits (part of R162, R163, R188, R228 and R229). An EMIT of a stream
that the sequencer issues waits without a credit of its toll, and with one takes it and queues its record; the program
moves on. A queued record of the stream's epoch that is not malformed and whose frame is not past is taken into the
store. A credit that returns is free again, and where a producer can wait for it, or a record waits for its bank, that
goes on: an HBM_WR credit issues the oldest beat of its core that waits, and a LOAD credit the oldest item of its
cluster's copies that waits. That a credit's return does this, and that those queues issue one by one, is log entry 102
(DEDUCED). -/
def Obligations.EmitAndAccept : Prop :=
  (∀ (n : Nat) (s u : State) (c : Nat) (r : Machine.Run) (cmd : Blob),
    State.issue { s with out := [] } (.stream n) = (u, some (c, r, cmd)) → cmdOp cmd = 0x0B →
    State.waitsForSeal { s with out := [] } r cmd = false → r.inBounds cmd = true →
    (16 ≤ tabGet 0 s.te.credits (128 + c) →
      exec (.emit (.stream n) quiet) s = .next (State.awaitCredit { s with out := [] } (.stream n) r 3 1)) ∧
    (tabGet 0 s.te.credits (128 + c) < 16 →
      ∀ g : Got, g = u.operand (.stream n) c r cmd 1 (countOf r.reg (cmdWord cmd 5)) → g.ok = true →
      g.s.coreRunning c = true →
      exec (.emit (.stream n) quiet) s = .next (State.goOn
        { g.s with te := { g.s.te with
          credits := tabMod 0 g.s.te.credits (128 + c) (· + 1)
          emitQ := g.s.te.emitQ ++ [(c, resultOf n r.epoch r.frame (countOf r.reg (cmdWord cmd 5)) g.data r.emitted)] } }
        (.stream n) c { r with emitted := true } (r.index + 1)))) ∧
  (∀ (core : Nat) (e : Nat × Result) (s : State), s.up = true →
    s.te.emitQ.find? (fun e => decide (e.1 = core)) = some e → e.2.epoch = (s.stream e.2.stream).epoch →
    e.2.malformed = false → s.te.mergeStarted ≤ e.2.frame →
    exec (.resultRecordAccept core) s = .next (State.storeResult { s with
      out := [], te := { s.te with emitQ := s.te.emitQ.erase e } } e.2.stream e.2)) ∧
  (∀ (n : Nat) (r : Result) (s : State), (s.storeResult n r).te.store = tabInsert s.te.store n r ∧
    Touches [.te] s (s.storeResult n r)) ∧
  (∀ (toll : Toll) (unit : Nat) (s : State), ∀ u : State,
    u = { s with out := [], te := { s.te with credits := tabMod 0 s.te.credits (tollNo toll * 128 + unit) (· - 1) } } →
    exec (.tollCreditReturn toll unit) s = .next (
      match toll with
      | .emitM => u.endTollWait unit
      | .hbmWr =>
        if s.te.beatsWait.any (fun b => decide (b.core = unit)) then (State.sendBeat { s with out := [] } unit).settled
        else (u.endTollWait unit).settled
      | .intake => u.takeIntake unit
      | .load => State.returnCopy { s with out := [] } unit
      | .mergeCe => u
      | .hint => u))

/-- END that the sequencer issues (part of R191, R226 and R246): of a stream it ends the run of the frame; of a host
program it completes the program with status OK, as one more command done and with the cycles it took; of a ripening
program it ends its part as done. The end of a stream's run leaves every other stream as it is. -/
def Obligations.ProgramEnds : Prop :=
  (∀ (s u : State) (c : Nat) (r : Machine.Run) (cmd : Blob) (cycles : Nat), cmdOp cmd = 0x0F →
    (∀ n, State.issue { s with out := [] } (.stream n) = (u, some (c, r, cmd)) →
      exec (.progEnd (.stream n) cycles) s = .next (u.endStream n)) ∧
    (∀ d, State.issue { s with out := [] } (.host d) = (u, some (c, r, cmd)) →
      exec (.progEnd (.host d) cycles) s = .next (((u.setCore c (fun k =>
        { k with issuing := some (.host d) })).setRun (.host d)
        { r with completed := r.completed + 1 }).endHost d stOk (cycles % 2 ^ 64)).settled) ∧
    (∀ d, State.issue { s with out := [] } (.ripen d) = (u, some (c, r, cmd)) →
      exec (.progEnd (.ripen d) cycles) s = .next (u.endRipen d true).settled)) ∧
  (∀ (n : Nat) (s : State), ((s.endStream n).stream n).run = none ∧ (∀ m, m ≠ n → (s.endStream n).stream m = s.stream m) ∧
    Touches [.te] s (s.endStream n))

/-- Cores and fences (part of R133, R135, R137, R143 and R146). At a tile boundary of a running core its lower work
yields exactly where its class is not free. A gated cluster that has work wakes. A running core whose sequencer's
watchdog expires is fenced with cause 2. A core that is fenced for a new cause is in the fenced state with that cause
added. The admitted commands fence a core, release it, and fence a cluster; the self-test after a release puts the core
into use and frees its slots, or, where it fails, fences the core with cause 1. -/
def Obligations.CoresAndFences : Prop :=
  (∀ (core : Nat) (s : State), s.coreRunning core = true →
    exec (.tileYield core) s = .next (State.setCore { s with out := [] } core (fun k => { k with
      yielded := ((tabFind s.te.host core).isSome && !s.classFree core (.host core)) ||
        ((tabFind s.te.ripen core).isSome && !s.classFree core (.ripen core)) }))) ∧
  (∀ (n : Nat) (s : State), s.cd.running = true → State.clusterIdle { s with out := [] } n = false →
    exec (.clusterWake n) s = .next { s with out := [], te := { s.te with gated := setBit s.te.gated n false } }) ∧
  (∀ (core : Nat) (s : State), s.cd.running = true → s.coreRunning core = true →
    exec (.sequencerWatchdogExpiry core) s = .next (State.fenceOne { s with out := [] } core 2).settled) ∧
  (∀ (core cause : Nat) (s : State), (s.core core).st ≠ 0 → cause ∉ (s.core core).causes →
    ((s.fenceOne core cause).core core).st = 3 ∧
    ((s.fenceOne core cause).core core).causes = (s.core core).causes ++ [cause] ∧
    ((s.fenceOne core cause).core core).newlyFenced = true) ∧
  (∀ (h : ReqHead) (core : Nat), core < 256 →
    RowDoes (.fenceCore h core) h 0x3102 0 2 (fenceArg core 0) (done 0x3102 0 (fun s => (s.fenceOne core 5).settled)) ∧
    RowDoes (.releaseCore h core) h 0x3102 0 2 (fenceArg core 1) (done 0x3102 0 (fun s =>
      (s.setCore core (fun k => { k with st := 1, causes := [] })).settled))) ∧
  (∀ (h : ReqHead) (cluster : Nat), cluster < 256 →
    RowDoes (.fenceCluster h cluster) h 0x3102 0 2 (fenceArg cluster 2)
      (done 0x3102 0 (fun s => (s.fenceCluster cluster 5).settled))) ∧
  (∀ (core : Nat) (s : State), s.up = true → (s.core core).st = 1 →
    exec (.coreSelfTestDone core true) s = .next (State.settled
      { State.setCore { s with out := [] } core (fun k => { k with st := 2 }) with
        te := { (State.setCore { s with out := [] } core (fun k => { k with st := 2 })).te with slotFreed := true } }) ∧
    exec (.coreSelfTestDone core false) s = .next ((State.fenceOne { s with out := [] } core 1).setCore core
      (fun k => { k with newlyFenced := (s.core core).newlyFenced })).settled)

/-! ## Loading and other work -/

/-- Streams and loads (part of R145, R181, R183 and R184). A settings write that is admitted is stored, is marked as new
for the run that takes it, and leaves every other stream as it was. An admitted request to load new streams, or to
replace a model, starts the load it describes; one that passes its checks is the load in progress. At its commit, with no
copy of it waiting for a credit, a load that no longer meets its deadlines ends with DEADLINE, and a host's load that does
is finished with OK, its streams loaded; with one waiting nothing happens. The records of a replay are passed over by a
module whose CD does not run or whose gate is closed; a single record is replayed by any other, which takes the slot and
the sequence of the catalogue that holds it. -/
def Obligations.Loads : Prop :=
  (∀ (h : ReqHead) (n k v : Nat) (s : State), n < 768 → 1 ≤ k → k ≤ 3 →
    s.admits h (0x3400 + n) k (entryLen (0x3400 + n) k) v →
    Runs (.streamSettingsWrite h n k v) s (fun t => t.odv (0x3400 + n) k = v ∧ (t.stream n).newSettings = true ∧
      (∀ m, m ≠ n → t.stream m = s.stream m))) ∧
  (∀ (h : ReqHead) (addr first count : Nat),
    RowDoes (.loadNewStreams h addr first count) h 0x3200 0 16 (loadArg addr first count 1)
      (fun s => s.startLoad (loadArg addr first count 1) h.signed.isSome (sourceOf h.via h.signed.isSome)) ∧
    RowDoes (.replaceModel h addr first count) h 0x3200 0 16 (loadArg addr first count 2)
      (fun s => s.startLoad (loadArg addr first count 2) h.signed.isSome (sourceOf h.via h.signed.isSome))) ∧
  (∀ (d : Blob) (secure : Bool) (source : Nat) (l : Load) (m : Model) (s : State), ∀ t : State,
    t = (if s.loadBusy (s.loadIdents d secure) || !(loadReq d).ok then s else s.imageRead .forecast secure (loadReq d).addr) →
    (t.checkLoad d secure).2 = some (l, m) → (s.startLoad d secure source).te.load = some l) ∧
  (∀ (l : Load) (s : State), s.up = true → s.te.load = some l → s.copyWaits (fun x => x.load) = true →
    exec .loadCommit s = .next { s with out := [] }) ∧
  (∀ (l : Load) (s : State), s.up = true → s.te.load = some l → s.copyWaits (fun x => x.load) = false →
    State.replan { s with out := [] } l = none →
    exec .loadCommit s = .next (State.endLoad { s with out := [] } stDeadline)) ∧
  (∀ (l m : Load) (s : State), s.up = true → s.te.load = some l → s.copyWaits (fun x => x.load) = false →
    State.replan { s with out := [] } l = some m → m.ripens = none → m.replay = false →
    Runs .loadCommit s (fun t => t.te.load = none ∧ t.te.loadStatus = stOk ∧ t.te.loadCommitted = m.count ∧
      (∀ n, m.first ≤ n → n < m.first + m.count → (t.stream n).loaded = true))) ∧
  (∀ (c : ModelCatalogue) (s : State), s.up = true → s.cd.running = false ∨ s.power.gate = false →
    exec (.loadReplay c) s = .next { s with out := [] }) ∧
  (∀ (slot seq : Nat) (e : ModelEntry) (s : State), s.up = true → s.cd.running = true → s.power.gate = true →
    exec (.loadReplay ⟨some (slot, seq), [e]⟩) s = .next (State.replayOne { s with
      out := []
      te := { s.te with catalogue := [], catalogueSlot := slot % 2, catalogueSeq := seq,
                        nextModel := max s.te.nextModel e.order, slotFreed := true } } e))

/-- Unloads, host work, ripening and cores (part of R185, R190, R213, R244, R245, R247 and R268). An admitted unload marks
its streams; an admitted request for host work, and one for a ripening image, has its operation; a deregistration takes
the image away and leaves the models. A ripening job that is due starts on the running cores that hold a finished copy of
its model, and a job not accepted within its interval is abandoned. In a slot permitted to loads, damaged master copies
are restored from the other copy; where both are bad their streams lose their slots and are damaged. The core that
was suspended last resumes first, after 100 calm periods, and the count of calm periods goes back to 99. -/
def Obligations.OtherWork : Prop :=
  (∀ (h : ReqHead) (first count : Nat),
    RowDoes (.unload h first count) h 0x3202 0 4 (unloadArg first count)
      (done 0x3202 0 (fun s => s.startUnload (unloadArg first count)))) ∧
  (∀ (h : ReqHead) (d : Blob),
    RowDoes (.hostWork h d) h 0x3203 0 32 d (fun s => s.hostWork d h.signed.isSome (sourceOf h.via h.signed.isSome))) ∧
  (∀ (h : ReqHead) (ident addr : Nat),
    RowDoes (.ripeningImageRegister h ident addr) h 0x3022 0 16 (ripenArg ident addr)
      (fun s => s.ripeningImage (ripenArg ident addr) h.signed.isSome (sourceOf h.via h.signed.isSome)) ∧
    RowDoes (.ripeningImageDeregister h ident) h 0x3022 0 16 (ripenArg ident u64Max)
      (fun s => s.ripeningImage (ripenArg ident u64Max) h.signed.isSome (sourceOf h.via h.signed.isSome))) ∧
  (∀ (ident key source : Nat) (secure : Bool) (s : State), ident < 2 ^ 32 → s.modelKey ident = some key →
    (s.ripeningImage (ripenArg ident u64Max) secure source).te.ripening = tabErase s.te.ripening ident ∧
    (s.ripeningImage (ripenArg ident u64Max) secure source).te.models = s.te.models) ∧
  (∀ (first count n : Nat) (s : State), first < 1024 → count < 1024 → first ≤ n → n < first + count →
    ((s.startUnload (unloadArg first count)).stream n).unloading = true) ∧
  (∀ (ident key : Nat) (m : Model) (s : State), s.up = true → tabFind s.te.ripening ident = some m →
    s.modelKey ident = some key → s.odv 0x3020 1 ≠ 0 → tabFind s.te.lastJob ident = none →
    tabFind s.te.jobs ident = none → s.te.load = none →
    (∃ c, c < 96 ∧ s.coreRunning c = true ∧ s.copied c key = true) →
    Runs (.ripeningJobStart ident) s (fun t => ∃ j, tabFind t.te.jobs ident = some j ∧ j.model = key ∧ j.began = s.intake ∧
      j.participants = (upTo 96).filter (fun c => s.coreRunning c && s.copied c key) ∧
      (∀ c, c ∈ j.participants → (tabFind t.te.ripen c).isSome = true) ∧
      Touches [.te, .cd, .dictionary, .log, .host, .free, .out] s t)) ∧
  (∀ (ident : Nat) (j : Job) (s : State), s.up = true → tabFind s.te.jobs ident = some j → j.accepted = false →
    j.began + 1000000 * s.odv 0x3020 2 ≤ s.intake →
    exec (.ripeningTimeout ident) s = .next (State.abandonIds { s with out := [] } [ident])) ∧
  (∀ (ident key : Nat) (us : List Upset) (s : State), s.up = true → s.modelKey ident = some key →
    (s.model key).badMasters ≠ [] → s.copyPermitted = true →
    ∀ u : State, u = ((State.hbmUpsets { s with out := [] } us).readMaster key).1 →
    ((u.model key).lost = false → Runs (.masterCopyRestore ident us) s (fun t => (t.model key).badMasters = [] ∧
      Touches [.te, .cd, .dictionary, .log, .host, .free, .out] s t)) ∧
    ((u.model key).lost = true → Runs (.masterCopyRestore ident us) s (fun t =>
      (∀ n, n ∈ u.streamsOf key → (t.stream n).slot = none ∧ (t.stream n).damaged = true)))) ∧
  (∀ (c : Nat) (rest : List Nat) (s : State), s.up = true → s.te.suspended = c :: rest → 100 ≤ s.te.calm →
    s.bm.capUnmet = false →
    exec .coreResume s = .next { State.setCore { s with out := [] } c (fun k => { k with suspended := false }) with
      te := { (State.setCore { s with out := [] } c (fun k => { k with suspended := false })).te with
        suspended := rest, calm := 99 } })

/-! ## HBM and SRAM -/

/-- In a memory without flipped bits, what a write of any length at any address stores is what a read of the same bytes
delivers, with nothing met, and every other byte stays as it was (part of R203, R204 and R208). -/
def Obligations.MemoryReadsBack : Prop :=
  ∀ (m : Mem) (unit a n v : Nat), m.errs = [] →
    ((m.write unit a n v).1.read unit a n).1 = v % 2 ^ (8 * n) ∧
    ((m.write unit a n v).1.read unit a n).2.bad = [] ∧ ((m.write unit a n v).1.read unit a n).2.corrected = [] ∧
    (∀ b, b < a ∨ a + n ≤ b → cellsGet memZero (m.write unit a n v).1.cells b 1 = cellsGet memZero m.cells b 1)

/-- Accesses of the host through the HBM window that lie within one of its regions (part of R94, R199, R200 and R211).
An unmapped offset counts in OD 0xA050.03, reads as zeros and stores nothing; a secure region is a violation, reads as
zeros and stores nothing; while the CD does not run, a read gives zeros and a write stores nothing; in a stack that
cannot be reached a read ends in an error and a write is lost, each counted in OD 0xA050.01. Elsewhere the read delivers
the bytes of the HBM and the write stores them, with the corrections and the first-write fills counted. -/
def Obligations.HbmWindow : Prop :=
  ∀ (off n : Nat) (v : Blob) (s : State), s.services = true → s.host.d3hot = false → n ≠ 0 →
    off % regionBytes + n ≤ regionBytes →
    (s.bar2Map off = none →
      exec (.bar2Read off n []) s = .next ((State.count { s with out := [] } 0xA050 3).emit (.bar2 false n 0)).settled ∧
      exec (.bar2Write off n v []) s = .next (State.count { s with out := [] } 0xA050 3).settled) ∧
    (∀ pa, s.bar2Map off = some pa → s.hbmSecure pa = true →
      exec (.bar2Read off n []) s = .next ((State.violation { s with out := [] }).emit (.bar2 false n 0)).settled ∧
      exec (.bar2Write off n v []) s = .next (State.violation { s with out := [] }).settled) ∧
    (∀ pa, s.bar2Map off = some pa → s.hbmSecure pa = false → s.cd.running = false →
      exec (.bar2Read off n []) s = .next (State.emit { s with out := [] } (.bar2 false n 0)).settled ∧
      exec (.bar2Write off n v []) s = .next (State.settled { s with out := [] })) ∧
    (∀ pa, s.bar2Map off = some pa → s.hbmSecure pa = false → s.cd.running = true → s.stackReachable pa = false →
      exec (.bar2Read off n []) s = .next ((State.count { s with out := [] } 0xA050 1).emit (.bar2 true n 0)).settled ∧
      exec (.bar2Write off n v []) s = .next (State.count { s with out := [] } 0xA050 1).settled) ∧
    (∀ pa, s.bar2Map off = some pa → s.hbmSecure pa = false → s.cd.running = true → s.stackReachable pa = true →
      (∀ t : State, t = (State.hbmMoved { s with out := [] } 42 pa n).hbmVote pa n →
        ∀ r : Blob × MemFx, r = t.cd.hbm.read 4096 pa n → r.2.bad = [] →
        exec (.bar2Read off n []) s = .next ((t.hbmFx r.2 pa).emit (.bar2 false n (packBytes [(n, r.1)]))).settled) ∧
      (∀ t : State, t = (State.hbmMoved { s with out := [] } 43 pa n).hbmVote pa n →
        ∀ r : Mem × MemFx, r = t.cd.hbm.write 4096 pa n (bytesAt v 0 n) → r.2.dropped = 0 →
        exec (.bar2Write off n v []) s = .next (State.hbmFx { t with cd := { t.cd with hbm := r.1 } } r.2 pa).settled))

/-- Errors of the memories, their scrubs and the stacks (part of R203, R204, R214, R215, R216 and R219). One flipped bit
of the 39 of a stored word is corrected with the data as it was stored; two are never corrected. An HBM scrub step over
a block without flipped bits moves to the next valid block of its stack and counts it; a corrected word outside the
forecast areas is written back, and its flipped bits are gone. An SRAM scrub step over a valid word without flipped bits
moves past it. A stack whose access times out, or whose management reports a fatal error, has the stack failure of that
cause, and a failure of a stack in service fences its cluster; a stack that gives no answer, or a failed one that
answers, does not fail again. A stack in continuous mode with a good readout that does not differ from its sensor by
more than 12 °C refreshes at the readout's rate; a stack without a readout and without a sensor refreshes at the highest
rate. -/
def Obligations.MemoryErrorsAndStacks : Prop :=
  (∀ i : Nat, i < 32 → eccDecode (2 ^ i) = .corrected 0) ∧ (∀ i : Nat, 32 ≤ i → i < 39 → eccDecode (2 ^ i) = .corrected 0) ∧
  (∀ i j : Nat, i < 39 → j < 39 → i ≠ j → eccDecode (2 ^ i ^^^ 2 ^ j) = .bad) ∧
  (∀ (n b c : Nat) (again : List Upset) (s : State), s.up = true → s.cd.running = true → n < 12 →
    tabGet 0 s.cd.stackCond n ≠ 4 → s.cd.hbm.votes = [] → s.nextBlock n (tabGet 0 s.cd.scrubAt n) = some b →
    s.nextBlock n (b + 1) = some c → s.inForecast (4096 * b) = false → s.blockErrs b = [] →
    exec (.hbmScrubStep n [] again) s = .next (State.settled { s with
      out := []
      cd := { s.cd with scrubAt := tabPut 0 s.cd.scrubAt n (b + 1),
                        progress := tabMod 0 s.cd.progress n (fun x => min (x + 1) u32Max) } })) ∧
  (∀ (a : Nat) (s : State), s.inForecast a = false →
    eccDecode (tabGet 0 s.cd.hbm.errs a) = .corrected 0 →
    (s.hbmScrubWord a []).cd.hbm = { s.cd.hbm with errs := tabErase s.cd.hbm.errs a }) ∧
  (∀ (m w : Nat) (again : List Upset) (s : State), s.up = true → s.macroOn m = true →
    s.sramNext m = some w → s.cd.sram.votes = [] → tabGet 0 s.cd.sram.errs (m * 2 ^ 20 + 4 * w) = 0 →
    exec (.sramScrubStep m [] again) s = .next (State.settled { s with
      out := [], cd := { s.cd with sramAt := tabPut 0 s.cd.sramAt m ((w + 1) % 2 ^ 18) } })) ∧
  (∀ (n : Nat) (s : State), s.up = true →
    exec (.hbmAccessTimeout n) s = .next (State.stackFailed { s with out := [] } n 4).settled ∧
    exec (.stackManagementFatal n) s = .next (State.stackFailed { s with out := [] } n 3).settled) ∧
  (∀ (n cause : Nat) (s : State), s.cd.running = true → tabGet 0 s.cd.stackCond n < 3 → s.clusterFenced n = false →
    tabGet 0 (s.stackFailed n cause).cd.stackCond n = (if cause = 1 ∨ cause = 4 then 4 else 3) ∧
    (s.stackFailed n cause).clusterFenced n = true) ∧
  (∀ (n cause : Nat) (s : State), tabGet 0 s.cd.stackCond n = 4 ∨
    (tabGet 0 s.cd.stackCond n = 3 ∧ cause ≠ 1 ∧ cause ≠ 4) → s.stackFailed n cause = s) ∧
  (∀ (n : Nat) (t : Int) (s : State), s.up = true → s.cd.running = true → n < 12 → tabGet 0 s.cd.refreshMode n = 0 →
    ((tabFind s.mpc.sensors (80 + n)).isSome = true → (t - (s.sensor (80 + n)).used).natAbs ≤ 1200) →
    exec (.refreshUpdate n (some t)) s = .next { s with
      out := []
      cd := { s.cd with goodRuns := tabPut 0 s.cd.goodRuns n (tabGet 0 s.cd.goodRuns n + 1),
                        refreshMode := tabPut 0 s.cd.refreshMode n 0,
                        refresh := tabPut 0 s.cd.refresh n (refreshSteps t - 16), bandWait := tabPut 0 s.cd.bandWait n 0 } }) ∧
  (∀ (n : Nat) (s : State), s.up = true → s.cd.running = true → n < 12 → tabFind s.mpc.sensors (80 + n) = none →
    exec (.refreshUpdate n none) s = .next { s with
      out := []
      cd := { s.cd with goodRuns := tabPut 0 s.cd.goodRuns n 0, refreshMode := tabPut 0 s.cd.refreshMode n 2,
                        refresh := tabPut 0 s.cd.refresh n 48, bandWait := tabPut 0 s.cd.bandWait n 0 } })

/-! ## The merge, the budget manager and the control engine -/

/-- The merge (part of R163, R230 and R235). A merge run of the next frame, once its start has come, with no word of its
store struck and with a free credit, makes one record of the frame and the profile from the results that contribute, takes
the credit and goes on to the next frame. Before its start it does nothing; without a credit it waits, and its first wait
is counted in OD 0x3210.04. A run not finished 5 µs after the close of its frame is counted in OD 0x3030.02 and its
frame is passed over. With no frame open, or the CD not running, nothing happens. -/
def Obligations.MergeRuns : Prop :=
  (∀ (j : Nat) (s : State), s.up = true → s.cd.running = true → s.mergeFrame = some j → s.mergeReady j = true →
    s.te.mergeMem.errs = [] → s.te.mergeMem.votes = [] → s.te.mergeLost = [] →
    (tabGet 0 s.te.credits (2 * 128) < 4 →
      Runs (.mergeRun []) s (fun t => ∃ m : Merged, t.te.mergeQ = s.te.mergeQ ++ [m] ∧ m.frame = j ∧ m.profile = s.profile ∧
        m.contributing = (s.contributing j).length ∧ t.te.mergeNext = j + 1 ∧ t.te.store = s.te.store ∧
        t.te.credits = tabMod 0 s.te.credits (2 * 128) (· + 1) ∧ Touches [.te, .dictionary, .out] s t)) ∧
    (4 ≤ tabGet 0 s.te.credits (2 * 128) →
      exec (.mergeRun []) s = .next (if j < s.te.mergeStarted then State.mergeStart { s with out := [] } j
        else (State.mergeStart { s with out := [] } j).count 0x3210 4))) ∧
  (∀ (j : Nat) (s : State), s.up = true → s.mergeFrame = some j → s.mergeReady j = false →
    exec (.mergeRun []) s = .next { s with out := [] }) ∧
  (∀ (j : Nat) (s : State), s.up = true → s.cd.running = true → s.mergeFrame = some j →
    (j + 6 ≤ s.intake → exec .mergeOverrun s = .next ((State.mergeStart { s with out := [] } j).mergeStop j)) ∧
    (s.intake < j + 6 → exec .mergeOverrun s = .next { s with out := [] })) ∧
  (∀ s : State, s.up = true → s.cd.running = false ∨ s.mergeFrame = none →
    exec (.mergeRun []) s = .next { s with out := [] } ∧ exec .mergeOverrun s = .next { s with out := [] })

/-- The budget and its barriers (part of R252, R253, R258 and R266). A budget write that is admitted is stored; the
value in force and every other entry but the counters of requests stay. A period boundary keeps the state, the frame
number and the gate; a budget that waits is in force once it is applied. With a
refresh interval set, a refresh that does not come makes the fallback due, and the fallback of OD 0x4001.02 is the
budget when the budget is next applied, and OD 0x4001.01 itself takes it (log entry 28, DEDUCED); without an interval nothing happens. A barrier release of a group whose held
landings have a known start is counted, and the start, the event and the landings are the group's release; in a state
without grants nothing happens. -/
def Obligations.Budget : Prop :=
  (∀ (h : ReqHead) (w : Nat) (s : State), s.admits h 0x4001 1 4 w →
    Runs (.budgetWrite h w) s (fun t => t.odv 0x4001 1 = w ∧ t.effv 0x4001 1 = s.effv 0x4001 1 ∧
      (∀ i k, okey i k ≠ okey 0x4001 1 → okey i k ≠ okey 0x1001 6 → okey i k ≠ okey 0x1020 1 → t.odv i k = s.odv i k))) ∧
  (∀ s : State, s.up = true → Runs .budgetPeriodBoundary s (fun t => t.mode = s.mode ∧ t.frame = s.frame ∧
    t.power.gate = s.power.gate)) ∧
  (∀ s : State, (tabFind s.eff (okey 0x4001 1)).isSome = true → s.applyBudget.effv 0x4001 1 = s.odv 0x4001 1 ∧
    s.applyBudget.bm.source = 0) ∧
  (∀ s : State, s.services = true → s.odv 0x4001 4 ≠ 0 →
    exec .budgetRefreshTimeout s = .next { s with out := [], bm := { s.bm with refreshDue := true } }) ∧
  (∀ s : State, s.services = true → s.odv 0x4001 4 = 0 → exec .budgetRefreshTimeout s = .next { s with out := [] }) ∧
  (∀ s : State, s.bm.refreshDue = true → s.odv 0x4001 4 ≠ 0 → tabFind s.eff (okey 0x4001 1) = none →
    s.applyBudget.odv 0x4001 1 = s.odv 0x4001 2 ∧ s.applyBudget.bm.source = 1 ∧ s.applyBudget.bm.refreshDue = false) ∧
  (∀ (g : Nat) (t : Nat × Nat) (s : State), s.services = true → s.grants = true → g < 64 → s.heldAt g ≠ [] →
    State.releaseStart { s with out := [] } g (s.heldAt g) = some t →
    Runs (.barrierRelease g) s (fun u => (∃ y, tabFind u.bm.groups g = some y ∧ y.relAt = some t.1 ∧ y.relEvent = t.2 ∧
      y.relIds = s.heldAt g) ∧ u.odv (0x4200 + g) 13 = min (s.odv (0x4200 + g) 13 + 1) u32Max ∧
      Touches [.dictionary, .ferry, .bm, .out] s u)) ∧
  (∀ (g : Nat) (s : State), s.services = true → s.grants = false → exec (.barrierRelease g) s = .next { s with out := [] })

/-- The control engine's boundaries (part of R276 and R308). A snapshot while the engine does not run samples the SE
currents and nothing else; one while it runs opens branch A and leaves the state and the gate. The following-error timer
of a closed loop that is not frozen, at its limit, marks the loop and the engine and, where OD 0x2100+n.20 is 1, has the
loop opened as its next command; every other loop stays. -/
def Obligations.CeBoundaries : Prop :=
  (∀ s : State, s.up = true → s.ceRuns = false →
    exec .ceSnapshot s = .next (State.senseCurrents { s with out := [] })) ∧
  (∀ s : State, s.up = true → s.ceRuns = true →
    Runs .ceSnapshot s (fun t => t.ce.branchA.isSome = true ∧ t.mode = s.mode ∧ t.power.gate = s.power.gate)) ∧
  (∀ (n : Nat) (s : State), s.up = true → s.ceRuns = true → n < 64 → s.odv (0x2100 + n) 19 ≠ 0 →
    s.odv (0x2100 + n) 19 ≤ (s.ce.kept.loop n).timer → (s.ce.kept.loop n).fired = false → (s.ce.kept.loop n).mode = 2 →
    (s.ce.kept.loop n).stale = false →
    Runs (.followingErrorTimeout n) s (fun t =>
      (t.ce.kept.loop n).followErr = true ∧ (t.ce.kept.loop n).fired = true ∧ t.ce.followSeen = true ∧
      (s.odv (0x2100 + n) 20 = 1 → (t.ce.kept.loop n).command = some 3) ∧
      (∀ m, m ≠ n → t.ce.kept.loop m = s.ce.kept.loop m) ∧ Touches [.ce, .log, .dictionary, .host, .out] s t))

/-- Commands of the loops and of the repetitive correctors (part of R289 and R307). An admitted mode command of a loop
is the loop's command, and no other loop changes. An admitted clear empties the corrector's table; an admitted nudge
adds to the shift that waits; an admitted index waits for the corrector's next run; an admitted period is stored, with
the table empty and its generation one higher, and no other corrector changes. -/
def Obligations.LoopCommands : Prop :=
  (∀ (h : ReqHead) (n : Nat), n < 64 →
    RowDoes (.loopModeOff h n) h (0x2200 + n) 1 1 0 (done (0x2200 + n) 1 (fun s => s.loopCommand n 0)) ∧
    RowDoes (.loopModeOpen h n) h (0x2200 + n) 1 1 1 (done (0x2200 + n) 1 (fun s => s.loopCommand n 1)) ∧
    RowDoes (.loopModeClosed h n) h (0x2200 + n) 1 1 2 (done (0x2200 + n) 1 (fun s => s.loopCommand n 2)) ∧
    (∀ (mode : Nat) (s : State), ((s.loopCommand n mode).ce.kept.loop n).command = some mode ∧
      (∀ m, m ≠ n → (s.loopCommand n mode).ce.kept.loop m = s.ce.kept.loop m) ∧ (s.loopCommand n mode).mode = s.mode)) ∧
  (∀ (h : ReqHead) (r : Nat), r < 4 →
    RowDoes (.rcClear h r) h (0x2600 + r) 7 1 1 (done (0x2600 + r) 7 (fun s => s.clearTable r)) ∧
    (∀ arg, RowDoes (.rcPhaseNudge h r arg) h (0x2600 + r) 8 2 arg (done (0x2600 + r) 8 (fun s =>
      s.ceAll (fun d => d.setRc r (fun c => { c with nudge := some (c.nudge.getD 0 + signed 16 arg) }))))) ∧
    (∀ arg, RowDoes (.rcSetIndex h r arg) h (0x2600 + r) 9 4 arg (done (0x2600 + r) 9 (fun s =>
      s.ceAll (fun d => d.setRc r (fun c => { c with setIndex := some arg }))))) ∧
    (∀ (arg : Nat) (s : State), s.admits h (0x2600 + r) 1 4 arg →
      Runs (.rcPeriodWrite h r arg) s (fun t => t.odv (0x2600 + r) 1 = arg ∧ (t.ce.kept.rc r).table = [] ∧
        (t.ce.kept.rc r).generation = ((s.ce.kept.rc r).generation + 1) % 2 ^ 32 ∧
        (∀ q, q ≠ r → t.ce.kept.rc q = s.ce.kept.rc q)))) ∧
  (∀ (r : Nat) (s : State), ((s.clearTable r).ce.kept.rc r).table = [] ∧ ((s.clearTable r).ce.kept.rc r).mask = 0)

/-- The control engine enters service (part of R29, R311, R508 and R519). A restored engine enters service; in TAKEOVER
the module is then ACTIVE, or DEGRADED with the causes in force, FORECAST_NOT_RUNNING among them wherever another profile
than PASSIVE is selected, and records how long the takeover took; its gate stays as it is, and where the gate is open the
module drives the Gangway from that frame on. Without a restored engine, with the lease lost or while the module leaves
its input range, nothing happens. -/
def Obligations.CeEntersService : Prop :=
  (∀ s : State, s.up = true → s.ce.restored = true → s.red.lost = false → s.power.leaving = false → s.mode = .takeover →
    ∀ c : Nat, c = b2n s.cdStoppedNow + 2 * b2n (decide (s.odv 0x3000 0 ≠ 3)) + 4 * b2n s.reducedNow →
    Runs .ceEntersService s (fun t =>
      t.mode = (if c = 0 then Mode.active else .degraded) ∧ t.lastTrigger = 4 ∧ t.causes = c ∧
      t.notRunning = decide (s.odv 0x3000 0 ≠ 3) ∧ t.ce.inService = true ∧ t.ce.restored = false ∧
      t.gw.driving = (s.gw.driving || s.power.gate) ∧ t.power.gate = s.power.gate ∧ t.red.toService = 4 * (s.frame - s.red.claimFrame))) ∧
  (∀ s : State, s.up = true → s.ce.restored = true → s.red.lost = false → s.power.leaving = false → s.mode ≠ .takeover →
    Runs .ceEntersService s (fun t => t.mode = s.mode ∧ t.ce.inService = true ∧ t.ce.restored = false ∧
      Touches [.ce, .gw, .out] s t)) ∧
  (∀ s : State, s.up = true → s.ce.restored = false ∨ s.red.lost = true ∨ s.power.leaving = true →
    exec .ceEntersService s = .next { s with out := [] })

/-! ## Ferry links and landings -/

/-- Training of a ferry link (part of R322, R323 and R324). A link that trains goes from DOWN by signal and code lock,
and by crossing lock, to UP with its measured round trip, and no other link changes. A training that times out starts
from DOWN again. A link that is UP and fails is DOWN, marked as having been down, and no other link changes; its
berths are empty, the frames that wait included, where R346 drops the frame in assembly (log entry 33, DEDUCED). -/
def Obligations.LinkTraining : Prop :=
  ∀ (l : Nat) (s : State), s.linkTrains l = true →
    ((s.link l).st = 1 → exec (.linkSignalDetected l) s =
      .next (State.setLink { s with out := [] } l (fun x => { x with training := true }))) ∧
    ((s.link l).st = 1 → (s.link l).training = true → exec (.linkCodeLock l) s =
      .next (State.setLink { s with out := [] } l (fun x => { x with st := 2 }))) ∧
    ((s.link l).st = 2 → exec (.linkCrossingLock l) s =
      .next (State.setLink { s with out := [] } l (fun x => { x with st := 3 }))) ∧
    ((s.link l).st = 3 → ∀ rt : Nat, Runs (.linkUp l rt) s (fun t =>
      t.linkIsUp l = true ∧ (t.link l).roundTrip = rt ∧ (t.link l).endOld = true ∧ (∀ m, m ≠ l → t.link m = s.link m) ∧
      Touches [.ferry, .free, .out] s t)) ∧
    ((s.link l).st = 2 ∨ (s.link l).st = 3 → exec (.linkTrainingTimeout l) s =
      .next (State.setLink { s with out := [] } l (fun x => { x with st := 1, training := false }))) ∧
    ((s.link l).st = 4 → ∀ cause : Nat, Runs (.linkDown l cause) s (fun t =>
      (t.link l).st = 1 ∧ (t.link l).downSeen = true ∧ (∀ b, t.berth l b = {}) ∧ (∀ m, m ≠ l → t.link m = s.link m) ∧
      Touches [.ferry, .dictionary, .log, .host, .out] s t))

/-- Crossings and peer links (part of R325, R329, R333, R335, R338, R339, R340, R345 and R373). A downstream crossing of a
tray link sends its header alone while the link trains, and with the link UP a window for each berth in turn: an attached
berth's carries the landing's grant record in ACTIVE, DEGRADED and SAFE_HOLD, and none in another state, and a berth without
a landing and without a message sends nothing; TIME gives the crossing's start and the downstream delay. A released crossing
counts its corrected and its lost words and marks a lost one. With the link UP it hands over the windows it brought, and
every other berth's fragment is missing: a record that fails a check is dropped and counted, one of another attachment or
epoch is stale and counted, a malformed one is counted, and an accepted one is its landing's newest, alone, which the Tensor
Engine does not see while the CD does not run; the state, the gate and the intake frame stay, and so do the waiting changes,
since completed messages act at their own rows (log entry 23, DESIGN CHOICE). The newest aggregate and configuration of a
peer link that is UP are kept; those of a link that is no peer link are not. -/
def Obligations.CrossingsAndPeers : Prop :=
  (∀ (l : Nat) (s : State), s.linkTrains l = true → s.peerLink l = false → (s.link l).st ≠ 0 → s.linkIsUp l = false →
    exec (.downstreamCrossingStart l) s =
      .next (State.emit { s with out := [] } (.crossing l (packBytes [(1, 0xC5), (3, s.intake)])))) ∧
  (∀ (l corrected bad : Nat) (ws : List Window) (s : State), s.services = true → l < 49 → 2 ≤ (s.link l).st →
    s.linkIsUp l = false →
    exec (.crossingRelease l corrected bad ws) s = .next (
      let t := ((State.count { s with out := [] } (0x9100 + l) 5 corrected).count (0x9100 + l) 6 bad)
      if 0 < bad then t.setLink l (fun x => { x with uncorrSeen := true }) else t)) ∧
  (∀ (l corrected bad : Nat) (ws : List Window) (s : State), s.services = true → l < 49 → s.linkIsUp l = true →
    Runs (.crossingRelease l corrected bad ws) s (fun t => t.mode = s.mode ∧ t.power.gate = s.power.gate ∧
      t.intake = s.intake ∧ t.ferry.changes = s.ferry.changes)) ∧
  (∀ (l : Nat) (s : State), s.linkTrains l = true → s.peerLink l = false → s.linkIsUp l = true →
    exec (.downstreamCrossingStart l) s = .next ((upTo 128).foldl
      (fun (s' : State) b => s'.sendWindow l (s.timeNs + (s.link l).phase) b)
      (State.emit { s with out := [] } (.crossing l (packBytes [(1, 0xC5), (3, s.intake)]))))) ∧
  (∀ (l start b : Nat) (s : State),
    (∀ n, s.landingAt l b = some n → ∃ m, Output.window l b
      (if s.mode = .active ∨ s.mode = .degraded ∨ s.mode = .safeHold then frameOf 0x02 16 b (s.grantRecord n) else 0) m ∈
        (s.sendWindow l start b).out) ∧
    (s.landingAt l b = none → (s.berth l b).tx = none → (s.berth l b).acks = [] → (s.berth l b).time = false →
      (s.berth l b).config = none → (s.sendWindow l start b).out = s.out) ∧
    ((s.berth l b).acks = [] → (s.berth l b).time = true → ∃ half, half < 2 ∧
      ((s.startMessage l b start true).berth l b).tx = some { data := frameOf 0x20 4 b (packBytes [(8, start),
        (4, ((s.link l).roundTrip - 128 + half) / 2), (1, s.shelfPos), (1, s.slotNo), (2, 0)]), len := 24, next := 0 })) ∧
  (∀ (n : Nat) (s : State), (s.landing n).committed = true → s.grantRecord n =
    packBytes [(2, n), (2, (s.landing n).epoch), (1, 1), (1, (s.landing n).cFlags), (2, (s.landing n).cSeq),
      (2, (s.landing n).cGrant), (2, (s.landing n).cComing), (2, (s.landing n).cWhey), (2, (s.landing n).cComingWhey),
      (8, (s.landing n).cStart), (8, (s.landing n).cWheyStart), (8, s.ferry.commitTime), (1, (s.landing n).cGroup),
      (1, (s.landing n).cProfile)]) ∧
  (∀ (l corrected bad : Nat) (ws : List Window) (s : State), s.services = true → l < 49 → s.linkIsUp l = true → ∀ u : State,
    u = (State.count { s with out := [] } (0x9100 + l) 5 corrected).count (0x9100 + l) 6 bad →
    exec (.crossingRelease l corrected bad ws) s = .next ((upTo 128).foldl (fun (s : State) b =>
      match ws.find? (fun w => decide (w.berth = b)) with
      | some w => (s.recordSlot l b w.record w.uncorrectable).fragment l b w.msg w.uncorrectable
      | none => s.fragment l b 0 true) (if 0 < bad then u.setLink l (fun x => { x with uncorrSeen := true }) else u))) ∧
  (∀ (l b : Nat) (slot : Blob) (s : State),
    s.recordSlot l b slot true = s ∧
    (bytesAt slot 0 1 = 0 → s.recordSlot l b slot false = s) ∧
    (bytesAt slot 0 1 ≠ 0 → ∀ check, check = s.frameCheck l b 76 (bytesAt slot 0 76) true →
      (check ≠ 0 → s.recordSlot l b slot false = s.frameDrop l check) ∧
      (check = 0 → ∀ (r : Blob) (k : Nat), r = bytesAt slot 4 64 → k = bytesAt r 0 2 →
        ((s.landing k).place ≠ some (l, b) ∨ bytesAt r 2 2 ≠ (s.landing k).epoch → s.recordSlot l b slot false =
          ((s.count 0x9020 1).count (0x9100 + l) 7).setLink l (fun x => { x with staleSeen := true })) ∧
        ((s.landing k).place = some (l, b) → bytesAt r 2 2 = (s.landing k).epoch →
          (hintBad (s.timeNs + 500) r = true → s.recordSlot l b slot false = s.count (0x9100 + l) 15) ∧
          (hintBad (s.timeNs + 500) r = false → ∀ t, t = s.recordSlot l b slot false →
            (t.landing k).lastAcc = s.intake + 1 ∧ (t.landing k).status = bytesAt r 5 1 ∧
            (t.landing k).power = bytesAt r 8 4 ∧ (t.landing k).frequency = bytesAt r 0xC 2 ∧
            (t.landing k).ceiling = bytesAt r 0xE 2 ∧ (t.landing k).wheyCap = bytesAt r 0x14 4 ∧
            (t.landing k).barrier = bytesAt r 0x1C 3 ∧ (∀ m, m ≠ k → t.landing m = s.landing m) ∧
            (s.cd.running = false → t.te = s.te)))))) ∧
  (∀ (l p : Nat) (s : State), s.services = true → s.linkIsUp l = true → s.peerLink l = true →
    exec (.peerAggregateReceive l p) s = .next { s with out := [], aggregates := tabPut 0 s.aggregates l (bytesAt p 0 132) } ∧
    exec (.configurationReceive l p) s = .next { s with out := [], peerPubs := tabPut 0 s.peerPubs l (bytesAt p 0 72) }) ∧
  (∀ (l p : Nat) (s : State), s.peerLink l = false →
    exec (.peerAggregateReceive l p) s = .next { s with out := [] } ∧
    exec (.configurationReceive l p) s = .next { s with out := [] })

/-- Attachment of landings (part of R330, R331 and R334). A request that passes its checks waits for the next boundary;
one that does not is counted in OD 0x9020.02 and acknowledged with its status. A detachment of a landing that stands at
that berth waits; of any other it is counted. At the boundary a single attachment that waits takes effect in every state: the
landing stands at its new place under the next epoch, and is acknowledged; where the module grants, its grant content is
committed. -/
def Obligations.Attachment : Prop :=
  (∀ (l b p : Nat) (s : State), s.takesAttach l b = true →
    (s.attachStatus l b p = stOk → exec (.attach l b p) s = .next { s with
      out := []
      ferry := { s.ferry with changes := s.ferry.changes ++
        [{ attach := true, landing := bytesAt p 0 2, link := l, berth := b }] } }) ∧
    (s.attachStatus l b p ≠ stOk → exec (.attach l b p) s = .next ((State.count { s with out := [] } 0x9020 2).setBerth l b
      (fun x => { x with acks := x.acks ++ [(bytesAt p 0 2, s.attachStatus l b p, (s.landing (bytesAt p 0 2)).epoch)] }))) ∧
    ((s.landing (bytesAt p 0 2)).place = some (l, b) → exec (.detach l b p) s = .next { s with
      out := []
      ferry := { s.ferry with changes := s.ferry.changes ++
        [{ attach := false, landing := bytesAt p 0 2, link := l, berth := b }] } }) ∧
    ((s.landing (bytesAt p 0 2)).place ≠ some (l, b) → exec (.detach l b p) s =
      .next (State.count { s with out := [] } 0x9020 2))) ∧
  (∀ (k l b : Nat) (s : State), s.services = true →
    s.ferry.changes = [{ attach := true, landing := k, link := l, berth := b }] →
    (s.landing k).place = none →
    Runs .attachmentChangeEffect s (fun t => (t.landing k).place = some (l, b) ∧
      (t.landing k).epoch = nextEpoch (s.landing k).epoch ∧ t.ferry.changes = [] ∧
      (t.berth l b).acks = (s.berth l b).acks ++ [(k, stOk, nextEpoch (s.landing k).epoch)] ∧
      (s.grants = true → (t.landing k).committed = true) ∧
      (∀ m, (t.link m).endOld = false ∨ 49 ≤ m)))

/-! ## The dictionary, the host port and the field network -/

/-- R11: an object with a subindex above 0 has subindex 0, of type U8 and access RO, and it reads as the highest
subindex in use. -/
def Obligations.SubindexZero : Prop :=
  ∀ (i k : Nat) (e : Entry), k ≠ 0 → entryOf i k = some e →
    ∃ z, entryOf i 0 = some z ∧ z.ty = .u8 ∧ z.acc = .ro ∧
      ∀ s : State, (entryOf i (s.odRead i 0 z)).isSome = true ∧ ∀ m, (entryOf i m).isSome = true → m ≤ s.odRead i 0 z

/-- Reads through the mailbox (part of R13, R16, R18 and R355). A host's read that passes its checks leaves status OK,
the entry's size and its value in the mailbox, raises the mailbox interrupt and answers where the module's connectors
are mated; one that does not leaves its status. -/
def Obligations.DictionaryReads : Prop :=
  ∀ (r : Req) (a : Ask) (u : State) (s : State), r.via = .host → r.signed = false → s.hostReaches = true →
    r.index < 65536 → r.sub < 256 →
    u = State.count { s with out := [], host := s.host.mailboxSet 1 r } 0x1001 6 →
    a = { index := r.index, sub := r.sub, write := false, len := 0, value := 0, signed := none, source := 0 } →
    (∀ e, entryOf r.index r.sub = some e → u.readStatus a = stOk →
      Runs (.dictionaryRead r) s (fun t => t.host.status = stOk ∧ t.host.done = true ∧ t.host.length = e.readBytes ∧
        bytesAt t.host.area 0 e.readBytes = u.odRead r.index r.sub e % 2 ^ (8 * e.readBytes) ∧
        bitAt t.host.intStatus irqMailbox = true ∧
        (s.power.mateHigh = false → .answer .host stOk e.readBytes (u.odRead r.index r.sub e) ∈ t.out) ∧ t.od = u.od ∧
        Touches [.dictionary, .host, .out] s t)) ∧
    (u.readStatus a ≠ stOk → Runs (.dictionaryRead r) s (fun t => t.host.status = u.readStatus a ∧ t.host.done = true ∧
      Touches [.dictionary, .log, .host, .out] s t))

/-- Writes of the dictionary (part of R13, R15 and R16). Every admitted write that arrives whole is carried out, beside the
bookkeeping of its answer: a command entry is executed, with the module restart due where an image activation asks for it,
and any other entry takes its value. Such an entry then reads as the value written, and, but for those of ripening
(0x3020) and of the link modes (0x9001), whose writes can count, no other entry changes; a configuration entry also sets
the configuration's generation and makes its digest due. A refused write leaves every entry but the counters of requests,
of refusals and of log entries as it was. -/
def Obligations.DictionaryWrites : Prop :=
  (∀ (h : ReqHead) (i k n v : Nat) (s : State), s.admits h i k n v → (i = 0xB072 → bitAt v 7 = false) →
    Runs (.dictionaryWrite (headReq h i k n v)) s (Answered ((s.arrival h i k n v).commit (headAsk h i k n v)))) ∧
  (∀ (h : ReqHead) (v : Nat) (s : State), s.admits h 0xB072 0 1 v → bitAt v 7 = true →
    ∀ c : State, c = (s.arrival h 0xB072 0 1 v).commit (headAsk h 0xB072 0 1 v) →
      Runs (.dictionaryWrite (headReq h 0xB072 0 1 v)) s (Answered
        (if (s.arrival h 0xB072 0 1 v).imageGood then { c with power := { c.power with restart := some [s.power.straps] } }
         else c))) ∧
  (∀ (a : Ask) (e : Entry) (s : State), entryOf a.index a.sub = some e →
    s.commit a = if e.acc = .cmd then s.execute a else s.setValue a.index a.sub a.value e.config) ∧
  (∀ (i k v : Nat) (config : Bool) (s : State), (s.setValue i k v config).odv i k = v ∧
    (i ≠ 0x3020 → i ≠ 0x9001 → ∀ j m, okey j m ≠ okey i k → (s.setValue i k v config).odv j m = s.odv j m) ∧
    (config = true → (s.setValue i k v config).generation = u32Max ∧ (s.setValue i k v config).digestDue = true) ∧
    (config = false → (s.setValue i k v config).generation = s.generation)) ∧
  (∀ (h : ReqHead) (i k n v : Nat) (s : State), h.wf = true → i < 65536 → k < 256 → n < 65536 → v < 2 ^ (8 * n) →
    s.takesFrom h = true → (s.arrival h i k n v).writeStatus (headAsk h i k n v) ≠ stOk →
    Runs (.dictionaryWrite (headReq h i k n v)) s (fun t =>
      Touches [.dictionary, .log, .host, .net, .out] s t ∧
      (∀ j m, okey j m ≠ okey 0x1001 6 → okey j m ≠ okey 0x1020 1 → j ≠ 0xC010 → okey j m ≠ okey 0xC100 3 →
        okey j m ≠ okey 0xC100 4 → t.odv j m = s.odv j m)))

/-- The mailbox and the transfers of the field network (part of R355, R362, R364 and R365). A mailbox operation that is
neither a read nor a write ends with status RANGE and raises the mailbox interrupt. A SEGMENT at its place, and not the
last, extends its transfer and is acknowledged; a SEGMENT elsewhere and an ABORT are counted and abandon the transfer,
and 100 ms of silence abandon it; a frame without a transfer, or one that is malformed, is dropped. A transfer abandoned
is no longer open. -/
def Obligations.MailboxAndDap : Prop :=
  (∀ s : State, s.hostReaches = true → Runs .mailboxBadOp s (fun t => t.host.status = stRange ∧ t.host.done = true ∧
    t.host.busy = false ∧ bitAt t.host.intStatus irqMailbox = true ∧ Touches [.dictionary, .log, .host, .out] s t)) ∧
  (∀ (p m g : Nat) (s : State), s.answers = true →
    (s.transferOf p m g = none → ∀ (o d n : Nat),
      exec (.dapSegment p m g o d n) s = .next (State.dapDrop { s with out := [] }) ∧
      exec (.dapAbort p m g) s = .next (State.dapDrop { s with out := [] }) ∧
      exec (.dapTransferTimeout p m g) s = .next { s with out := [] } ∧
      exec (.dapFrameDrop p) s = .next (State.dapDrop { s with out := [] })) ∧
    (∀ x : Transfer, s.transferOf p m g = some x →
      exec (.dapAbort p m g) s = .next ((State.count { s with out := [] } 0x1020 1).abandon x) ∧
      exec (.dapTransferTimeout p m g) s = .next (State.abandon { s with out := [] } x) ∧
      (∀ (d n : Nat), x.got + n < streamLen x.len x.signed →
        ∀ u : Transfer, u = { x with data := x.data + bytesAt d 0 n <<< (8 * x.got), got := x.got + n } →
        exec (.dapSegment p m g x.got d n) s = .next (State.sendAck
          { State.count { s with out := [] } 0x1020 1 with
            net := { s.net with open_ := s.net.open_.map (fun y => if x.same y then u else y) } } u)) ∧
      (∀ (o d n : Nat), o ≠ x.got → exec (.dapSegment p m g o d n) s =
        .next ((State.count { s with out := [] } 0x1020 1).abandon x))) ∧
    (∀ x : Transfer, (s.abandon x).net.open_ = s.net.open_.filter (fun y => !x.same y)))

/-- The host port (part of R9, R353, R359, R410 and R411). An irregular access of BAR0 is counted and reads 0; a regular
read answers what is read. A read of a low half answers it and latches the high half, which the next read of the high half
takes. A write of INT_STATUS clears the causes written as one and no other; INT_ENABLE is stored; a write of one or two
words reaches the registers at its words, but for a word of the mailbox while it is busy, whose write is counted; LOG_LOST
is cleared by writing one. A reset of the PCIe function clears the mailbox, the interrupt registers and the MSI-X table,
leaves D3hot and is counted; a function-level reset keeps the link. D3hot and D0 change the power state alone. That a reset
keeps INT_MAP and leaves D3hot, and that a function-level reset keeps the link's rate and width, is log entry 73 (DEDUCED);
that an irregular 64-bit access is counted once, and that MIRROR_READ reads any offset of BAR0, is log entry 78 (DESIGN
CHOICE). -/
def Obligations.HostPort : Prop :=
  (∀ (o w : Nat) (s : State), s.hostReaches = true → irregular o w false = true →
    exec (.mirrorRead o w) s = .next ((State.count { s with out := [] } 0x1001 7).emit (.bar0 0)) ∧
    exec (.irregularBar0Access o w false) s = .next ((State.count { s with out := [] } 0x1001 7).emit (.bar0 0))) ∧
  (∀ (o w : Nat) (s : State), s.hostReaches = true → irregular o w true = true →
    exec (.irregularBar0Access o w true) s = .next (State.count { s with out := [] } 0x1001 7)) ∧
  (∀ (o w : Nat) (s : State), s.hostReaches = true → irregular o w false = false →
    exec (.mirrorRead o w) s = .next ((State.bar0Read { s with out := [] } o w).2.emit
      (.bar0 (State.bar0Read { s with out := [] } o w).1)) ∧
    Runs (.mirrorRead o w) s (fun t => Touches [.host, .out, .free, .dictionary, .log, .cd, .te, .hold] s t)) ∧
  (∀ s : State, s.hostReaches = true →
    exec (.loRegisterRead .frame) s = .next (State.emit { s with
      out := [], host := { s.host with latchFrame := some (hiHalf s.frame) } } (.bar0 (loHalf s.frame))) ∧
    exec (.loRegisterRead .logNext) s = .next (State.emit { s with
      out := [], host := { s.host with latchNext := some (hiHalf s.log.next) } } (.bar0 (loHalf s.log.next))) ∧
    exec (.loRegisterRead .logOldest) s = .next (State.emit { s with
      out := [], host := { s.host with latchOldest := some (hiHalf s.log.oldest) } } (.bar0 (loHalf s.log.oldest)))) ∧
  (∀ (f : Nat) (s : State), s.host.latchFrame = some f → (s.readHi 0xC).1 = f ∧ (s.readHi 0xC).2.host.latchFrame = none) ∧
  (∀ (mask : Nat) (s : State), s.hostReaches = true →
    exec (.intStatusClear mask) s = .next { s with
      out := []
      host := { s.host with intStatus := maskOf 16 (fun n => bitAt s.host.intStatus n && !bitAt mask n) } }) ∧
  (∀ (v : Nat) (s : State), s.hostReaches = true →
    Runs (.intEnableWrite v) s (fun t => t.host.intEnable = v % 2 ^ 16 ∧ t.host.intStatus = s.host.intStatus ∧
      Touches [.host, .out] s t)) ∧
  (∀ (o v : Nat) (s : State), s.hostReaches = true → irregular o 4 true = false →
    (s.heldWord o = false → exec (.registerWrite o 4 v) s = .next (State.writeWord { s with out := [] } o (v % 2 ^ 32))) ∧
    (s.heldWord o = true → exec (.registerWrite o 4 v) s = .next (State.count { s with out := [] } 0x1001 7))) ∧
  (∀ (o v : Nat) (s : State), s.hostReaches = true → irregular o 8 true = false → s.heldWord o = false →
    s.heldWord (o + 4) = false →
    exec (.registerWrite o 8 v) s =
      .next ((State.writeWord { s with out := [] } o (v % 2 ^ 32)).writeWord (o + 4) (v / 2 ^ 32 % 2 ^ 32))) ∧
  (∀ (v : Nat) (s : State), s.hostReaches = true →
    exec (.registerWrite 0 4 v) s = .next { s with
      out := [], host := { s.host with logLost := s.host.logLost && !bitAt (v % 2 ^ 32) 19 } }) ∧
  (∀ s : State, s.answers = true →
    Runs (.controllerReset .flr) s (fun t => t.host.linkRate = s.host.linkRate ∧ t.host.linkWidth = s.host.linkWidth)) ∧
  (∀ (k : CtlReset) (s : State), s.answers = true →
    Runs (.controllerReset k) s (fun t => t.host.d3hot = false ∧ t.host.busy = false ∧ t.host.done = false ∧
      t.host.intStatus = 0 ∧ t.host.intEnable = 0 ∧ t.host.msix = [] ∧ t.host.pba = 0 ∧ t.host.intMap = s.host.intMap ∧
      t.odv 0x1001 5 = min (s.odv 0x1001 5 + 1) u32Max ∧ Touches [.dictionary, .host, .free, .out] s t)) ∧
  (∀ s : State, s.answers = true →
    exec .d3hotTransition s = .next { s with out := [], host := { s.host with d3hot := true } } ∧
    exec .d0Return s = .next { s with out := [], host := { s.host with d3hot := false } })

/-- The field network (part of R358, R370, R394 and R407). A link of it that changes is noted and raises FIELD; one
reported as it is changes nothing. Outside BOOT the publications go out at each full second, and no sooner. A change of
the digest or the generation, or one that waits, is published where the last such publication lies 100 ms back, and then
waits no more. An admitted describe command leaves the description of the entry it names; an admitted log cursor is
stored and no other entry changes but the counters of requests. -/
def Obligations.FieldNetwork : Prop :=
  (∀ (up : Bool) (s : State), s.services = true → s.net.linkA ≠ up →
    Runs (.fnLinkStatusChange 0 up) s (fun t => t.net = { s.net with linkA := up } ∧
      bitAt t.host.intStatus irqField = true ∧ Touches [.net, .host, .out] s t)) ∧
  (∀ (up : Bool) (s : State), s.services = true → s.net.linkA = up →
    exec (.fnLinkStatusChange 0 up) s = .next { s with out := [] }) ∧
  (∀ s : State, s.services = true → s.mode ≠ .boot → s.intake % 1000000 = 0 →
    exec .periodicPublication s = .next (State.publishAll { s with out := [] })) ∧
  (∀ s : State, s.services = true → s.mode ≠ .boot → s.intake % 1000000 ≠ 0 →
    exec .periodicPublication s = .next { s with out := [] }) ∧
  (∀ s : State, s.services = true → s.mode ≠ .boot →
    (s.net.pubDigest ≠ s.digest ∨ s.net.pubGeneration ≠ s.generation ∨ s.net.pubDue = true) →
    (s.net.pubTime = 0 ∨ s.net.pubTime + 100000 ≤ s.intake) →
    Runs .changePublication s (fun t => t.net.pubDigest = s.digest ∧ t.net.pubGeneration = s.generation ∧
      t.net.pubDue = false ∧ t.net.pubTime = s.intake)) ∧
  (∀ (h : ReqHead) (arg : Nat), RowDoes (.describe h arg) h 0xC020 0 4 arg (done 0xC020 0 (fun s =>
    { s with description := describe (fld arg 0 16) (fld arg 16 8) }))) ∧
  (∀ (h : ReqHead) (c v : Nat) (s : State), c < 3 → s.admits h 0xC102 (c + 1) 8 v →
    Runs (.logCursorWrite h c v) s (fun t => t.odv 0xC102 (c + 1) = v ∧
      (∀ j m, okey j m ≠ okey 0xC102 (c + 1) → okey j m ≠ okey 0x1001 6 → okey j m ≠ okey 0x1020 1 → t.odv j m = s.odv j m)))

/-! ## The Cell Link and stored energy -/

/-- The Cell Link (part of R426, R428, R430 and R432). An answer nobody waits for changes nothing. A board silent at an
exchange is counted and the exchange has failed, and an answer of another type than the one awaited is dropped. A good
HELLO answer of the board the dictionary describes is followed by CONFIGURE; after a good CONFIGURE answer without a fault
the port goes on; good DATA is kept, with its status. A retry of a silent or failed port sends HELLO. A sweep begins with
its sample under the sweep's number, reads the only populated board where it answered the sample, and closes the cells
before the energy estimates; in a state that does not sweep there is none. That SWEEP_READ ends the wait of every SAMPLE
not yet sent is log entry 108 (DESIGN CHOICE). -/
def Obligations.CellLink : Prop :=
  (∀ (p : Nat) (f : CellFrame) (s : State), s.sweeping = true →
    ((s.port p).waiting = none →
      exec (.cellAnswerTimeout p) s = .next { s with out := [] } ∧ exec (.helloAck p f) s = .next { s with out := [] } ∧
      exec (.configureAck p f) s = .next { s with out := [] } ∧ exec (.cellData p f) s = .next { s with out := [] }) ∧
    (∀ typ n, (s.port p).waiting = some (typ, n) →
      exec (.cellAnswerTimeout p) s = .next ((State.count { s with out := [] } (0x5100 + p) 13).answerFailed p typ 1) ∧
      (typ ≠ 1 → exec (.helloAck p f) s = .next (State.answerDropped { s with out := [] } p typ)) ∧
      (typ ≠ 2 → exec (.configureAck p f) s = .next (State.answerDropped { s with out := [] } p typ)) ∧
      (typ ≠ 4 → exec (.cellData p f) s = .next (State.answerDropped { s with out := [] } p typ))) ∧
    (∀ n, (s.port p).waiting = some (1, n) → s.answerGood p 0x81 8 f = true → (s.port p).st = 1 →
      bytesAt f.payload 0 1 = s.odv (0x5100 + p) 7 → bytesAt f.payload 1 1 = s.odv (0x5100 + p) 6 →
      bytesAt f.payload 2 1 = s.odv (0x5100 + p) 8 →
      exec (.helloAck p f) s = .next ((State.setPort (State.takeStatus (State.setPort { s with out := [] } p (fun o =>
        { o with waiting := none, delay := (f.turnaround - 4000) / 2, firmware := bytesAt f.payload 4 2,
                 boardType := bytesAt f.payload 0 1, boardN := bytesAt f.payload 1 1,
                 boardT := bytesAt f.payload 2 1 })) p
        (bytesAt f.payload 6 2)) p (fun o => { o with greeted := true })).sendConfigure p)) ∧
    (∀ n, (s.port p).waiting = some (2, n) → s.answerGood p 0x82 2 f = true → f.payload % 65536 = 0 →
      exec (.configureAck p f) s = .next ((State.setPort { s with out := [] } p
        (fun o => { o with waiting := none })).portGoOn p)) ∧
    (∀ n, (s.port p).waiting = some (4, n) →
      s.answerGood p 0x84 (8 + 2 * (s.port p).cfg.n + 2 * (s.port p).cfg.t) f = true →
      exec (.cellData p f) s = .next ((State.setPort { s with out := [] } p (fun o => { o with
        waiting := none, data := some f.payload,
        configure := o.configure || bitAt (bytesAt f.payload 2 2) 4 })).takeStatus p (bytesAt f.payload 2 2))) ∧
    (s.populated p = true → ((s.port p).st = 3 ∨ (s.port p).st = 4) →
      exec (.portRetry p) s = .next (State.sendHello { s with out := [] } p))) ∧
  (∀ s : State, s.sweeping = true → Runs .sweepSample s (fun t => t.cells.inSweep = true ∧
    t.cells.sweep = (s.frame + 625) / 2500 ∧ t.mode = s.mode ∧ t.power.gate = s.power.gate)) ∧
  (∀ s : State, s.sweeping = true → ∀ u : State,
    u = { s with out := [], cells := { s.cells with ports := tabMap {} (fun o => { o with sampleDue := false }) s.cells.ports } } →
    (s.populatedPorts = [] → exec .sweepRead s = .next u) ∧
    (∀ p, s.populatedPorts = [p] → (u.port p).st = 2 → (u.port p).sample ≠ none →
      exec .sweepRead s = .next ((u.setPort p (fun o => { o with reads := 0 })).sendRead p))) ∧
  (∀ s : State, s.sweeping = true → s.cells.inSweep = true →
    exec .sweepClose s = .next (State.sweepCloseSe (State.sweepCloseCells { s with out := [] }))) ∧
  (∀ s : State, s.sweeping = false →
    exec .sweepSample s = .next { s with out := [] } ∧ exec .sweepRead s = .next { s with out := [] } ∧
    exec .sweepClose s = .next { s with out := [] })

/-- Stored energy (part of R65, R445, R447, R448, R450, R456, R460 and R462). A bit of the current-sense stream adds or takes
its channel's step in the integrator and in the window's count, and the charge falls by the integrator's change; a lost
stream does not count. A loss holds the last current and is logged, as is the return. The
charge trim adds to all 8 channels. A channel whose full conditions have held for the taper time has its capacity as its
charge. The limits of a channel that is not used are zero. An admitted reset of the learned values gives each channel
named the dictionary's capacity. The record of the learned values is written when it is due and the NVR is free, and is
then no longer due; without a first write there is none before 600 s of module time (log entry 109, DESIGN CHOICE). -/
def Obligations.StoredEnergy : Prop :=
  (∀ (ch : Nat) (bit : Bool) (s : State), s.up = true → ch < 8 → (s.chan ch).csLost = false →
    ∀ d : Int, d = (if bit then (s.odv (0x6100 + ch) 5 : Int) else -(s.odv (0x6100 + ch) 5 : Int)) →
    Runs (.currentSenseBit ch bit) s (fun t =>
      (t.chan ch).bits = (s.chan ch).bits + d ∧ (t.chan ch).integ = wrap64 ((s.chan ch).integ + d) ∧
      (t.chan ch).q = (s.chan ch).q - d ∧
      (∀ c, c ≠ ch → t.chan c = s.chan c) ∧ t.mode = s.mode ∧ t.power = s.power)) ∧
  (∀ (ch : Nat) (bit : Bool) (s : State), s.up = true → (s.chan ch).csLost = true →
    exec (.currentSenseBit ch bit) s = .next { s with out := [] }) ∧
  (∀ (ch : Nat) (s : State), s.up = true → ch < 8 → (s.chan ch).csLost = false →
    exec (.csLost ch) s = .next ((State.setChan { s with out := [] } ch (fun c => { c with
      csLost := true, countEst := true, held := (s.chan ch).current, lossTime := 0, fullSince := none, clean := false })).seLog
        0x6106 ch
      (packBytes [(1, ch), (1, 1), (2, 0), (4, 0)])) ∧
    exec (.csReturn ch) s = .next { s with out := [] }) ∧
  (∀ (ch : Nat) (s : State), s.up = true → ch < 8 → (s.chan ch).csLost = true →
    exec (.csReturn ch) s = .next ((State.setChan { s with out := [] } ch (fun c => { c with csLost := false })).seLog 0x6106 ch
      (packBytes [(1, ch), (1, 0), (2, 0), (4, (s.chan ch).lossTime)]))) ∧
  (∀ s : State, s.up = true →
    exec .chargeTrimTick s = .next ((upTo 8).foldl (fun s ch => s.addCharge ch (-(s.trim ch))) { s with out := [] })) ∧
  (∀ (ch : Nat) (s : State), s.up = true → ch < 8 → s.fullNow ch = true → s.taperDone ch = true → (s.chan ch).full = false →
    Runs (.fullDetect ch) s (fun t => (t.chan ch).full = true ∧ (t.chan ch).q = (s.capacity ch : Int) * 100000 ∧
      (t.chan ch).anchor = some (s.chan ch).integ ∧ (∀ c, c ≠ ch → t.chan c = s.chan c) ∧ t.mode = s.mode)) ∧
  (∀ s : State, s.up = true → Runs .limitUpdate s (fun t => t.mode = s.mode ∧ t.power = s.power ∧
    (∀ ch, ch < 8 → s.chUsed ch = false → (t.chan ch).disLimit = 0 ∧ (t.chan ch).chgLimit = 0 ∧ (t.chan ch).contLimit = 0))) ∧
  (∀ (h : ReqHead) (mask : Nat), RowDoes (.resetLearnedValues h mask) h 0x6002 0 1 mask
    (done 0x6002 0 (fun s => s.resetLearned mask))) ∧
  (∀ (mask ch : Nat) (s : State), ch < 8 → bitAt mask ch = true →
    ((s.resetLearned mask).chan ch).cap = some (s.odv (0x6100 + ch) 6) ∧ ((s.resetLearned mask).chan ch).full = false ∧
    ((s.resetLearned mask).chan ch).resetQ = true) ∧
  (∀ s : State, s.services = true → s.se.lastWrite = none → s.se.pending = true → s.power.inRange = true →
    s.power.leaving = false → s.nvr.writing = none →
    exec .seRecordWrite s = .next { s with
      out := []
      nvr := { s.nvr with writing := some ⟨.se, s.nvr.nextSeq .se, State.seBytes { s with out := [] } (s.nvr.nextSeq .se)⟩ }
      se := { s.se with pending := false, lastWrite := some s.intake } }) ∧
  (∀ s : State, s.services = true → s.se.lastWrite = none → s.se.pending = false → s.intake < 600000000 →
    exec .seRecordWrite s = .next { s with out := [] })

/-! ## Rails, phases, power and temperature -/

/-- The rails (part of R477, R478, R479 and R481). An event of a rail finds the rails that rise before it power-good (log
entry 41). An over-voltage, overcurrent or under-voltage of a rail that is on latches it with its cause; a rail that is
off has no fault. A SIOD rail that latches shuts the module down, in the frame of SHUTDOWN_LATCHED that is the model's choice (log entry 90,
DEDUCED); a CD rail that latches stays so with its cause and stops
the CD. A short of a CD rail that ramps stops the CD and waits for its one retry; a short on the retry latches the rail.
The retry starts the CD where it may start, and raises the rails of the SIOD from the one that waits. An admitted release
takes the latches of the CD rails and of the PLL, and leaves the thermal latch. -/
def Obligations.Rails : Prop :=
  (∀ (j : Nat) (m : RailMeas) (s : State), s.up = true → ∀ u : State, u = State.rampReach { s with out := [] } j →
    (u.railOn j = true →
      exec (.railOverVoltage j m) s = .next (u.latchRail j 0x20 m) ∧
      exec (.railOvercurrent j m) s = .next (u.latchRail j 0x23 m) ∧
      exec (.railUnderVoltage j m) s = .next (u.latchRail j 0x24 m)) ∧
    (u.railOn j = false →
      exec (.railOverVoltage j m) s = .next u ∧ exec (.railOvercurrent j m) s = .next u ∧
      exec (.railUnderVoltage j m) s = .next u ∧ exec (.softStartShort j m) s = .next u)) ∧
  (∀ (j : Nat) (s : State), (∀ g, g ∈ s.mpc.rising → j ∉ g) → s.rampReach j = s) ∧
  (∀ (j cause : Nat) (m : RailMeas) (s : State), s.up = true → j < 5 → Shut (s.latchRail j cause m)) ∧
  (∀ (j cause : Nat) (m : RailMeas) (s : State), 5 ≤ j → j < 13 →
    ((s.latchRail j cause m).rail j).st = 4 ∧ ((s.latchRail j cause m).rail j).cause = cause ∧
    (s.latchRail j cause m).cd.running = false ∧ (s.latchRail j cause m).cd.due = false ∧
    (s.latchRail j cause m).mode = s.mode ∧ (s.latchRail j cause m).power = s.power) ∧
  (∀ (j : Nat) (m : RailMeas) (s : State), s.up = true → 5 ≤ j → j < 13 → ∀ u : State,
    u = State.rampReach { s with out := [] } j → (u.rail j).st = 1 →
    ((u.rail j).retried = false → Runs (.softStartShort j m) s (fun t =>
      (t.rail j).st = 3 ∧ (t.rail j).retried = true ∧ t.cd.running = false ∧ t.cd.retry = true ∧ t.cd.due = true ∧
      t.mode = s.mode ∧ t.power = s.power)) ∧
    ((u.rail j).retried = true → exec (.softStartShort j m) s = .next (u.latchRail j 0x22 m))) ∧
  (∀ (j : Nat) (inp : CdStartInputs) (s : State), s.up = true →
    ((s.rail j).st ≠ 3 → exec (.softStartRetry j inp) s = .next { s with out := [] }) ∧
    ((s.rail j).st = 3 → 5 ≤ j → ∀ u : State,
      u = State.cdDue { s with out := [], cd := { s.cd with retry := false },
                               mpc := { s.mpc with rails := tabMod {} s.mpc.rails j (fun r => { r with st := 0 }) } } →
      exec (.softStartRetry j inp) s = .next (if u.cdMayStart then u.cdStart inp else u)) ∧
    ((s.rail j).st = 3 → j < 5 → s.mode = .boot → inp.highSideShort = none → ∀ u : State,
      u = State.raiseRails { s with out := [] } (((upTo 5).filter (j ≤ ·)).map (fun k => [k])) →
      exec (.softStartRetry j inp) s =
        .next { u with power := { u.power with servicesUp := !u.power.bootStopped } })) ∧
  (∀ h : ReqHead, RowDoes (.latchRelease h 1) h 0x7041 0 1 1 (done 0x7041 0 State.releaseLatches)) ∧
  (∀ s : State, s.releaseLatches.cd.pllLatch = false ∧ s.releaseLatches.cd.thermalLatch = s.cd.thermalLatch ∧
    (∀ j, 5 ≤ j → j < 13 → (s.rail j).st = 4 → (s.releaseLatches.rail j).st = 0) ∧ s.releaseLatches.mode = s.mode)

/-- Phases and hints (part of R472, R474, R475 and R476). A shedding evaluation brings 32 phases where shedding is off, keeps
them in the hold-off, adds the phases wanted, and sheds one after 64 evaluations below. An abort brings all 32 back and holds shedding off; the hold-off ends. The
phases of a rail that is up rotate. The oldest hint of a unit becomes a window ahead, its credit returns and shedding is
aborted; the only window, when it begins, feeds its rise forward. -/
def Obligations.PhasesAndHints : Prop :=
  (∀ (p n : Nat) (s : State), s.up = true → p = s.mpc.phases - b2n s.mpc.shedding → n = s.phaseTarget →
    Runs .phaseShedEvaluation s (fun t =>
      (s.shedEnabled = false → t.mpc.phases = 32) ∧
      (s.shedEnabled = true → s.mpc.holdoff = true → t.mpc.phases = p) ∧
      (s.shedEnabled = true → s.mpc.holdoff = false → p ≤ n → t.mpc.phases = n ∧ t.mpc.below = 0) ∧
      (s.shedEnabled = true → s.mpc.holdoff = false → n < p → t.mpc.phases = p ∧ t.mpc.below = s.mpc.below + 1 ∧
        t.mpc.shedding = decide (64 ≤ s.mpc.below + 1 ∧ 16 ≤ s.mpc.sinceShed + 1)) ∧
      Touches [.mpc, .clk, .free, .out] s t)) ∧
  (∀ (byHint : Bool) (s : State), s.up = true →
    (s.shedEnabled = true → (s.mpc.shedding = true ∨ s.mpc.phases < 32) → exec (.shedAbort byHint) s = .next (State.count
      { s with out := [], mpc := { s.mpc with phases := 32, shedding := false, below := 0, holdoff := true } } 0x7042 3)) ∧
    (s.shedEnabled = false → exec (.shedAbort byHint) s = .next { s with out := [] })) ∧
  (∀ s : State, s.up = true →
    exec .shedHoldoffEnd s = .next { s with out := [], mpc := { s.mpc with holdoff := false } }) ∧
  (∀ (j : Nat) (s : State), s.up = true → j < 13 → (s.rail j).st = 2 → s.railPhases j ≠ 0 →
    exec (.phaseRotation j) s = .next { s with
      out := []
      mpc := { s.mpc with rails := tabMod {} s.mpc.rails j (fun r =>
        { r with rotation := (r.rotation + 1) % s.railPhases j }) } }) ∧
  (∀ (j : Nat) (s : State), s.up = true → (s.rail j).st ≠ 2 → exec (.phaseRotation j) s = .next { s with out := [] }) ∧
  (∀ (unit : Nat) (s : State), s.up = true → s.te.hintQ.find? (fun h => decide (h.1 = unit)) = none →
    exec (.mpcHintReceive unit) s = .next { s with out := [] }) ∧
  (∀ (unit : Nat) (h : Nat × HintMsg) (s : State), s.up = true →
    s.te.hintQ.find? (fun h => decide (h.1 = unit)) = some h → h.2.source < 0x80 →
    (∀ x, x ∈ s.mpc.windows → x.1.source < 0x80) →
    exec (.mpcHintReceive unit) s = .next (State.shedAbort { s with
      out := []
      te := { s.te with hintQ := s.te.hintQ.erase h, credits := tabMod 0 s.te.credits (3 * 128 + unit) (· - 1) }
      mpc := { s.mpc with windows := s.mpc.windows ++ [(h.2, false)] } })) ∧
  (∀ (w : HintMsg) (s : State), s.up = true → s.mpc.windows = [(w, false)] →
    exec .hintWindowStart s = .next { s with
      out := []
      mpc := { s.mpc with windows := [(w, true)],
                          feedForward := natRat (1000 * s.predicted [w] / (s.mpc.phases : Rat)) } }) ∧
  (∀ s : State, s.up = true → s.mpc.ahead = [] → exec .hintWindowStart s = .next { s with out := [] })

/-- Power measurement (part of R471, R484, R485, R486, R488 and R489). A slot boundary notes the place of the last SYNC_IN
edge while SYNC_IN is valid, which the model takes from the slot's operand (log entry 92, DESIGN CHOICE), takes up the calibration that waits,
keeps the slot's current, gates by the level before it, and moves the current controller's level up where the limit is
exceeded, down after 500 slots below nine tenths of it, and not otherwise; the loader's copies that waited for the slot go
out, and their writes count. The calibration follows the measured energy
between 0.8 and 1.25. A sample of the input power is added to the mean, published after 500 samples, and to the energy. -/
def Obligations.PowerMeasurement : Prop :=
  (∀ (r : SlotReadings) (s : State), s.up = true → Runs (.powerSlotBoundary r) s (fun t =>
    t.clk.syncPos = (if s.clk.syncIn then r.edge % 4000 else s.clk.syncPos) ∧ t.mpc.k = s.mpc.nextK.getD s.mpc.k ∧ t.mpc.nextK = none ∧ t.mpc.slot = s.intake / 2 % 16 ∧
    t.mpc.slotAmps = (r.deciAmp :: s.mpc.slotAmps).take 500 ∧ t.mpc.duty = lambdaDuty s.fixedPoint s.lambda ∧
    (10 * s.odv 0x7030 5 < r.deciAmp → t.mpc.lI = min (s.mpc.lI + 1) s.lambdaMax ∧ t.mpc.iQuiet = 0) ∧
    (r.deciAmp ≤ 10 * s.odv 0x7030 5 → 9 * s.odv 0x7030 5 ≤ r.deciAmp → t.mpc.lI = s.mpc.lI ∧ t.mpc.iQuiet = 0) ∧
    (r.deciAmp < 9 * s.odv 0x7030 5 → t.mpc.lI = if s.mpc.iQuiet + 1 = 500 then s.mpc.lI - 1 else s.mpc.lI) ∧
    t.mpc.lCap = s.mpc.lCap ∧ t.mpc.lT = s.mpc.lT ∧ Touches [.dictionary, .mpc, .clk, .cd, .te, .out] s t)) ∧
  (∀ (measured : Nat) (s : State), s.up = true → s.cd.running = true → s.mpc.estEnergy ≠ 0 →
    exec (.calibrationUpdate measured) s = .next { s with
      out := []
      mpc := { s.mpc with nextK := some (clampR ((measured : Rat) / s.mpc.estEnergy) (4 / 5) (5 / 4)), estEnergy := 0 } }) ∧
  (∀ (measured : Nat) (s : State), s.up = true → s.cd.running = false →
    exec (.calibrationUpdate measured) s = .next { s with out := [], mpc := { s.mpc with estEnergy := 0 } }) ∧
  (∀ (mv ma : Nat) (s : State), s.up = true → Runs (.inputPowerSample mv ma) s (fun t =>
    t.power.vin = mv ∧ t.power.iin = ma ∧ t.power.gate = s.power.gate ∧
    (s.power.powerCount = 499 → t.power.powerMean = (s.power.powerAcc + mv * ma) / 500000000 ∧ t.power.powerAcc = 0 ∧
      t.power.powerCount = 0) ∧
    (s.power.powerCount < 499 → t.power.powerMean = s.power.powerMean ∧ t.power.powerAcc = s.power.powerAcc + mv * ma ∧
      t.power.powerCount = s.power.powerCount + 1) ∧
    (s.odv 0x4030 10 + (s.power.energyFrac + 2 * (mv * ma)) / 1000000 < 2 ^ 64 →
      1000000 * t.odv 0x4030 10 + t.power.energyFrac =
        1000000 * s.odv 0x4030 10 + s.power.energyFrac + 2 * (mv * ma)) ∧
    Touches [.power, .dictionary, .out] s t))

/-- Temperatures (part of R489, R491, R494, R495, R497 and R501). The thermal controller's level rises while a threshold
is reached, falls in the tenth update in a row that is 5 °C cooler, and stays otherwise. While the headroom criterion
holds and no slew runs the point heads for the next one, up to 7. A sensor read without an earlier trip changes the
sensors and what their changes log; a SIOD sensor at its trip in a second read shuts the module down, in the frame of SHUTDOWN_LATCHED that is the model's
choice (log entry 90, DEDUCED); a CD trip latches
the CD off. A good reading of a sensor is the one used. -/
def Obligations.Temperatures : Prop :=
  (∀ (hot cool : Bool) (s : State), s.up = true →
    hot = (decide (signed 32 (s.odv 0x7030 1) ≤ s.hotCd) || decide (signed 32 (s.odv 0x7030 2) ≤ s.hotHbm)) →
    cool = (decide (s.hotCd ≤ signed 32 (s.odv 0x7030 1) - 500) && decide (s.hotHbm ≤ signed 32 (s.odv 0x7030 2) - 500)) →
    Runs .thermalControllerUpdate s (fun t =>
      (hot = true → t.mpc.lT = min (s.mpc.lT + 1) s.lambdaMax ∧ t.mpc.tQuiet = 0) ∧
      (hot = false → cool = false → t.mpc.lT = s.mpc.lT ∧ t.mpc.tQuiet = 0) ∧
      (hot = false → cool = true → s.mpc.tQuiet = 9 → t.mpc.lT = s.mpc.lT - 1 ∧ t.mpc.tQuiet = 0) ∧
      (hot = false → cool = true → s.mpc.tQuiet ≠ 9 → t.mpc.lT = s.mpc.lT ∧ t.mpc.tQuiet = s.mpc.tQuiet + 1) ∧
      t.mpc.lI = s.mpc.lI ∧ t.mpc.lCap = s.mpc.lCap ∧ Touches [.mpc, .clk, .dictionary, .log, .host, .out] s t)) ∧
  (∀ s : State, s.up = true → s.cd.running = true → s.headroomHolds = true → s.clk.target = none → s.clk.point < 7 →
    exec .opportunisticRaise s = .next { s with
      out := []
      clk := { s.clk with target := some (s.clk.point + 1),
                          vddC := if s.clk.divider < pointSteps (s.clk.point + 1) then pointMv (s.clk.point + 1)
                                  else s.clk.vddC } }) ∧
  (∀ s : State, s.up = true → s.headroomHolds = false → s.mayRun s.clk.heading = true →
    exec .opportunisticRaise s = .next { s with out := [] }) ∧
  (∀ (rs : List Int) (s : State), s.up = true → (∀ i, (s.sensor i).trip = false) →
    Runs (.sensorRead rs) s (fun t =>
      (∀ i, i < 95 → t.sensor i = { (Sensor.read s.mpc.sensors rs i).1 with
        trip := tripAt i (Sensor.read s.mpc.sensors rs i).1.used, tripped := false }) ∧
      Touches [.mpc, .dictionary, .log, .host, .out] s t)) ∧
  (∀ (i : Nat) (rs : List Int) (s : State), s.up = true → 64 ≤ i → i < 80 → (s.sensor i).trip = true →
    tripAt i (Sensor.read s.mpc.sensors rs i).1.used = true →
    Runs (.sensorRead rs) s Shut) ∧
  (∀ (cause i : Nat) (s : State), s.cd.thermalLatch = false →
    (s.cdTrip cause i).cd.thermalLatch = true ∧ (s.cdTrip cause i).cd.running = false ∧ (s.cdTrip cause i).mode = s.mode ∧
    (s.cdTrip cause i).power = s.power) ∧
  (∀ (i : Nat) (rs : List Int) (old : Tab Sensor), (tabGet {} old i).st = 0 → (tabGet {} old i).away < 999 →
    (Sensor.read old rs i).1.used = rs.getD i 0 ∧ (Sensor.read old rs i).1.reading = rs.getD i 0 ∧
    (Sensor.read old rs i).1.st ≠ 1)

/-! ## The mooring lease and checkpoints -/

/-- Renewals of the mooring lease (part of R53, R505, R506, R507, R510 and R511). Every 12,500 frames after its claim an
armed holder renews under the next number, with the lease line's pulse and LEASE_RENEW where its connectors are mated;
between those frames, or not armed, it sends nothing. A pulse outside 500 to 2,000 µs is discarded and counted. A
renewal heard on either path is the latest one for a module that does not hold the lease. A holder that hears one closes
its gate, no longer holds the lease and has yielded; its state changes at the next frame boundary. -/
def Obligations.LeaseRenewals : Prop :=
  (∀ s : State, s.up = true → s.red.held = true → s.red.armed = true → s.power.gate = true →
    s.red.claimFrame < s.frame → (s.frame - s.red.claimFrame) % 12500 = 0 → s.red.unacked < 3 →
    Runs .leaseRenewSend s (fun t => t.red.sentNo = nextSeq s.red.sentNo ∧ t.red.timer = true ∧ t.red.renewedAt = s.intake ∧
      t.red.unacked = s.red.unacked + 1 ∧ (s.power.mateHigh = false → .leasePulse ∈ t.out) ∧
      (s.power.mateHigh = false → s.linkIsUp 48 = true → s.peerLink 48 = true →
        .peer 48 0x40 16 (s.renewPayload (nextSeq s.red.sentNo)) ∈ t.out) ∧
      t.power = { s.power with peerOk := t.power.peerOk } ∧ Touches [.red, .ferry, .power, .free, .out] s t)) ∧
  (∀ s : State, s.up = true → (s.red.armed = false ∨ s.power.gate = false ∨ (s.frame - s.red.claimFrame) % 12500 ≠ 0) →
    exec .leaseRenewSend s = .next { s with out := [] }) ∧
  (∀ (us : Nat) (s : State), s.services = true → (us < 500 ∨ 2000 < us) →
    exec (.leasePulseReceive us) s = .next { s with
      out := [], power := { s.power with pulsesDiscarded := s.power.pulsesDiscarded + 1 } }) ∧
  (∀ (us number st slot cp : Nat) (s : State), s.services = true → s.red.held = false → 500 ≤ us → us ≤ 2000 →
    Runs (.leasePulseReceive us) s (fun t => t.red.freeSince = s.intake ∧ t.red.lastRecv = some s.intake ∧
      t.red.handover = false ∧ Touches [.red, .out] s t) ∧
    Runs (.leaseRenewReceive number st slot cp) s (fun t => t.red.freeSince = s.intake ∧ t.red.lastRecv = some s.intake ∧
      t.red.recvNo = some number ∧ t.red.handover = false ∧ Touches [.red, .out] s t)) ∧
  (∀ (us number st slot cp : Nat) (s : State), s.services = true → s.red.held = true → 500 ≤ us → us ≤ 2000 →
    (s.mode = .takeover ∨ s.mode = .active ∨ s.mode = .degraded →
      Runs (.leasePulseReceive us) s (fun t => t.mode = s.mode ∧ t.power.gate = false ∧ t.gw.driving = false ∧
        t.red.held = false ∧ t.red.armed = false ∧ t.red.yielded = true ∧ t.red.lost = true) ∧
      Runs (.leaseRenewReceive number st slot cp) s (fun t => t.mode = s.mode ∧ t.power.gate = false ∧
        t.gw.driving = false ∧ t.red.held = false ∧ t.red.armed = false ∧ t.red.yielded = true ∧ t.red.lost = true ∧
        t.red.recvNo = some number ∧ t.red.lastRecv = some s.intake)) ∧
    (s.mode = .safeHold →
      Runs (.leasePulseReceive us) s (fun t => t.mode = .safeHold ∧ t.power.gate = false ∧ t.red.held = false ∧
        t.red.armed = false ∧ t.hold.conflict = true)))

/-- Answers to renewals (part of R511). In STANDBY_COLD an answer due that both paths have delivered, the line with a
pulse that has proved valid, or that has waited 3 ms, is sent, with the paths that delivered it; before that nothing is
sent, and nothing without one due. The holder takes the answer to its latest renewal, and no other. -/
def Obligations.RenewalAnswers : Prop :=
  (∀ s : State, s.services = true → s.red.ackDue = none → exec .leaseAckSend s = .next { s with out := [] }) ∧
  (∀ (a : AckDue) (line : Bool) (s : State), s.services = true → s.mode = .standbyCold → s.red.ackDue = some a →
    line = (a.line && decide (a.lineAt ≤ s.intake)) →
    ((line = true ∧ a.lane = true) ∨ a.at_ + 3000 ≤ s.intake → Runs .leaseAckSend s (fun t =>
      t.red.ackDue = none ∧
      t.red.noLine = (if line then 0 else s.red.noLine + 1) ∧ t.red.noLane = (if a.lane then 0 else s.red.noLane + 1) ∧
      (s.power.mateHigh = false → s.linkIsUp 48 = true → s.peerLink 48 = true → .peer 48 0x41 8
        (packBytes [(4, a.number), (1, b2n line + 2 * b2n a.lane), (1, 2), (2, 0)]) ∈ t.out) ∧
      Touches [.red, .ferry, .dictionary, .log, .host, .out] s t)) ∧
    ((line = false ∨ a.lane = false) → s.intake < a.at_ + 3000 → exec .leaseAckSend s = .next { s with out := [] })) ∧
  (∀ (number paths st : Nat) (s : State), s.services = true →
    (s.red.held = false ∨ number ≠ s.red.sentNo ∨ s.red.unacked = 0 →
      exec (.leaseAckReceive number paths st) s = .next { s with out := [] }) ∧
    (s.red.held = true → number = s.red.sentNo → s.red.unacked ≠ 0 → Runs (.leaseAckReceive number paths st) s (fun t =>
      t.red.unacked = 0 ∧ t.red.noLine = (if bitAt paths 0 then 0 else s.red.noLine + 1) ∧ t.red.held = true ∧
      Touches [.red, .dictionary, .log, .host, .out] s t)))

/-- The claim (part of R504, R505, R508 and R519). A module that may claim opens its gate, takes the next renewal
number, holds the lease from this frame, is in TAKEOVER with its CD due, and sends its pulse and the state store's reset
where its connectors are mated; one that may not does nothing. Only a module in STANDBY_COLD may claim and, without a
handover, only after 200 ms and its first delay without a renewal. -/
def Obligations.LeaseClaims : Prop :=
  (∀ s : State, s.services = true → s.claimAllowed = true →
    Runs .leaseClaim s (fun t => t.mode = .takeover ∧ t.lastTrigger = 3 ∧ t.lastTransition = s.frame ∧ t.power.gate = true ∧
      t.red.held = true ∧ t.red.armed = true ∧ t.red.timer = true ∧ t.red.renewedAt = s.intake ∧
      t.red.claimFrame = s.frame ∧ t.red.step = 1 ∧
      t.red.sentNo = nextSeq (s.red.recvNo.getD 0) ∧ t.red.handover = false ∧ t.cd.due = true ∧ t.ce.inService = false ∧
      (s.power.mateHigh = false → .leasePulse ∈ t.out ∧ .storeReset ∈ t.out) ∧
      t.odv 0x8030 1 = min (s.odv 0x8030 1 + 1) u32Max)) ∧
  (∀ s : State, s.services = true → s.claimAllowed = false → exec .leaseClaim s = .next { s with out := [] }) ∧
  (∀ s : State, s.claimAllowed = true → s.mode = .standbyCold ∧
    (s.red.handover = false → s.red.freeSince + 200000 + 20000 ≤ s.intake))

/-- The lease's end (part of R29, R30, R506, R508 and R520). The lease timer, once 200 ms have passed since the latest
renewal, closes the holder's gate and ends its hold; its state changes at the next frame boundary, where a module that has
lost the lease is in STANDBY_COLD with its CD stopped. From SAFE_HOLD the module restarts. A takeover that lasts 40 ms
(10,000 frames) is abandoned through BOOT. Without the timer, before its 200 ms, and outside TAKEOVER, nothing happens. -/
def Obligations.LeaseEnds : Prop :=
  (∀ (b : BootInputs) (s : State), s.up = true → s.red.timer = false ∨ s.intake < s.red.renewedAt + 200000 →
    exec (.leaseExpiry b) s = .next { s with out := [] }) ∧
  (∀ (b : BootInputs) (s : State), s.up = true → s.red.timer = true → s.red.renewedAt + 200000 ≤ s.intake →
    (s.mode = .takeover ∨ s.mode = .active ∨ s.mode = .degraded) → s.red.held = true →
    Runs (.leaseExpiry b) s (fun t => t.mode = s.mode ∧ t.power.gate = false ∧ t.gw.driving = false ∧ t.red.held = false ∧
      t.red.armed = false ∧ t.red.timer = false ∧ t.red.lost = true ∧ t.frame = s.frame)) ∧
  (∀ (differs : Bool) (s : State), s.power.leaving = false → s.red.lost = true →
    (s.mode = .takeover ∨ s.mode = .active ∨ s.mode = .degraded) →
    Runs (.gangwayFrameBoundary differs) s (fun t => t.mode = .standbyCold ∧ t.lastTrigger = 0x0E ∧ t.power.gate = false ∧
      t.gw.driving = false ∧ t.red.held = false ∧ t.cd.running = false)) ∧
  (∀ (b : BootInputs) (s : State), s.up = true → s.red.timer = true → s.red.renewedAt + 200000 ≤ s.intake →
    s.power.leaving = false → s.mode = .safeHold →
    Runs (.leaseExpiry b) s (fun t => t.mode = .boot ∧ t.power.gate = false ∧ t.gw.driving = false ∧ t.frame = s.frame)) ∧
  (∀ (b : BootInputs) (s : State), s.mode = .takeover → s.power.leaving = false →
    s.red.claimFrame + 10000 ≤ s.frame →
    Runs (.takeoverLimitExpiry b) s (fun t => t.mode = .boot ∧ t.power.gate = false ∧ t.gw.driving = false ∧
      t.frame = s.frame)) ∧
  (∀ (b : BootInputs) (s : State), s.up = true → s.mode ≠ .takeover →
    exec (.takeoverLimitExpiry b) s = .next { s with out := [] })

/-- The takeover's restoring (part of R519 and R521). A completed read of the store restores the module's state from the
newest valid checkpoint, with the case its digest and the records kept decide, or without one where none is valid; so
does the end of 30 ms without an answer. A complete copy of a table that waits is its corrector's table, and no other
corrector changes. -/
def Obligations.TakeoverRestores : Prop :=
  (∀ (a b : Option Blob) (s : State), s.mode = .takeover → s.red.step = 1 →
    Runs (.checkpointReadComplete a b) s (fun t =>
      t.mode = .takeover ∧ t.red.step = 3 ∧ t.red.ring = [] ∧ t.ce.restored = true ∧ t.power.gate = s.power.gate ∧
      (newestCp a b = none → t.red.cpCase = 0) ∧
      (∀ c, newestCp a b = some c → t.red.cpSeq = bytesAt c.2 4 4 ∧ t.red.cpSlot = c.1 ∧
        t.red.cpCase = if bytesAt c.2 0x20 64 ≠ s.digest then 3 else if (s.ringAt (bytesAt c.2 0x18 4)).2 then 1 else 2))) ∧
  (∀ s : State, s.mode = .takeover → s.red.step = 1 →
    (s.red.claimFrame + 7500 ≤ s.frame → Runs .storeReadTimeout s (fun t =>
      t.mode = .takeover ∧ t.red.step = 3 ∧ t.red.cpCase = 0 ∧ t.ce.restored = true ∧ t.power.gate = s.power.gate)) ∧
    (s.frame < s.red.claimFrame + 7500 → exec .storeReadTimeout s = .next { s with out := [] })) ∧
  (∀ (r : Nat) (b : Blob) (s : State), s.up = true →
    (s.red.held = true → s.ce.inService = true → bitAt s.red.tables r = true → (s.ce.kept.rc r).mask = 0xFF →
      Runs (.rcTableRestore r b) s (fun t =>
        (∀ i, i < s.odv (0x2600 + r) 1 → tabGet 0 (t.ce.kept.rc r).table i = signed 16 (item 2 b i)) ∧
        (t.ce.kept.rc r).mask = 0xFF ∧ bitAt t.red.tables r = false ∧
        (∀ q, q ≠ r → t.ce.kept.rc q = s.ce.kept.rc q) ∧ Touches [.ce, .red, .cd, .out] s t)) ∧
    (bitAt s.red.tables r = false → exec (.rcTableRestore r b) s = .next { s with out := [] }))

/-- Checkpoints (part of R513, R516 and R517). The holder takes a checkpoint 5 ms after each sweep boundary, into the
slot that does not hold the newest one, under the next sequence number, with the next slice of the tables; one that is
still being written is counted instead, and in every other frame nothing happens. A verified one is the newest and is
counted; a failed one is dropped, the third in a row is marked, and a handover's ends the switch-over. -/
def Obligations.CheckpointWrites : Prop :=
  (∀ s : State, s.up = true → s.frame % 2500 ≠ 1250 → exec .checkpointTake s = .next { s with out := [] }) ∧
  (∀ s : State, s.up = true → s.writesCheckpoints = true → s.frame % 2500 = 1250 →
    (∀ w, s.red.writing = some w → exec .checkpointTake s = .next (State.count { s with out := [] } 0x8021 3)) ∧
    (s.red.writing = none → s.red.cpKnown = true → Runs .checkpointTake s (fun t =>
      ∃ (w : CpWrite) (u : State), t.red.writing = some w ∧ w.seq = nextSeq s.red.cpSeq ∧ w.handover = false ∧ w.slice = some s.red.slice ∧
        w.reread = false ∧ Touches [.red, .ce, .cd, .te, .hold, .dictionary, .log, .host, .free, .out] s u ∧
        w.data = u.checkpointBytes w.seq ∧
        (s.power.mateHigh = false → .storeWrite (sliceAddr (s.red.slice / 8) (s.red.slice % 8)) 0x40000
            ((s.ce.kept.rc (s.red.slice / 8)).slice (s.red.slice % 8)) ∈ t.out ∧
          .storeWrite (slotAddr (1 - s.red.cpSlot)) 0xD544 w.data ∈ t.out) ∧
        t.red.slice = (s.red.slice + 1) % 32 ∧
        Touches [.red, .ce, .cd, .te, .hold, .dictionary, .log, .host, .free, .out] s t))) ∧
  (∀ (w : CpWrite) (s : State), s.up = true → s.red.writing = some w → w.reread = false →
    exec .checkpointVerified s = .next (State.count { s with
      out := []
      red := { s.red with writing := none, cpSeq := w.seq, verified := w.seq, cpSlot := 1 - s.red.cpSlot, own := some w.data,
                          cpFails := 0, cpStale := false, closeDue := s.red.closeDue || w.handover } } 0x8021 1) ∧
    Runs .checkpointTimeout s (fun t => t.red.writing = none ∧ t.red.cpFails = s.red.cpFails + 1 ∧
      (2 ≤ s.red.cpFails → t.red.cpStale = true) ∧
      (w.handover = true → t.red.switching = false ∧ t.red.outcome = 2) ∧
      Touches [.red, .ce, .dictionary, .log, .host, .out] s t)) ∧
  (∀ s : State, s.up = true → s.red.writing = none →
    exec .checkpointVerified s = .next { s with out := [] } ∧ exec .checkpointTimeout s = .next { s with out := [] })

/-- The switch-over (part of R54, R508, R512, R524 and R525). An admitted command to switch over is noted. At the frame
boundary after its handover checkpoint the holder closes its gate, gives the lease up and is in STANDBY_COLD. A HANDOVER
is noted by a module in STANDBY_COLD and by no other. Outside BOOT the module sends its state and flags; a peer's state
and flags are kept with their time, and decide PEER_OK together with the peer's pin, which is free (log entry 44). -/
def Obligations.SwitchOver : Prop :=
  (∀ h : ReqHead, RowDoes (.manualSwitchOver h 1) h 0x8010 0 1 1
    (done 0x8010 0 (fun s => { s with red := { s.red with switching := true } }))) ∧
  (∀ (b : Bool) (s : State), (s.mode = .active ∨ s.mode = .degraded) → s.red.closeDue = true → s.hold.hostDue = false →
    s.power.leaving = false → s.red.lost = false →
    Runs (.gangwayFrameBoundary b) s (fun t => t.mode = .standbyCold ∧ t.power.gate = false ∧ t.gw.driving = false ∧
      t.red.held = false ∧ t.red.gaveUp = true ∧ t.red.timer = false)) ∧
  (∀ (number cp : Nat) (s : State), s.services = true →
    (s.mode = .standbyCold → exec (.handoverReceive number cp) s = .next { s with
      out := []
      red := { s.red with recvNo := some number, lastNo := number, handover := true, lastHandover := some s.intake } }) ∧
    (s.mode ≠ .standbyCold → exec (.handoverReceive number cp) s = .next { s with out := [] })) ∧
  (∀ s : State, s.services = true → s.mode ≠ .boot →
    exec .peerStateSend s = .next (State.peerSend { s with out := [] } 48 0x43 (packBytes
      [(1, modeCode s.mode), (1, b2n s.configured + 2 * b2n (decide (s.odv 0x8002 0 = 1)) + 4 * b2n s.red.lineFault +
        8 * b2n s.red.laneFault), (2, 0), (4, 0)]))) ∧
  (∀ s : State, s.mode = .boot → exec .peerStateSend s = .next { s with out := [] }) ∧
  (∀ (state flags : Nat) (s : State), s.services = true →
    exec (.peerStateReceive state flags) s = .next { s with
      out := []
      free := s.free + 1
      red := { s.red with peerState := state, peerFlags := flags, peerAt := s.intake }
      power := { s.power with
        peerOk := decide (2 ≤ state ∧ state ≤ 6) && decide (Config.freeValue s.free % 2 = 1) } })
end

