-- ==== Sys2Proof/Laws/View.lean ====
section
/-! SUPPORT. The view `State.gv` of a state: the queue, the frame number, the operating state, the output gate and
whether the Gangway driver is enabled. Most operations of the model leave it alone; `Laws/Keeps.lean` says so of each. -/

namespace Sys2Proof.Machine

open Sys2Proof

/-- The queue and the frame number; the operating state, the output gate (R49) and the Gangway driver (R385). -/
def State.gv (s : State) : (List Instr × Nat) × (Mode × Bool × Bool) :=
  ((s.pending, s.frame), (s.mode, s.power.gate, s.gw.driving))

theorem State.gv_def (s : State) : s.gv = ((s.pending, s.frame), (s.mode, s.power.gate, s.gw.driving)) := rfl

@[simp] theorem State.gv_eta (s : State) :
    ((s.pending, s.frame), (s.mode, s.power.gate, s.gw.driving)) = s.gv := rfl

@[simp] theorem State.gv_eta0 (s : State) : (s.pending, s.frame) = s.gv.1 := rfl

@[simp] theorem gv_pair (s : State) : (s.gv.1, s.gv.2) = s.gv := rfl

@[simp] theorem State.gv_eta1 (s : State) : (s.mode, s.power.gate, s.gw.driving) = s.gv.2 := rfl

/-- The view of a state written out: the fields it does not name do not matter. -/
@[simp] theorem State.gv_mk {x0 x1 x2 x3 x4 x5 x6 x7 x8 x9 x10 x11 x12 x13 x14 x15 x16 x17 x18 x19 x20 x21 x22 x23 x24
    x25 x26 x27 x28 x29 x30 x31 x32 x33 x34 x35 x36} :
    State.gv (State.mk x0 x1 x2 x3 x4 x5 x6 x7 x8 x9 x10 x11 x12 x13 x14 x15 x16 x17 x18 x19 x20 x21 x22 x23 x24 x25 x26
      x27 x28 x29 x30 x31 x32 x33 x34 x35 x36) = ((x0, x6), (x3, x23.gate, x27.driving)) := rfl

@[simp] theorem gv_ite (c : Prop) [Decidable c] (a b : State) :
    (if c then a else b).gv = if c then a.gv else b.gv := by split <;> rfl

theorem snd_ite_gv {α : Type} (c : Prop) [Decidable c] (a b : α × State) :
    (if c then a else b).2.gv = if c then a.2.gv else b.2.gv := by split <;> rfl

/-- A fold whose every step keeps the view keeps it. -/
@[simp] theorem foldl_gv {α : Type} (f : State → α → State) (l : List α) (s : State) (h : ∀ s x, (f s x).gv = s.gv) :
    (l.foldl f s).gv = s.gv := by
  induction l generalizing s with
  | nil => rfl
  | cons x t ih => simp [List.foldl, ih, h]

/-- The same for a fold over something that holds a state. -/
theorem foldl_gv_of {α β : Type} (g : β → State) (f : β → α → β) (l : List α) (b : β)
    (h : ∀ b x, (g (f b x)).gv = (g b).gv) : (g (l.foldl f b)).gv = (g b).gv := by
  induction l generalizing b with
  | nil => rfl
  | cons x t ih => rw [List.foldl, ih, h]

/-- The same for a fold that carries something beside the state. -/
theorem foldl_gv_fst {α β : Type} (f : State × β → α → State × β) (l : List α) (p : State × β)
    (h : ∀ p x, (f p x).1.gv = p.1.gv) : (l.foldl f p).1.gv = p.1.gv := by
  induction l generalizing p with
  | nil => rfl
  | cons x t ih => rw [List.foldl, ih, h]

@[simp] theorem foldl_gv1 {α : Type} (f : State → α → State) (l : List α) (s : State) (h : ∀ s x, (f s x).gv.1 = s.gv.1) :
    (l.foldl f s).gv.1 = s.gv.1 := by
  induction l generalizing s with
  | nil => rfl
  | cons x t ih => simp only [List.foldl, ih, h]

theorem State.mode_gv (s : State) : s.mode = s.gv.2.1 := rfl

/-! Updates of one group of fields keep the view. -/

theorem State.outs_gv (s : State) (x : List Output) : ({ s with out := x } : State).gv = s.gv := by simp

theorem State.host_gv (s : State) (x : HostPort) : ({ s with host := x } : State).gv = s.gv := by simp

theorem State.net_gv (s : State) (x : FieldNet) : ({ s with net := x } : State).gv = s.gv := by simp

theorem State.te_gv (s : State) (x : Te) : ({ s with te := x } : State).gv = s.gv := by simp

theorem State.hold_gv (s : State) (x : Hold) : ({ s with hold := x } : State).gv = s.gv := by simp

theorem State.red_gv (s : State) (x : Red) : ({ s with red := x } : State).gv = s.gv := by simp

theorem State.nvr_gv (s : State) (x : Nvr) : ({ s with nvr := x } : State).gv = s.gv := by simp

theorem State.cd_gv (s : State) (x : Cd) : ({ s with cd := x } : State).gv = s.gv := by simp

theorem State.ce_gv (s : State) (x : Ce) : ({ s with ce := x } : State).gv = s.gv := by simp

theorem State.log_gv (s : State) (x : Log) : ({ s with log := x } : State).gv = s.gv := by simp

theorem State.mpc_gv (s : State) (x : Mpc) : ({ s with mpc := x } : State).gv = s.gv := by simp

theorem State.clk_gv (s : State) (x : Clk) : ({ s with clk := x } : State).gv = s.gv := by simp

theorem State.power_gv (s : State) (p : Power) (h : p.gate = s.power.gate) : ({ s with power := p } : State).gv = s.gv := by
  rw [State.gv_mk, h]; rfl

theorem State.gw_gv (s : State) (g : Gangway) (h : g.driving = s.gw.driving) : ({ s with gw := g } : State).gv = s.gv := by
  rw [State.gv_mk, h]; rfl

theorem State.seqUsed_gv (s : State) (n : Nat) : ({ s with se := { s.se with seqUsed := n } } : State).gv = s.gv := by simp

theorem State.digest_gv (s : State) (d : Nat) (b : Bool) : ({ s with digest := d, digestDue := b } : State).gv = s.gv := by
  simp

theorem State.cd_mpc_gv (s : State) (c : Cd) (m : Mpc) : ({ s with cd := c, mpc := m } : State).gv = s.gv := by simp

theorem State.clk_power_gv (s : State) (c : Clk) (p : Power) (h : p.gate = s.power.gate) :
    ({ s with clk := c, power := p } : State).gv = s.gv := by rw [State.gv_mk, h]; rfl

theorem State.mpc_power_gv (s : State) (c : Mpc) (p : Power) (h : p.gate = s.power.gate) :
    ({ s with mpc := c, power := p } : State).gv = s.gv := by rw [State.gv_mk, h]; rfl

end Sys2Proof.Machine
end

