-- ==== Sys2Proof/Laws/Keeps.lean ====
section
/-! SUPPORT. One lemma per operation of the model that leaves the view `State.gv` alone (`_gv`), or its queue and frame
number (`_gv1`). A later proof rewrites with them and never unfolds the operation. -/

namespace Sys2Proof.Machine

open Sys2Proof

@[simp] theorem State.emit_gv (s : State) (o : Output) :
    ((State.emit s o)).gv = s.gv := by
  unfold State.emit; simp

@[simp] theorem State.draw_gv (s : State) :
    ((State.draw s).2).gv = s.gv := by
  unfold State.draw; simp

@[simp] theorem State.odPut_gv (s : State) (k : Nat) (v : Nat) :
    ((State.odPut s k v)).gv = s.gv := by
  unfold State.odPut; simp

@[simp] theorem State.odWrite_gv (s : State) (k : Nat) (v : Nat) :
    ((State.odWrite s k v)).gv = s.gv := by
  unfold State.odWrite; (repeat' split) <;> simp

@[simp] theorem State.takeEffect_gv (s : State) (w : When) :
    ((State.takeEffect s w)).gv = s.gv := by
  unfold State.takeEffect; simp

@[simp] theorem State.count_gv (s : State) (i : Nat) (sub : Nat) (n : Nat) :
    ((State.count s i sub n)).gv = s.gv := by
  unfold State.count; simp

@[simp] theorem State.count64_gv (s : State) (i : Nat) (sub : Nat) (n : Nat) :
    ((State.count64 s i sub n)).gv = s.gv := by
  unfold State.count64; simp

@[simp] theorem State.uncount_gv (s : State) (i : Nat) (sub : Nat) :
    ((State.uncount s i sub)).gv = s.gv := by
  unfold State.uncount; simp

@[simp] theorem State.sendVector_gv (s : State) (v : Nat) :
    ((State.sendVector s v)).gv = s.gv := by
  unfold State.sendVector; simp

@[simp] theorem State.raise_gv (s : State) (cause : Nat) :
    ((State.raise s cause)).gv = s.gv := by
  unfold State.raise; simp

@[simp] theorem State.logForce_gv (s : State) (event : Nat) (params : Sys2Proof.Blob) :
    ((State.logForce s event params)).gv = s.gv := by
  unfold State.logForce; simp

@[simp] theorem State.logEvent_gv (s : State) (event : Nat) (params : Sys2Proof.Blob) :
    ((State.logEvent s event params)).gv = s.gv := by
  unfold State.logEvent; (repeat' split) <;> simp

@[simp] theorem State.logLimited_gv (s : State) (n : Nat) (source : Nat) (event : Nat) (params : Sys2Proof.Blob) :
    ((State.logLimited s n source event params)).gv = s.gv := by
  unfold State.logLimited; simp

@[simp] theorem State.logState_gv (s : State) (old : Mode) (new : Mode) (trigger : Nat) (causes : Nat) :
    ((State.logState s old new trigger causes)).gv = s.gv := by
  unfold State.logState; simp

@[simp] theorem State.transition_gv1 (s : State) (new : Mode) (causes : Nat) (trigger : Nat) :
    ((State.transition s new causes trigger)).gv.1 = s.gv.1 := by
  unfold State.transition; simp

@[simp] theorem State.refuse_gv (s : State) (i : Nat) (sub : Nat) (status : Nat) (source : Nat) :
    ((State.refuse s i sub status source)).gv = s.gv := by
  unfold State.refuse; (repeat' split) <;> simp

@[simp] theorem State.violation_gv (s : State) :
    ((State.violation s)).gv = s.gv := by
  unfold State.violation; simp

@[simp] theorem State.mpcEvent_gv (s : State) (event : Nat) (params : Blob) :
    (State.mpcEvent s event params).gv = s.gv := by
  unfold State.mpcEvent; simp

@[simp] theorem State.mpcLog_gv (s : State) (event : Nat) (source : Nat) (params : Sys2Proof.Blob) :
    ((State.mpcLog s event source params)).gv = s.gv := by
  unfold State.mpcLog; simp

@[simp] theorem State.writeLost_gv (s : State) (w : NvrWrite) :
    (State.writeLost s w).gv = s.gv := by
  unfold State.writeLost; (repeat' split) <;> simp

@[simp] theorem State.nvrWrite_gv (s : State) (w : NvrWrite) :
    ((State.nvrWrite s w)).gv = s.gv := by
  unfold State.nvrWrite; (repeat' split) <;> simp

@[simp] theorem State.faultRecord_gv (s : State) (cause : Nat) (after : Nat) (p : FaultAt) :
    ((State.faultRecord s cause after p)).gv = s.gv := by
  unfold State.faultRecord; (repeat' split) <;> simp

@[simp] theorem State.dropCopies_gv (s : State) (gone : CopyItem → Bool) :
    (State.dropCopies s gone).gv = s.gv := by
  unfold State.dropCopies; simp

@[simp] theorem State.dropLoad_gv (s : State) (l : Load) :
    (State.dropLoad s l).gv = s.gv := by
  unfold State.dropLoad; simp

@[simp] theorem State.endLoad_gv (s : State) (status : Nat) :
    ((State.endLoad s status)).gv = s.gv := by
  unfold State.endLoad; (repeat' split) <;> simp

@[simp] theorem State.promote_gv (s : State) :
    (State.promote s).gv = s.gv := by
  unfold State.promote; simp

@[simp] theorem State.dropJob_gv (s : State) (ident : Nat) : (s.dropJob ident).gv = s.gv := by
  unfold State.dropJob; rw [State.promote_gv]; exact State.te_gv ..

@[simp] theorem State.abandonJobs_gv (s : State) (ids : List Nat) :
    ((State.abandonJobs s ids)).gv = s.gv := by
  unfold State.abandonJobs; refine (foldl_gv _ _ _ (fun s x => ?_)).trans ?_ <;> ((repeat' split) <;> simp)

@[simp] theorem State.cdStop_gv (s : State) (cause : Nat) :
    ((State.cdStop s cause)).gv = s.gv := by
  unfold State.cdStop; (repeat' split) <;> simp

@[simp] theorem State.cdDue_gv (s : State) :
    ((State.cdDue s)).gv = s.gv := by
  unfold State.cdDue; (repeat' split) <;> simp

@[simp] theorem State.closeGate_gv1 (s : State) :
    ((State.closeGate s)).gv.1 = s.gv.1 := by
  unfold State.closeGate; simp

@[simp] theorem State.dropWaiting_gv (s : State) :
    ((State.dropWaiting s)).gv = s.gv := by
  unfold State.dropWaiting; simp

@[simp] theorem State.setNode_gv (s : State) (a : Nat) (f : Node → Node) :
    ((State.setNode s a f)).gv = s.gv := by
  unfold State.setNode; simp

@[simp] theorem State.nodeEnter_gv (s : State) (a : Nat) :
    ((State.nodeEnter s a)).gv = s.gv := by
  unfold State.nodeEnter; simp

@[simp] theorem State.nodeLeave_gv (s : State) (a : Nat) (reason : Nat) :
    ((State.nodeLeave s a reason)).gv = s.gv := by
  unfold State.nodeLeave; (repeat' split) <;> simp

@[simp] theorem State.queueOp_gv (s : State) (a : Nat) (op : Nat) (data : Nat) :
    ((State.queueOp s a op data)).gv = s.gv := by
  unfold State.queueOp; simp

@[simp] theorem State.queueNode_gv (s : State) (a : Nat) :
    ((State.queueNode s a)).gv = s.gv := by
  unfold State.queueNode; simp

@[simp] theorem State.queueNodes_gv (s : State) (l : List Nat) :
    (State.queueNodes s l).gv = s.gv := by
  unfold State.queueNodes; simp

@[simp] theorem State.nodeChanged_gv (s : State) (a : Nat) :
    ((State.nodeChanged s a)).gv = s.gv := by
  unfold State.nodeChanged; simp

@[simp] theorem State.populationChange_gv (s : State) (old : Nat) (changed : List Nat) :
    ((State.populationChange s old changed)).gv = s.gv := by
  unfold State.populationChange; simp

@[simp] theorem State.nodeMayEnter_gv (s : State) (a : Nat) :
    ((State.nodeMayEnter s a)).gv = s.gv := by
  unfold State.nodeMayEnter; simp

@[simp] theorem State.replyGood_gv (s : State) (a : Nat) (word0 : Nat) (status : Nat) :
    ((State.replyGood s a word0 status)).gv = s.gv := by
  unfold State.replyGood; simp

@[simp] theorem State.replyMissing_gv (s : State) (a : Nat) :
    ((State.replyMissing s a)).gv = s.gv := by
  unfold State.replyMissing; simp

@[simp] theorem State.readBack_gv (s : State) (a : Nat) :
    ((State.readBack s a)).gv = s.gv := by
  unfold State.readBack; simp

@[simp] theorem State.mgmtFail_gv (s : State) (a : Nat) :
    ((State.mgmtFail s a)).gv = s.gv := by
  unfold State.mgmtFail; simp

@[simp] theorem State.dropOp_gv (s : State) (a : Nat) :
    ((State.dropOp s a)).gv = s.gv := by
  unfold State.dropOp; simp

@[simp] theorem State.mgmtGood_gv (s : State) (a : Nat) (result : Nat) (vs : List Nat) :
    ((State.mgmtGood s a result vs)).gv = s.gv := by
  unfold State.mgmtGood; (repeat' split) <;> simp

@[simp] theorem State.mgmtAbsent_gv (s : State) (a : Nat) :
    ((State.mgmtAbsent s a)).gv = s.gv := by
  unfold State.mgmtAbsent; (repeat' split) <;> simp

@[simp] theorem State.sendMgmt_gv (s : State) :
    ((State.sendMgmt s)).gv = s.gv := by
  unfold State.sendMgmt; (repeat' split) <;> simp

@[simp] theorem State.gangwayFrame_gv1 (s : State) (differs : Bool) :
    ((State.gangwayFrame s differs)).gv.1 = s.gv.1 := by
  unfold State.gangwayFrame; dsimp only; (repeat' split) <;> simp

@[simp] theorem State.latchConvs_gv (s : State) :
    (State.latchConvs s).gv = s.gv := by
  unfold State.latchConvs; simp

@[simp] theorem State.setPort_gv (s : State) (p : Nat) (f : Port → Port) :
    ((State.setPort s p f)).gv = s.gv := by
  unfold State.setPort; simp

@[simp] theorem State.onLine_gv (s : State) (p : Nat) (f : State → State) (h : ∀ s, (f s).gv = s.gv) :
    (s.onLine p f).gv = s.gv := by
  unfold State.onLine; split <;> simp [h]

@[simp] theorem State.cellLog_gv (s : State) (event : Nat) (source : Nat) (params : Sys2Proof.Blob) :
    ((State.cellLog s event source params)).gv = s.gv := by
  unfold State.cellLog; simp

@[simp] theorem State.cellSend_gv (s : State) (p : Nat) (typ : Nat) (len : Nat) (payload : Sys2Proof.Blob) (answered : Bool) :
    ((State.cellSend s p typ len payload answered)).gv = s.gv := by
  unfold State.cellSend; (repeat' split) <;> simp

@[simp] theorem State.sendSample_gv (s : State) (p : Nat) : (s.sendSample p).gv = s.gv :=
  State.onLine_gv _ _ _ (fun s => by simp)

@[simp] theorem State.sendConfigure_gv (s : State) (p : Nat) : (s.sendConfigure p).gv = s.gv :=
  State.onLine_gv _ _ _ (fun s => by simp)

@[simp] theorem State.sendHello_gv (s : State) (p : Nat) : (s.sendHello p).gv = s.gv :=
  State.onLine_gv _ _ _ (fun s => by simp)

@[simp] theorem State.sendRead_gv (s : State) (p : Nat) : (s.sendRead p).gv = s.gv :=
  State.onLine_gv _ _ _ (fun s => by simp)

@[simp] theorem State.portStart_gv (s : State) (p : Nat) (greeted : Bool) :
    ((State.portStart s p greeted)).gv = s.gv := by
  unfold State.portStart; simp

@[simp] theorem State.portMismatch_gv (s : State) (p : Nat) :
    ((State.portMismatch s p)).gv = s.gv := by
  unfold State.portMismatch; simp

@[simp] theorem State.portFail_gv (s : State) (p : Nat) (cause : Nat) :
    ((State.portFail s p cause)).gv = s.gv := by
  unfold State.portFail; simp

@[simp] theorem State.portGoOn_gv (s : State) (p : Nat) :
    (State.portGoOn s p).gv = s.gv := by
  unfold State.portGoOn; simp

@[simp] theorem State.answerFailed_gv (s : State) (p : Nat) (typ : Nat) (cause : Nat) :
    ((State.answerFailed s p typ cause)).gv = s.gv := by
  unfold State.answerFailed; (repeat' split) <;> simp

@[simp] theorem State.answerDropped_gv (s : State) (p : Nat) (typ : Nat) :
    ((State.answerDropped s p typ)).gv = s.gv := by
  unfold State.answerDropped; simp

@[simp] theorem State.takeStatus_gv (s : State) (p status : Nat) :
    (State.takeStatus s p status).gv = s.gv := by
  unfold State.takeStatus; simp

@[simp] theorem State.sweepSample_gv (s : State) :
    ((State.sweepSample s)).gv = s.gv := by
  unfold State.sweepSample; simp

@[simp] theorem State.sweepRead_gv (s : State) :
    ((State.sweepRead s)).gv = s.gv := by
  unfold State.sweepRead; simp

@[simp] theorem State.cellTimeout_gv (s : State) (p : Nat) :
    ((State.cellTimeout s p)).gv = s.gv := by
  unfold State.cellTimeout; (repeat' split) <;> simp

@[simp] theorem State.helloAck_gv (s : State) (p : Nat) (f : Sys2Proof.CellFrame) :
    ((State.helloAck s p f)).gv = s.gv := by
  unfold State.helloAck; (repeat' split) <;> simp

@[simp] theorem State.configureAck_gv (s : State) (p : Nat) (f : Sys2Proof.CellFrame) :
    ((State.configureAck s p f)).gv = s.gv := by
  unfold State.configureAck; (repeat' split) <;> simp

@[simp] theorem State.cellData_gv (s : State) (p : Nat) (f : Sys2Proof.CellFrame) :
    ((State.cellData s p f)).gv = s.gv := by
  unfold State.cellData; dsimp only; (repeat' split) <;> simp

@[simp] theorem State.deliver_gv (s : State) (p : Nat) (payload : Sys2Proof.Blob) (tap : Nat) :
    ((State.deliver s p payload tap)).gv = s.gv := by
  unfold State.deliver; (repeat' split) <;> simp

@[simp] theorem State.closePort_gv (s : State) (p : Nat) :
    ((State.closePort s p)).gv = s.gv := by
  unfold State.closePort; dsimp only; (repeat' split) <;> simp

@[simp] theorem State.stringCheck_gv (s : State) (ch : Nat) :
    ((State.stringCheck s ch)).gv = s.gv := by
  unfold State.stringCheck; simp

@[simp] theorem State.sweepCloseCells_gv (s : State) :
    ((State.sweepCloseCells s)).gv = s.gv := by
  unfold State.sweepCloseCells; simp

@[simp] theorem State.portRetry_gv (s : State) (p : Nat) :
    ((State.portRetry s p)).gv = s.gv := by
  unfold State.portRetry; simp

@[simp] theorem State.cellsTakeover_gv (s : State) :
    ((State.cellsTakeover s)).gv = s.gv := by
  unfold State.cellsTakeover; simp

@[simp] theorem State.cellsAbandon_gv (s : State) :
    ((State.cellsAbandon s)).gv = s.gv := by
  unfold State.cellsAbandon; simp

@[simp] theorem State.portConfigChanged_gv (s : State) (p sub : Nat) :
    (State.portConfigChanged s p sub).gv = s.gv := by
  unfold State.portConfigChanged; simp

@[simp] theorem State.cellPopulationChanged_gv (s : State) (old : Nat) :
    (State.cellPopulationChanged s old).gv = s.gv := by
  unfold State.cellPopulationChanged; simp

@[simp] theorem State.setChan_gv (s : State) (ch : Nat) (f : SeChan → SeChan) :
    ((State.setChan s ch f)).gv = s.gv := by
  unfold State.setChan; simp

@[simp] theorem State.seLog_gv (s : State) (event : Nat) (ch : Nat) (params : Sys2Proof.Blob) :
    ((State.seLog s event ch params)).gv = s.gv := by
  unfold State.seLog; simp

@[simp] theorem State.seTrigger_gv (s : State) :
    ((State.seTrigger s)).gv = s.gv := by
  unfold State.seTrigger; simp

@[simp] theorem State.addCharge_gv (s : State) (ch : Nat) (d : Int) :
    ((State.addCharge s ch d)).gv = s.gv := by
  unfold State.addCharge; simp

@[simp] theorem State.senseBit_gv (s : State) (ch : Nat) (bit : Bool) :
    ((State.senseBit s ch bit)).gv = s.gv := by
  unfold State.senseBit; (repeat' split) <;> simp

@[simp] theorem State.trimTick_gv (s : State) :
    ((State.trimTick s)).gv = s.gv := by
  unfold State.trimTick; simp

@[simp] theorem State.fullWatch_gv (s : State) (ch : Nat) :
    (State.fullWatch s ch).gv = s.gv := by
  unfold State.fullWatch; simp

@[simp] theorem State.senseCurrents_gv (s : State) :
    ((State.senseCurrents s)).gv = s.gv := by
  unfold State.senseCurrents; simp

@[simp] theorem State.lostCharge_gv (s : State) :
    ((State.lostCharge s)).gv = s.gv := by
  unfold State.lostCharge; simp

@[simp] theorem State.csLost_gv (s : State) (ch : Nat) :
    ((State.csLost s ch)).gv = s.gv := by
  unfold State.csLost; (repeat' split) <;> simp

@[simp] theorem State.csReturn_gv (s : State) (ch : Nat) :
    ((State.csReturn s ch)).gv = s.gv := by
  unfold State.csReturn; simp

@[simp] theorem State.reserveCheck_gv (s : State) (ch : Nat) :
    ((State.reserveCheck s ch)).gv = s.gv := by
  unfold State.reserveCheck; (repeat' split) <;> simp

@[simp] theorem State.fullDetect_gv (s : State) (ch : Nat) :
    ((State.fullDetect s ch)).gv = s.gv := by
  unfold State.fullDetect; (repeat' split) <;> simp

@[simp] theorem State.fullClear_gv (s : State) (ch : Nat) :
    ((State.fullClear s ch)).gv = s.gv := by
  unfold State.fullClear; dsimp only; (repeat' split) <;> simp

@[simp] theorem State.viewCells_gv (s : State) (ch : Nat) :
    ((State.viewCells s ch)).gv = s.gv := by
  unfold State.viewCells; simp

@[simp] theorem State.cutoff_gv (s : State) (ch : Nat) (vLow : Rat) :
    ((State.cutoff s ch vLow)).gv = s.gv := by
  unfold State.cutoff; dsimp only; (repeat' split) <;> simp

@[simp] theorem State.cutoffCheck_gv (s : State) (ch : Nat) :
    ((State.cutoffCheck s ch)).gv = s.gv := by
  unfold State.cutoffCheck; dsimp only; (repeat' split) <;> simp

@[simp] theorem State.resistSample_gv (s : State) (ch : Nat) :
    ((State.resistSample s ch)).gv = s.gv := by
  unfold State.resistSample; dsimp only; (repeat' split) <;> simp

@[simp] theorem State.disagreeCheck_gv (s : State) (ch : Nat) :
    ((State.disagreeCheck s ch)).gv = s.gv := by
  unfold State.disagreeCheck; dsimp only; (repeat' split) <;> simp

@[simp] theorem State.restCheck_gv (s : State) (ch : Nat) :
    ((State.restCheck s ch)).gv = s.gv := by
  unfold State.restCheck; dsimp only; (repeat' split) <;> simp

@[simp] theorem State.resetAtClose_gv (s : State) (ch : Nat) :
    ((State.resetAtClose s ch)).gv = s.gv := by
  unfold State.resetAtClose; (repeat' split) <;> simp

@[simp] theorem State.classAtClose_gv (s : State) (ch : Nat) :
    ((State.classAtClose s ch)).gv = s.gv := by
  unfold State.classAtClose; simp

@[simp] theorem State.sweepCloseSe_gv (s : State) :
    ((State.sweepCloseSe s)).gv = s.gv := by
  unfold State.sweepCloseSe; simp

@[simp] theorem State.limitUpdate_gv (s : State) :
    ((State.limitUpdate s)).gv = s.gv := by
  unfold State.limitUpdate
  extract_lets s1 served bulk dis chg cont soc
  have h : s1.gv = s.gv := foldl_gv _ _ _ (fun s ch => by
    split
    · exact (State.setChan_gv ..).trans ((State.reserveCheck_gv ..).trans (State.fullClear_gv ..))
    · exact State.setChan_gv ..)
  clear_value s1 soc cont chg dis
  rw [State.gv_mk]; exact h

@[simp] theorem State.resetLearned_gv (s : State) (mask : Nat) :
    ((State.resetLearned s mask)).gv = s.gv := by
  unfold State.resetLearned; simp

@[simp] theorem State.seRecordWrite_gv (s : State) :
    ((State.seRecordWrite s)).gv = s.gv := by
  unfold State.seRecordWrite; (repeat' split) <;> simp

@[simp] theorem State.seBoot_gv (s : State) : s.seBoot.gv = s.gv := by
  unfold State.seBoot
  split
  · rw [State.seqUsed_gv]; refine foldl_gv _ _ _ (fun s x => ?_); simp only [State.setChan_gv]
  · refine foldl_gv _ _ _ (fun s x => ?_); simp only [State.setChan_gv]

@[simp] theorem State.active_gv (s : State) (cluster i n : Nat) :
    (State.active s cluster i n).gv = s.gv := by
  unfold State.active; simp

@[simp] theorem State.hbmMoved_gv (s : State) (i pa n : Nat) :
    (State.hbmMoved s i pa n).gv = s.gv := by
  unfold State.hbmMoved; simp

@[simp] theorem State.setCore_gv (s : State) (c : Nat) (f : Core → Core) :
    ((State.setCore s c f)).gv = s.gv := by
  unfold State.setCore; simp

@[simp] theorem State.setStream_gv (s : State) (n : Nat) (f : Stream → Stream) :
    ((State.setStream s n f)).gv = s.gv := by
  unfold State.setStream; simp

@[simp] theorem State.setModel_gv (s : State) (k : Nat) (f : Model → Model) :
    ((State.setModel s k f)).gv = s.gv := by
  unfold State.setModel; simp

@[simp] theorem State.setJob_gv (s : State) (i : Nat) (f : Job → Job) :
    (State.setJob s i f).gv = s.gv := by
  unfold State.setJob; simp

@[simp] theorem State.failJobs_gv (s : State) (p : Nat → Job → Bool) :
    ((State.failJobs s p)).gv = s.gv := by
  unfold State.failJobs; simp

@[simp] theorem State.fixGroup_gv (s : State) (group : Nat) (core : Nat) (f : Run → Run) :
    ((State.fixGroup s group core f)).gv = s.gv := by
  unfold State.fixGroup; simp

@[simp] theorem State.breakBarriers_gv (s : State) (group : Nat) (core : Nat) :
    ((State.breakBarriers s group core)).gv = s.gv := by
  unfold State.breakBarriers; simp

@[simp] theorem State.dropRipen_gv (s : State) (c : Nat) (r : Run) :
    (State.dropRipen s c r).gv = s.gv := by
  unfold State.dropRipen; simp

@[simp] theorem State.keepWords_gv (s before : State) (cores : List Nat) :
    (State.keepWords s before cores).gv = s.gv := by
  unfold State.keepWords; dsimp only; (repeat' split) <;> simp

@[simp] theorem State.keepValid_gv (s before : State) :
    (State.keepValid s before).gv = s.gv := by
  unfold State.keepValid; dsimp only; (repeat' split) <;> simp

@[simp] theorem State.abandonIds_gv (s : State) (ids : List Nat) :
    (State.abandonIds s ids).gv = s.gv := by
  unfold State.abandonIds; (repeat' split) <;> simp

@[simp] theorem State.loaderWrites_gv (s : State) (core : Nat) (want : Area → Bool) :
    (State.loaderWrites s core want).gv = s.gv := by
  unfold State.loaderWrites; (repeat' split) <;> simp

@[simp] theorem State.dropPrograms_gv (s : State) (c : Nat) :
    ((State.dropPrograms s c)).gv = s.gv := by
  unfold State.dropPrograms; dsimp only; (repeat' split) <;> simp

@[simp] theorem State.fenceCore_gv (s : State) (c : Nat) (cause : Nat) :
    ((State.fenceCore s c cause)).gv = s.gv := by
  unfold State.fenceCore; (repeat' split) <;> simp

@[simp] theorem State.logFenced_gv (s : State) (who : Nat) (cause : Nat) :
    ((State.logFenced s who cause)).gv = s.gv := by
  unfold State.logFenced; simp

@[simp] theorem State.fenceOne_gv (s : State) (c : Nat) (cause : Nat) :
    ((State.fenceOne s c cause)).gv = s.gv := by
  unfold State.fenceOne; (repeat' split) <;> simp

@[simp] theorem State.writeMaster_gv (s : State) (n bytes : Nat) :
    (State.writeMaster s n bytes).gv = s.gv := by
  unfold State.writeMaster; simp

@[simp] theorem State.fillWaiting_gv (s : State) :
    (State.fillWaiting s).gv = s.gv := by
  unfold State.fillWaiting
  split
  · exact (foldl_gv _ _ _ (fun s x => by simp)).trans (State.te_gv ..)
  · rfl

@[simp] theorem State.fillMaster_gv (s : State) (n bytes : Nat) :
    (State.fillMaster s n bytes).gv = s.gv := by
  unfold State.fillMaster; simp

@[simp] theorem State.remaster_gv (s : State) (n : Nat) :
    ((State.remaster s n)).gv = s.gv := by
  unfold State.remaster; simp

@[simp] theorem State.fenceCluster_gv (s : State) (n : Nat) (cause : Nat) :
    ((State.fenceCluster s n cause)).gv = s.gv := by
  unfold State.fenceCluster; (repeat' split) <;> simp

@[simp] theorem State.stackFailed_gv (s : State) (n : Nat) (cause : Nat) :
    ((State.stackFailed s n cause)).gv = s.gv := by
  unfold State.stackFailed; simp

@[simp] theorem State.setRipening_gv (s : State) (i : Nat) (f : Model → Model) :
    (State.setRipening s i f).gv = s.gv := by
  unfold State.setRipening; simp

@[simp] theorem State.setKept_gv (s : State) (n : Nat) (x : Kept4) (off mask : Nat) :
    (State.setKept s n x off mask).gv = s.gv := by
  unfold State.setKept; (repeat' split) <;> simp

@[simp] theorem State.keptUpset_gv (s : State) (n : Nat) (x : Kept4) (off mask : Nat) :
    (State.keptUpset s n x off mask).gv = s.gv := by
  unfold State.keptUpset; (repeat' split) <;> simp

@[simp] theorem State.forecastBad_gv (s : State) (pa : Nat) :
    ((State.forecastBad s pa)).gv = s.gv := by
  unfold State.forecastBad; (repeat' split) <;> simp

@[simp] theorem State.hbmBad_gv (s : State) (pa : Nat) :
    ((State.hbmBad s pa)).gv = s.gv := by
  unfold State.hbmBad; simp

@[simp] theorem State.hbmFx_gv (s : State) (fx : MemFx) (pa : Nat) :
    ((State.hbmFx s fx pa)).gv = s.gv := by
  unfold State.hbmFx; (repeat' split) <;> simp

@[simp] theorem State.disagreed_gv (s : State) (n : Nat) :
    (State.disagreed s n).gv = s.gv := by
  unfold State.disagreed; simp

@[simp] theorem State.hbmUpsets_gv (s : State) (us : List Upset) : (s.hbmUpsets us).gv = s.gv := by
  unfold State.hbmUpsets; refine foldl_gv _ _ _ (fun s u => ?_); (repeat' split) <;> simp

@[simp] theorem State.blockLost_gv (s : State) (pa : Nat) :
    (State.blockLost s pa).gv = s.gv := by
  unfold State.blockLost; (repeat' split) <;> simp

@[simp] theorem State.hbmVote_gv (s : State) (pa n : Nat) :
    (State.hbmVote s pa n).gv = s.gv := by
  unfold State.hbmVote; simp

@[simp] theorem State.imageViolation_gv (s : State) (secure : Bool) (off n : Nat) :
    (State.imageViolation s secure off n).gv = s.gv := by
  unfold State.imageViolation; simp

@[simp] theorem State.imageFx_gv (s : State) (secure : Bool) (off n : Nat) : (s.imageFx secure off n).gv = s.gv := by
  unfold State.imageFx
  refine foldl_gv _ _ _ (fun s x => ?_)
  dsimp only; (repeat' split) <;> simp

@[simp] theorem State.loaderRead_gv (s : State) (n : Nat) (x : Kept4) (bytes : Nat) : (s.loaderRead n x bytes).1.gv = s.gv := by
  unfold State.loaderRead
  dsimp only
  refine (foldl_gv _ _ _ (fun s m => ?_)).trans ?_
  · split <;> simp
  · split <;> simp

@[simp] theorem State.readMaster_gv (s : State) (k : Nat) : (s.readMaster k).1.gv = s.gv := by
  unfold State.readMaster
  refine (foldl_gv_fst (fun (x : State × Bool × List (Nat × Nat)) n =>
    if x.2.1 then x else x.1.loaderRead n (.master k) (s.model k).imageLen) _ (s, false, []) (fun x n => ?_) :)
  split <;> simp

@[simp] theorem State.layAltered_gv (s : State) (core key : Nat) (words : List (Nat × Nat)) :
    (State.layAltered s core key words).gv = s.gv := by
  unfold State.layAltered
  refine foldl_gv _ _ _ (fun s x => ?_)
  dsimp only
  (repeat' split) <;> simp

@[simp] theorem State.bar2Store_gv (s : State) (off n v secure) : (s.bar2Store off n v secure).1.gv = s.gv := by
  unfold State.bar2Store
  extract_lets part s1 r
  have h1 : s1.gv = s.gv := by unfold s1; refine foldl_gv _ _ _ (fun s x => ?_); split <;> simp
  have hr : r.1.gv = s1.gv := by
    refine foldl_gv_fst _ _ ((s1, {}) : State × MemFx) (fun q x => ?_)
    unfold part; dsimp only; (repeat' split) <;> simp
  split
  · exact hr.trans h1
  · exact (State.cd_gv ..).trans (hr.trans h1)

@[simp] theorem State.wroteSiod_gv (s : State) (lo hi : Nat) :
    (State.wroteSiod s lo hi).gv = s.gv := by
  unfold State.wroteSiod; simp

@[simp] theorem State.sramCorrected_gv (s : State) (a : Nat) :
    ((State.sramCorrected s a)).gv = s.gv := by
  unfold State.sramCorrected; simp

@[simp] theorem State.dropIntake_gv (s : State) (n bank off : Nat) :
    (State.dropIntake s n bank off).gv = s.gv := by
  unfold State.dropIntake; simp

@[simp] theorem State.sramBad_gv (s : State) (a : Nat) :
    ((State.sramBad s a)).gv = s.gv := by
  unfold State.sramBad; dsimp only; (repeat' split) <;> simp

@[simp] theorem State.sramUpsets_gv (s : State) (us : List Sys2Proof.Upset) :
    ((State.sramUpsets s us)).gv = s.gv := by
  unfold State.sramUpsets; simp

@[simp] theorem State.upsets_gv (s : State) (us : List Sys2Proof.Upset) :
    ((State.upsets s us)).gv = s.gv := by
  unfold State.upsets; simp

@[simp] theorem State.sramVote_gv (s : State) (a : Nat) :
    (State.sramVote s a).gv = s.gv := by
  unfold State.sramVote; (repeat' split) <;> simp

@[simp] theorem State.sramAct_gv (s : State) (met : List (Nat × Option Ecc)) : (s.sramAct met).gv = s.gv := by
  unfold State.sramAct; refine foldl_gv _ _ _ (fun s u => ?_); split <;> simp

@[simp] theorem State.sramReadBut_gv (s : State) (seen : Nat → Bool) (want : Area → Bool) (a n : Nat) (rd : State → Nat → Nat → Blob) :
    (State.sramReadBut s seen want a n rd).s.gv = s.gv := by
  unfold State.sramReadBut; simp

@[simp] theorem State.sramRead_gv (s : State) (want : Area → Bool) (a n : Nat) (rd : State → Nat → Nat → Blob) :
    (State.sramRead s want a n rd).s.gv = s.gv := by
  unfold State.sramRead; simp

@[simp] theorem State.sramRewrite_gv (s : State) (ws : List Nat) : (s.sramRewrite ws).gv = s.gv := State.cd_gv ..

@[simp] theorem State.wroteArea_gv (s : State) (want : Area → Bool) (a n : Nat) :
    (State.wroteArea s want a n).gv = s.gv := by
  unfold State.wroteArea; simp

@[simp] theorem State.sramWrite_gv (s : State) (want m a n v) : (s.sramWrite want m a n v).1.s.gv = s.gv := by
  unfold State.sramWrite
  extract_lets odd partly s1 met bad s2
  have h1 : s1.gv = s.gv := by unfold s1; refine foldl_gv _ _ _ (fun s x => ?_); simp
  have h2 : s2.gv = s.gv := by unfold s2; simp [h1]
  split
  · exact h2
  · exact (State.sramRewrite_gv ..).trans h2

@[simp] theorem State.relay_gv (s : State) (core : Nat) :
    (State.relay s core).gv = s.gv := by
  unfold State.relay; dsimp only; (repeat' split) <;> simp

@[simp] theorem State.trimLayout_gv (s : State) :
    (State.trimLayout s).gv = s.gv := by
  unfold State.trimLayout; simp

@[simp] theorem State.bar2Read_gv (s : State) (off n us) : (s.bar2Read off n us).gv = s.gv := by
  unfold State.bar2Read
  split
  · rfl
  · extract_lets s1 part r
    have h1 : s1.gv = s.gv := State.hbmUpsets_gv ..
    have hr : r.1.gv = s1.gv := by
      refine foldl_gv_fst _ _ (s1, false, []) (fun q x => ?_)
      unfold part; dsimp only; (repeat' split) <;> simp
    split <;> simp [hr, h1]

@[simp] theorem State.bar2Write_gv (s : State) (off n v us) : (s.bar2Write off n v us).gv = s.gv := by
  unfold State.bar2Write
  split
  · rfl
  · refine (foldl_gv _ _ _ (fun s x => ?_)).trans (State.hbmUpsets_gv ..)
    dsimp only; (repeat' split) <;> simp

@[simp] theorem State.setHbmMask_gv (s : State) (pa mask : Nat) :
    (State.setHbmMask s pa mask).gv = s.gv := by
  unfold State.setHbmMask; (repeat' split) <;> simp

@[simp] theorem State.blockVote_gv (s : State) (b : Nat) :
    (State.blockVote s b).gv = s.gv := by
  unfold State.blockVote; dsimp only; (repeat' split) <;> simp

@[simp] theorem State.hbmScrubWord_gv (s : State) (a : Nat) (again : List Sys2Proof.Upset) :
    ((State.hbmScrubWord s a again)).gv = s.gv := by
  unfold State.hbmScrubWord; dsimp only; (repeat' split) <;> simp

@[simp] theorem State.hbmPassEnd_gv (s : State) (n : Nat) :
    ((State.hbmPassEnd s n)).gv = s.gv := by
  unfold State.hbmPassEnd; simp

@[simp] theorem State.hbmScrub_gv (s : State) (n : Nat) (us : List Sys2Proof.Upset) (again : List Sys2Proof.Upset) :
    ((State.hbmScrub s n us again)).gv = s.gv := by
  unfold State.hbmScrub; dsimp only; (repeat' split) <;> simp

@[simp] theorem State.sramReadBack_gv (s : State) (m a : Nat) (again) : (s.sramReadBack m a again).gv = s.gv := by
  unfold State.sramReadBack; dsimp only; (repeat' split) <;> simp

@[simp] theorem State.sramScrubWord_gv (s : State) (m w : Nat) (again) : (s.sramScrubWord m w again).gv = s.gv :=
  (State.sramReadBack_gv ..).trans (State.cd_gv ..)

@[simp] theorem State.sramScrub_gv (s : State) (m : Nat) (us again) : (s.sramScrub m us again).gv = s.gv := by
  unfold State.sramScrub
  split
  · rfl
  · dsimp only
    split
    · exact State.sramUpsets_gv ..
    · rw [State.sramScrubWord_gv, State.sramUpsets_gv]

@[simp] theorem State.refreshUpdate_gv (s : State) (n : Nat) (readout : Option Int) :
    ((State.refreshUpdate s n readout)).gv = s.gv := by
  unfold State.refreshUpdate; dsimp only; (repeat' split) <;> simp

@[simp] theorem State.discardResult_gv (s : State) (n : Nat) :
    (State.discardResult s n).gv = s.gv := by
  unfold State.discardResult; simp

@[simp] theorem State.bump_gv (s : State) (n : Nat) :
    ((State.bump s n)).gv = s.gv := by
  unfold State.bump; simp

@[simp] theorem State.sendCopies_gv (s : State) (cluster : Nat) :
    (State.sendCopies s cluster).gv = s.gv := by
  unfold State.sendCopies; simp

@[simp] theorem State.sendAllCopies_gv (s : State) :
    (State.sendAllCopies s).gv = s.gv := by
  unfold State.sendAllCopies; simp

@[simp] theorem State.loadToll_gv (s : State) (core bytes : Nat) (load : Bool) :
    (State.loadToll s core bytes load).gv = s.gv := by
  unfold State.loadToll; simp

@[simp] theorem State.copiesDone_gv (s : State) (core : Nat) (load : Bool) :
    (State.copiesDone s core load).gv = s.gv := by
  unfold State.copiesDone; simp

@[simp] theorem State.returnCopy_gv (s : State) (cluster : Nat) :
    (State.returnCopy s cluster).gv = s.gv := by
  unfold State.returnCopy; dsimp only; (repeat' split) <;> simp

@[simp] theorem State.replaceStream_gv (s : State) (since n : Nat) :
    (State.replaceStream s since n).gv = s.gv := by
  unfold State.replaceStream; dsimp only; (repeat' split) <;> simp

@[simp] theorem State.placeFenced_gv (s : State) :
    (State.placeFenced s).gv = s.gv := by
  unfold State.placeFenced; simp

@[simp] theorem State.retryUnplaced_gv (s : State) : s.retryUnplaced.gv = s.gv := by
  unfold State.retryUnplaced
  split
  · extract_lets ns s1
    have h1 : s1.gv = s.gv := by
      unfold s1; refine foldl_gv _ _ _ (fun s n => ?_); split <;> simp
    exact (State.te_gv ..).trans h1
  · rfl

@[simp] theorem State.store_gv (s : State) (addr len : Nat) (data : Blob) :
    (State.store s addr len data).gv = s.gv := by
  unfold State.store; simp

@[simp] theorem State.writeCatalogue_gv (s : State) :
    ((State.writeCatalogue s)).gv = s.gv := by
  unfold State.writeCatalogue; simp

@[simp] theorem State.catalogueFrame_gv (s : State) :
    (State.catalogueFrame s).gv = s.gv := by
  unfold State.catalogueFrame; simp

@[simp] theorem State.recordLoad_gv (s : State) (m : Model) (order : Nat) :
    ((State.recordLoad s m order).1).gv = s.gv := by
  unfold State.recordLoad; dsimp only; (repeat' split) <;> simp

@[simp] theorem State.pruneCatalogue_gv (s : State) (gone : List Nat) : (s.pruneCatalogue gone).gv = s.gv := by
  unfold State.pruneCatalogue; simp

@[simp] theorem State.pruneModels_gv (s : State) :
    ((State.pruneModels s)).gv = s.gv := by
  unfold State.pruneModels; simp

@[simp] theorem State.imageRead_gv (s : State) (use : ImageUse) (secure : Bool) (addr : Nat) :
    (State.imageRead s use secure addr).gv = s.gv := by
  unfold State.imageRead; simp

@[simp] theorem State.abandonFor_gv (s : State) (ns : List Nat) :
    ((State.abandonFor s ns)).gv = s.gv := by
  unfold State.abandonFor; (repeat' split) <;> simp

@[simp] theorem State.beginLoad_gv (s : State) (l : Load) (m : Model) :
    (State.beginLoad s l m).gv = s.gv := by
  unfold State.beginLoad; dsimp only; simp

@[simp] theorem State.startLoad_gv (s : State) (d : Sys2Proof.Blob) (secure : Bool) (source : Nat) :
    ((State.startLoad s d secure source)).gv = s.gv := by
  unfold State.startLoad; dsimp only; (repeat' split) <;> simp

@[simp] theorem State.takeSettings_gv (s : State) (n : Nat) :
    ((State.takeSettings s n)).gv = s.gv := by
  unfold State.takeSettings; simp

@[simp] theorem State.loadFrame_gv (s : State) :
    (State.loadFrame s).gv = s.gv := by
  unfold State.loadFrame
  dsimp only
  split
  · rfl
  · split
    · rfl
    · split
      · simp
      · refine (foldl_gv _ _ _ (fun s c => ?_)).trans (by simp)
        split <;> simp

@[simp] theorem State.newRun_gv (s : State) (m : Model) (c : Nat) (group : Nat) (secure : Bool) (completion : Nat) :
    ((State.newRun s m c group secure completion).2).gv = s.gv := by
  unfold State.newRun; simp

@[simp] theorem State.rerun_gv (s : State) (n : Nat) :
    (State.rerun s n).gv = s.gv := by
  unfold State.rerun; (repeat' split) <;> simp

@[simp] theorem State.openArea_gv (s : State) (n : Nat) :
    (State.openArea s n).gv = s.gv := by
  unfold State.openArea; simp

@[simp] theorem State.sendHint_gv (s : State) (cluster : Nat) (m : HintMsg) :
    ((State.sendHint s cluster m)).gv = s.gv := by
  unfold State.sendHint; simp

@[simp] theorem State.schedulerHints_gv (s : State) :
    ((State.schedulerHints s)).gv = s.gv := by
  unfold State.schedulerHints; simp

@[simp] theorem State.startRun_gv (s : State) (c j n : Nat) :
    (State.startRun s c j n).gv = s.gv := by
  unfold State.startRun; simp

@[simp] theorem State.firstRun_gv (s : State) (n : Nat) :
    (State.firstRun s n).gv = s.gv := by
  unfold State.firstRun; (repeat' split) <;> simp

@[simp] theorem State.commitLoad_gv (s : State) :
    ((State.commitLoad s)).gv = s.gv := by
  unfold State.commitLoad; (repeat' split) <;> simp

@[simp] theorem State.replayPlace_gv (s : State) (n key : Nat) :
    (State.replayPlace s n key).gv = s.gv := by
  unfold State.replayPlace; (repeat' split) <;> simp

@[simp] theorem State.replayOne_gv (s : State) (e : ModelEntry) :
    (State.replayOne s e).gv = s.gv := by
  unfold State.replayOne; simp

@[simp] theorem State.replayLoads_gv (s : State) (c : ModelCatalogue) :
    (State.replayLoads s c).gv = s.gv := by
  unfold State.replayLoads; simp

@[simp] theorem State.startUnload_gv (s : State) (arg : Nat) :
    ((State.startUnload s arg)).gv = s.gv := by
  unfold State.startUnload; simp

@[simp] theorem State.finishUnloads_gv (s : State) : s.finishUnloads.gv = s.gv := by
  unfold State.finishUnloads
  extract_lets ns s1
  have h1 : s1.gv = s.gv := by unfold s1; refine foldl_gv _ _ _ (fun s x => ?_); simp
  split
  · rfl
  · rw [State.pruneCatalogue_gv, State.pruneModels_gv]
    exact (State.te_gv ..).trans h1

@[simp] theorem State.hostWork_gv (s : State) (d : Sys2Proof.Blob) (secure : Bool) (source : Nat) :
    ((State.hostWork s d secure source)).gv = s.gv := by
  unfold State.hostWork; simp

@[simp] theorem State.ripeningImage_gv (s : State) (d : Sys2Proof.Blob) (secure : Bool) (source : Nat) :
    ((State.ripeningImage s d secure source)).gv = s.gv := by
  unfold State.ripeningImage
  extract_lets ident addr finish known busy
  have hf : ∀ t x, (finish t x).gv = t.gv := by intro t x; unfold finish; dsimp only; split <;> simp
  clear_value finish known busy
  repeat' (first | (simp +zetaDelta [hf]; done) | split)

@[simp] theorem State.startJob_gv (s : State) (ident : Nat) :
    ((State.startJob s ident)).gv = s.gv := by
  unfold State.startJob
  split
  · extract_lets cores since due committing g job got s1 m1 te s2
    have hg : got.1.gv = s.gv := by
      unfold got
      exact foldl_gv_fst _ _ ((s, []) : State × List (Nat × Nat)) (fun q n => by simp)
    have h2 : s2.gv = s.gv := (State.te_gv ..).trans hg
    split
    · rfl
    · rw [State.promote_gv]
      refine (foldl_gv _ _ _ (fun s c => ?_)).trans h2
      simp
  · rfl

@[simp] theorem State.rejectJob_gv (s : State) (ident : Nat) : (s.rejectJob ident).gv = s.gv := by
  unfold State.rejectJob; rw [State.keepValid_gv, State.dropJob_gv, State.count_gv]

@[simp] theorem State.judgeJob_gv (s : State) (ident : Nat) : (s.judgeJob ident).gv = s.gv := by
  unfold State.judgeJob
  split
  · rfl
  · extract_lets left ok
    clear_value left ok
    split
    · rfl
    · split
      · exact State.te_gv ..
      · exact State.rejectJob_gv ..

@[simp] theorem State.judgeJobs_gv (s : State) : s.judgeJobs.gv = s.gv := by
  unfold State.judgeJobs; exact foldl_gv _ _ _ (fun s x => State.judgeJob_gv ..)

@[simp] theorem State.startRipeningCommit_gv (s : State) :
    ((State.startRipeningCommit s)).gv = s.gv := by
  unfold State.startRipeningCommit; (repeat' split) <;> simp

@[simp] theorem State.jobTimeout_gv (s : State) (ident : Nat) :
    ((State.jobTimeout s ident)).gv = s.gv := by
  unfold State.jobTimeout; (repeat' split) <;> simp

@[simp] theorem State.openBank_gv (s : State) :
    ((State.openBank s)).gv = s.gv := by
  unfold State.openBank; simp

@[simp] theorem State.startRuns_gv (s : State) (c : Nat) (j : Nat) :
    ((State.startRuns s c j)).gv = s.gv := by
  unfold State.startRuns; simp

@[simp] theorem State.resumeCopies_gv (s : State) :
    (State.resumeCopies s).gv = s.gv := by
  unfold State.resumeCopies; simp

@[simp] theorem State.syncRooms_gv (s : State) :
    (State.syncRooms s).gv = s.gv := by
  unfold State.syncRooms; simp

@[simp] theorem State.gateClusters_gv (s : State) :
    ((State.gateClusters s)).gv = s.gv := by
  unfold State.gateClusters; simp

@[simp] theorem State.stopReplaced_gv (s : State) :
    (State.stopReplaced s).gv = s.gv := by
  unfold State.stopReplaced
  split
  · rfl
  · dsimp only
    split
    · refine (State.te_gv ..).trans (foldl_gv _ _ _ (fun s n => ?_))
      split <;> simp
    · simp

@[simp] theorem State.stopSuspended_gv (s : State) :
    ((State.stopSuspended s)).gv = s.gv := by
  unfold State.stopSuspended; simp

@[simp] theorem State.teBoundary_gv (s : State) (j : Nat) :
    ((State.teBoundary s j)).gv = s.gv := by
  unfold State.teBoundary; dsimp only; (repeat' split) <;> simp

@[simp] theorem State.takeIntake_gv (s : State) (cluster : Nat) :
    (State.takeIntake s cluster).gv = s.gv := by
  unfold State.takeIntake; dsimp only; (repeat' split) <;> simp

@[simp] theorem State.sealBank_gv (s : State) (j : Nat) :
    ((State.sealBank s j)).gv = s.gv := by
  unfold State.sealBank; refine (foldl_gv _ _ _ (fun s x => ?_)).trans ?_ <;> ((repeat' split) <;> simp)

@[simp] theorem State.bankReuse_gv (s : State) (c : Nat) :
    ((State.bankReuse s c)).gv = s.gv := by
  unfold State.bankReuse; simp

@[simp] theorem State.fenceCommand_gv (s : State) (arg : Nat) :
    ((State.fenceCommand s arg)).gv = s.gv := by
  unfold State.fenceCommand; (repeat' split) <;> simp

@[simp] theorem State.selfTestDone_gv (s : State) (c : Nat) (pass : Bool) :
    ((State.selfTestDone s c pass)).gv = s.gv := by
  unfold State.selfTestDone; (repeat' split) <;> simp

@[simp] theorem State.rewriteVat_gv (s : State) (c k : Nat) (words : List (Nat × Nat)) :
    (State.rewriteVat s c k words).gv = s.gv := by
  unfold State.rewriteVat; dsimp only; (repeat' split) <;> simp

@[simp] theorem State.masterRestore_gv (s : State) (ident : Nat) (us : List Upset) :
    (State.masterRestore s ident us).gv = s.gv := by
  unfold State.masterRestore; dsimp only; (repeat' split) <;> simp

@[simp] theorem State.setRun_gv (s : State) (p : Sys2Proof.ProgRef) (r : Run) :
    ((State.setRun s p r)).gv = s.gv := by
  unfold State.setRun; (repeat' split) <;> simp

@[simp] theorem State.goOn_gv (s : State) (p : Sys2Proof.ProgRef) (c : Nat) (r : Run) (index : Nat) :
    ((State.goOn s p c r index)).gv = s.gv := by
  unfold State.goOn; (repeat' split) <;> simp

@[simp] theorem State.strand_gv (s : State) :
    ((State.strand s)).gv = s.gv := by
  unfold State.strand; simp

@[simp] theorem State.leaveGroup_gv (s : State) (r : Run) :
    ((State.leaveGroup s r)).gv = s.gv := by
  unfold State.leaveGroup; simp

@[simp] theorem State.quit_gv (s : State) (c : Nat) (p : ProgRef) :
    (State.quit s c p).gv = s.gv := by
  unfold State.quit; simp

@[simp] theorem State.takeBeats_gv (s : State) (p : ProgRef) (c beats : Nat) (counted : Bool) :
    (State.takeBeats s p c beats counted).gv = s.gv := by
  unfold State.takeBeats; simp

@[simp] theorem State.fillWaits_gv (s : State) (fills : Nat) : (s.fillWaits fills).gv = s.gv := by
  unfold State.fillWaits; split
  · rfl
  · exact State.count_gv ..

@[simp] theorem State.finishHost_gv (s : State) (c status cycles : Nat) :
    (State.finishHost s c status cycles).gv = s.gv := by
  unfold State.finishHost; dsimp only; repeat' (first | rfl | simp | split)

@[simp] theorem State.countRecords_gv (s : State) :
    (State.countRecords s).gv = s.gv := by
  unfold State.countRecords; simp

@[simp] theorem State.endHost_gv (s : State) (c : Nat) (status : Nat) (cycles : Nat) :
    ((State.endHost s c status cycles)).gv = s.gv := by
  unfold State.endHost; (repeat' split) <;> simp

@[simp] theorem State.endRipen_gv (s : State) (c : Nat) (done : Bool) :
    ((State.endRipen s c done)).gv = s.gv := by
  unfold State.endRipen; (repeat' split) <;> simp

@[simp] theorem State.settle_gv (n : Nat) (s : State) : (State.settle n s).gv = s.gv := by
  induction n generalizing s with
  | zero => rfl
  | succ n ih => unfold State.settle; dsimp only; (repeat' split) <;> simp [ih]

@[simp] theorem State.settled_gv (s : State) : s.settled.gv = s.gv := by unfold State.settled; simp

@[simp] theorem State.endStream_gv (s : State) (n : Nat) :
    ((State.endStream s n)).gv = s.gv := by
  unfold State.endStream; (repeat' split) <;> simp

@[simp] theorem State.endBad_gv (s : State) (p : Sys2Proof.ProgRef) (status : Nat) :
    ((State.endBad s p status)).gv = s.gv := by
  unfold State.endBad; (repeat' split) <;> simp

@[simp] theorem State.boundsFault_gv (s : State) (p : Sys2Proof.ProgRef) (c : Nat) (r : Run) :
    ((State.boundsFault s p c r)).gv = s.gv := by
  unfold State.boundsFault; (repeat' split) <;> simp

@[simp] theorem State.areaMoved_gv (s : State) (c : Nat) (x : Area) (write : Bool) (a n : Nat) :
    (State.areaMoved s c x write a n).gv = s.gv := by
  unfold State.areaMoved; (repeat' split) <;> simp

@[simp] theorem State.areaReadBut_gv (s : State) (again : Bool) (seen : Nat → Bool) (r : Run) (c : Nat) (x : Area) (a n : Nat) (rd : State → Nat → Nat → Blob) :
    (State.areaReadBut s again seen r c x a n rd).s.gv = s.gv := by
  unfold State.areaReadBut; (repeat' split) <;> simp

@[simp] theorem State.areaRead_gv (s : State) (r : Run) (c : Nat) (x : Area) (a n : Nat) (rd : State → Nat → Nat → Blob) :
    (State.areaRead s r c x a n rd).s.gv = s.gv := by
  unfold State.areaRead; simp

@[simp] theorem State.areaWrite_gv (s : State) (r : Run) (c : Nat) (x : Area) (m : Mem) (a n : Nat) (v : Blob) :
    (State.areaWrite s r c x m a n v).1.s.gv = s.gv := by
  unfold State.areaWrite; (repeat' split) <;> simp

@[simp] theorem State.setKeptMem_gv (s : State) (x : Kept4) (m : Mem) :
    (State.setKeptMem s x m).gv = s.gv := by
  unfold State.setKeptMem; (repeat' split) <;> simp

@[simp] theorem State.keptVote_gv (s : State) (x : Kept4) (off len : Nat) :
    (State.keptVote s x off len).gv = s.gv := by
  unfold State.keptVote; simp

@[simp] theorem State.keptRead_gv (s : State) (r : Run) (n : Nat) (x : Kept4) (off len : Nat) :
    (State.keptRead s r n x off len).s.gv = s.gv := by
  unfold State.keptRead; (repeat' split) <;> simp

@[simp] theorem State.keptWrite_gv (s : State) (r n x off len v) : (s.keptWrite r n x off len v).s.gv = s.gv := by
  unfold State.keptWrite; (repeat' split) <;> simp

@[simp] theorem State.vatRead_gv (s : State) (again : Bool) (seen : Nat → Bool) (r : Run) (c k off len : Nat) (data : Nat → Nat → Blob) :
    (s.vatRead again seen r c k off len data).s.gv = s.gv := by
  unfold State.vatRead
  dsimp only
  split
  · rfl
  · split
    · simp
    · refine (foldl_gv _ _ _ (fun s w => ?_)).trans ?_
      · split <;> simp
      · rw [State.hbmVote_gv]; split <;> simp

@[simp] theorem State.batchNote_gv (s : State) (c : Nat) (r : Run) (key a n : Nat) :
    (State.batchNote s c r key a n).gv = s.gv := by
  unfold State.batchNote; (repeat' split) <;> simp

@[simp] theorem State.surface_gv (s : State) (p : ProgRef) (c : Nat) (r : Run) (kind a n : Nat) :
    (State.surface s p c r kind a n).gv = s.gv := by
  unfold State.surface
  dsimp only
  split
  · rfl
  · split
    · rw [State.setStream_gv]; rfl
    · rw [State.setStream_gv]; rfl
    · rfl

@[simp] theorem State.weightsRead_gv (s : State) (p : ProgRef) (c : Nat) (r : Run) (k a n : Nat) :
    (State.weightsRead s p c r k a n).s.gv = s.gv := by
  unfold State.weightsRead
  extract_lets w data part batch again s1 seen
  split
  · rfl
  · extract_lets l q h odd s2 read g g2 g3
    have h1 : s1.gv = s.gv := by unfold s1; split <;> simp
    have h2 : s2.gv = s.gv := by unfold s2; split <;> simp [h1]
    have hr : ∀ (t : State) (x : Area) (z : Nat × Nat), (read t x z).s.gv = t.gv := fun t x z => by
      unfold read; split <;> simp
    have h3 : g3.s.gv = g2.s.gv := State.vatRead_gv ..
    exact h3.trans ((hr ..).trans ((hr ..).trans h2))

@[simp] theorem State.hostmemRead_gv (s : State) (r a n) : (s.hostmemRead r a n).s.gv = s.gv := by
  unfold State.hostmemRead
  extract_lets part g
  refine foldl_gv_of (fun x => x.1.s) part _ ((⟨s, 0, true⟩, []) : Got × List (Nat × Nat)) (fun q x => ?_)
  unfold part; dsimp only; (repeat' split) <;> simp

@[simp] theorem State.readArea_gv (s : State) (p c r kind a n) : (s.readArea p c r kind a n).s.gv = s.gv := by
  unfold State.readArea
  extract_lets s1 scratch
  have h1 : s1.gv = s.gv := State.surface_gv ..
  clear_value s1 scratch
  split
  all_goals try split
  all_goals first
    | exact h1
    | simp only [State.areaRead_gv, State.weightsRead_gv, State.keptRead_gv, State.hostmemRead_gv, h1]; done
    | (refine (foldl_gv_of (fun x => x.1.s) _ _ ((⟨s1, 0, true⟩, []) : Got × List (Nat × Nat)) (fun q x => ?_)).trans h1
       simp only [State.keptRead_gv])

@[simp] theorem State.writeArea_gv (s : State) (p : ProgRef) (c : Nat) (r : Run) (kind a n : Nat) (v : Blob) :
    (s.writeArea p c r kind a n v).1.s.gv = s.gv := by
  unfold State.writeArea
  extract_lets s1 scratch put x
  have h0 : s1.gv = s.gv := State.surface_gv ..
  have hs : ∀ x, (scratch x).1.s.gv = s1.gv := fun x => by unfold scratch; simp
  clear_value s1
  rw [← h0]
  clear h0
  split
  · simp
  · simp [hs]
  · exact hs _
  · exact hs _
  · simp
  · split
    · simp
    · rfl
  · simp
  · extract_lets parts s2 drops
    have hp : ∀ (x : Got) h, (put x h).s.gv = x.s.gv := fun x h => by unfold put; simp
    have h1 : s2.gv = s1.gv := by
      unfold s2; refine foldl_gv _ _ _ (fun s h => ?_); split <;> simp
    exact (foldl_gv_of (fun x : Got => x.s) put _ (⟨s2, 0, true⟩ : Got) (fun x h => hp x h)).trans h1
  · unfold x; simp
  · rfl

@[simp] theorem State.operand_gv (s : State) (p c r cmd i n) : (s.operand p c r cmd i n).s.gv = s.gv := by
  unfold State.operand; dsimp only; (repeat' split) <;> simp

@[simp] theorem State.result_gv (s : State) (p c r cmd i n v) : (s.result p c r cmd i n v).1.s.gv = s.gv := by
  unfold State.result; dsimp only; (repeat' split) <;> simp

@[simp] theorem State.teCount_gv (s : State) (p : Sys2Proof.ProgRef) (c : Nat) (k : TeCount) :
    ((State.teCount s p c k)).gv = s.gv := by
  unfold State.teCount; (repeat' split) <;> simp

@[simp] theorem State.failed_gv (s : State) (p : Sys2Proof.ProgRef) :
    ((State.failed s p)).gv = s.gv := by
  unfold State.failed; (repeat' split) <;> simp

@[simp] theorem State.fetch_gv (s : State) (p : ProgRef) (c : Nat) (r : Run) :
    (State.fetch s p c r).s.gv = s.gv := by
  unfold State.fetch; dsimp only; (repeat' split) <;> simp

@[simp] theorem State.reserveRead_gv (s : State) (c : Nat) : (s.reserveRead c).1.gv = s.gv := by
  unfold State.reserveRead
  extract_lets odd s1 met bad
  have h1 : s1.gv = s.gv := by unfold s1; refine foldl_gv _ _ _ (fun s x => ?_); simp
  split
  · rfl
  · show ((s1.sramAct met).sramRewrite _).gv = s.gv
    rw [State.sramRewrite_gv, State.sramAct_gv, h1]

@[simp] theorem State.issue_gv (s : State) (p : ProgRef) :
    (State.issue s p).1.gv = s.gv := by
  unfold State.issue; dsimp only; (repeat' split) <;> simp

@[simp] theorem State.awaitCredit_gv (s : State) (p : ProgRef) (r : Run) (sub items : Nat) :
    (State.awaitCredit s p r sub items).gv = s.gv := by
  unfold State.awaitCredit; simp

@[simp] theorem State.finishCommand_gv (s : State) (p c r cmd k i n v) : (s.finishCommand p c r cmd k i n v).gv = s.gv := by
  unfold State.finishCommand
  extract_lets x
  have hx : x.1.s.gv = s.gv := State.result_gv ..
  split
  · rw [State.settled_gv, State.goOn_gv, State.teCount_gv, State.takeBeats_gv, hx]
  · rw [State.settled_gv, State.failed_gv, hx]

@[simp] theorem State.operands_gv (s : State) (p c r cmd reads) : (s.operands p c r cmd reads).1.gv = s.gv := by
  unfold State.operands; exact foldl_gv_fst _ _ (s, [], true) (fun q x => State.operand_gv ..)

@[simp] theorem State.runIssued_gv (s : State) (p : ProgRef) (c : Nat) (r : Run) (cmd : Blob) (fx : ExecFx) (w : Work) :
    (State.runIssued s p c r cmd fx w).gv = s.gv := by
  unfold State.runIssued; (repeat' split) <;> simp

@[simp] theorem State.runCommand_gv (s : State) (p op fx extra work) : (s.runCommand p op fx extra work).gv = s.gv := by
  have hu : (s.upsets fx.upsets).gv = s.gv := State.upsets_gv ..
  have hi := (State.issue_gv (s.upsets fx.upsets) p).trans hu
  unfold State.runCommand
  split
  · rename_i t h; rw [h] at hi; exact hi
  · rename_i t c r cmd h
    rw [h] at hi
    extract_lets w beats
    repeat' split
    all_goals first | exact hu | skip
    · rw [State.settled_gv, State.boundsFault_gv]; exact hi
    · rw [State.awaitCredit_gv]; exact hu
    · rw [State.runIssued_gv]; exact hi

@[simp] theorem State.rows_gv (s : State) (p c r kind base row idx) : (s.rows p c r kind base row idx).1.gv = s.gv := by
  unfold State.rows; refine foldl_gv_fst _ _ (s, [], true) (fun q x => ?_)
  dsimp only; split
  · rfl
  · exact State.readArea_gv ..

@[simp] theorem State.gather_gv (s : State) (p c r cmd) : (s.gather p c r cmd).gv = s.gv := by
  unfold State.gather
  extract_lets n row ix idx
  have h1 : ix.s.gv = s.gv := State.operand_gv ..
  split
  · rw [State.settled_gv, State.failed_gv, h1]
  · split
    · rfl
    · split
      · rw [State.settled_gv, State.boundsFault_gv, h1]
      · extract_lets got
        have hg : got.1.gv = s.gv := (State.rows_gv ..).trans h1
        split
        · rw [State.settled_gv, State.failed_gv, hg]
        · rw [State.finishCommand_gv, hg]

@[simp] theorem State.releaseBarrier_gv (s : State) (g : Nat) (i : Nat) :
    ((State.releaseBarrier s g i)).gv = s.gv := by
  unfold State.releaseBarrier; simp

@[simp] theorem State.endTollWait_gv (s : State) (unit : Nat) :
    ((State.endTollWait s unit)).gv = s.gv := by
  unfold State.endTollWait; simp

@[simp] theorem State.sendBeat_gv (s : State) (c : Nat) :
    (State.sendBeat s c).gv = s.gv := by
  unfold State.sendBeat; (repeat' split) <;> simp

@[simp] theorem State.storeResult_gv (s : State) (n : Nat) (r : Result) :
    (State.storeResult s n r).gv = s.gv := by
  unfold State.storeResult; simp

@[simp] theorem State.acceptResult_gv (s : State) (core : Nat) :
    ((State.acceptResult s core)).gv = s.gv := by
  unfold State.acceptResult; (repeat' split) <;> simp

@[simp] theorem State.classify_gv (s : State) (l : List (Nat × Result)) (j : Nat) (es : List Shelf) :
    ((State.classify s l j es)).gv = s.gv := by
  unfold State.classify; simp

@[simp] theorem State.mergeStart_gv (s : State) (j : Nat) :
    (State.mergeStart s j).gv = s.gv := by
  unfold State.mergeStart; simp

@[simp] theorem State.mergeStop_gv (s : State) (j : Nat) :
    (State.mergeStop s j).gv = s.gv := by
  unfold State.mergeStop; simp

@[simp] theorem State.mergeStrike_gv (s : State) (us : List MergeUpset) :
    (State.mergeStrike s us).gv = s.gv := by
  unfold State.mergeStrike; simp

@[simp] theorem State.mergeVote_gv (s : State) :
    (State.mergeVote s).gv = s.gv := by
  unfold State.mergeVote; simp

@[simp] theorem State.mergeErrors_gv (s : State) : s.mergeErrors.1.gv = s.gv := by
  unfold State.mergeErrors
  extract_lets met lost
  refine foldl_gv_fst _ _ (s, lost) (fun x e => ?_)
  split
  · rfl
  · simp
  · extract_lets s1 d s2
    have h2 : s2.gv = x.1.gv := by unfold s2 d s1; simp
    split
    · exact h2
    · exact h2

@[simp] theorem State.mergeEmit_gv (s : State) (j : Nat) :
    (State.mergeEmit s j).gv = s.gv := by
  unfold State.mergeEmit; simp

@[simp] theorem State.mergeRun_gv (s : State) (us : List MergeUpset) :
    (State.mergeRun s us).gv = s.gv := by
  unfold State.mergeRun; dsimp only; (repeat' split) <;> simp

@[simp] theorem State.mergeOverrun_gv (s : State) :
    ((State.mergeOverrun s)).gv = s.gv := by
  unfold State.mergeOverrun; (repeat' split) <;> simp

@[simp] theorem State.setLanding_gv (s : State) (l : Nat) (f : Landing → Landing) :
    ((State.setLanding s l f)).gv = s.gv := by
  unfold State.setLanding; simp

@[simp] theorem State.setLink_gv (s : State) (l : Nat) (f : Link → Link) :
    ((State.setLink s l f)).gv = s.gv := by
  unfold State.setLink; simp

@[simp] theorem State.setGroup_gv (s : State) (g : Nat) (f : JobGroup → JobGroup) :
    ((State.setGroup s g f)).gv = s.gv := by
  unfold State.setGroup; simp

@[simp] theorem State.correct_gv (s : State) (g : Nat) :
    ((State.correct s g)).gv = s.gv := by
  unfold State.correct; simp

@[simp] theorem State.applyBudget_gv (s : State) :
    ((State.applyBudget s)).gv = s.gv := by
  unfold State.applyBudget; (repeat' split) <;> simp

@[simp] theorem State.setDeficit_gv (s : State) (d : Rat) :
    ((State.setDeficit s d)).gv = s.gv := by
  unfold State.setDeficit; (repeat' split) <;> simp

@[simp] theorem State.addDurations_gv (s : State) :
    ((State.addDurations s)).gv = s.gv := by
  unfold State.addDurations; simp

@[simp] theorem State.runPeriod_gv (s : State) (u : Rat) :
    ((State.runPeriod s u)).gv = s.gv := by
  unfold State.runPeriod; (repeat' (first | rfl | (refine (foldl_gv _ _ _ (fun s x => ?_)).trans ?_) | split | simp))

@[simp] theorem State.budgetPeriod_gv (s : State) :
    ((State.budgetPeriod s)).gv = s.gv := by
  unfold State.budgetPeriod; (repeat' split) <;> simp

@[simp] theorem State.bmRecord_gv (s : State) (l : Nat) :
    ((State.bmRecord s l)).gv = s.gv := by
  unfold State.bmRecord; dsimp only; (repeat' split) <;> simp

@[simp] theorem State.barrierRelease_gv (s : State) (g : Nat) :
    ((State.barrierRelease s g)).gv = s.gv := by
  unfold State.barrierRelease; dsimp only; (repeat' split) <;> simp

@[simp] theorem State.releaseProgress_gv (s : State) (now : Nat) :
    ((State.releaseProgress s now)).gv = s.gv := by
  unfold State.releaseProgress; refine (foldl_gv _ _ _ (fun s x => ?_)).trans ?_ <;> ((repeat' split) <;> simp)

@[simp] theorem State.addEnergy_gv (s : State) (j : Nat) :
    ((State.addEnergy s j)).gv = s.gv := by
  unfold State.addEnergy; simp

@[simp] theorem State.suspendCore_gv (s : State) (was : Bool) : (s.suspendCore was).gv = s.gv := by
  unfold State.suspendCore; dsimp only; (repeat' split) <;> simp

@[simp] theorem State.resumeCore_gv (s : State) :
    ((State.resumeCore s)).gv = s.gv := by
  unfold State.resumeCore; (repeat' split) <;> simp

@[simp] theorem State.aim_gv (s : State) (p : Nat) :
    ((State.aim s p)).gv = s.gv := by
  unfold State.aim; (repeat' split) <;> simp

@[simp] theorem State.reaim_gv (s : State) :
    ((State.reaim s)).gv = s.gv := by
  unfold State.reaim; (repeat' split) <;> simp

@[simp] theorem State.pointChange_gv (s : State) (p : Nat) :
    ((State.pointChange s p)).gv = s.gv := by
  unfold State.pointChange; (repeat' split) <;> simp

@[simp] theorem State.slewStep_gv (s : State) :
    ((State.slewStep s)).gv = s.gv := by
  unfold State.slewStep; dsimp only; (repeat' split) <;> simp

@[simp] theorem State.fixedPointChanged_gv (s : State) :
    ((State.fixedPointChanged s)).gv = s.gv := by
  unfold State.fixedPointChanged; simp

@[simp] theorem State.opportunisticRaise_gv (s : State) :
    ((State.opportunisticRaise s)).gv = s.gv := by
  unfold State.opportunisticRaise; (repeat' split) <;> simp

@[simp] theorem State.rootUpdate_gv (s : State) :
    ((State.rootUpdate s)).gv = s.gv := by
  unfold State.rootUpdate; simp

@[simp] theorem State.syncLost_gv (s : State) (cause : Nat) :
    ((State.syncLost s cause)).gv = s.gv := by
  unfold State.syncLost; (repeat' split) <;> simp

@[simp] theorem State.syncReturned_gv (s : State) :
    ((State.syncReturned s)).gv = s.gv := by
  unfold State.syncReturned; (repeat' split) <;> simp

@[simp] theorem State.rampHead_gv (s : State) :
    (State.rampHead s).gv = s.gv := by
  unfold State.rampHead; (repeat' split) <;> simp

@[simp] theorem State.rampNext_gv (s : State) :
    (State.rampNext s).gv = s.gv := by
  unfold State.rampNext; (repeat' split) <;> simp

@[simp] theorem State.raiseRails_gv (s : State) (groups : List (List Nat)) :
    (State.raiseRails s groups).gv = s.gv := by
  unfold State.raiseRails; simp

@[simp] theorem State.rampAll_gv (s : State) :
    (State.rampAll s).gv = s.gv := by
  unfold State.rampAll; simp

@[simp] theorem State.rampReach_gv (s : State) (j : Nat) :
    (State.rampReach s j).gv = s.gv := by
  unfold State.rampReach; simp

@[simp] theorem State.rampTick_gv (s : State) :
    (State.rampTick s).gv = s.gv := by
  unfold State.rampTick; (repeat' split) <;> simp

@[simp] theorem State.releaseLatches_gv (s : State) :
    ((State.releaseLatches s)).gv = s.gv := by
  unfold State.releaseLatches; simp

@[simp] theorem State.cdPllUnlock_gv (s : State) (hbm : Bool) :
    ((State.cdPllUnlock s hbm)).gv = s.gv := by
  unfold State.cdPllUnlock; (repeat' split) <;> simp

@[simp] theorem State.shedEvaluate_gv (s : State) :
    s.shedEvaluate.gv = s.gv := by
  unfold State.shedEvaluate; simp

@[simp] theorem State.rotate_gv (s : State) (j : Nat) :
    ((State.rotate s j)).gv = s.gv := by
  unfold State.rotate; simp

@[simp] theorem State.shedAbort_gv (s : State) :
    ((State.shedAbort s)).gv = s.gv := by
  unfold State.shedAbort; (repeat' split) <;> simp

@[simp] theorem State.holdoffEnd_gv (s : State) :
    ((State.holdoffEnd s)).gv = s.gv := by
  unfold State.holdoffEnd; simp

@[simp] theorem State.hintReceive_gv (s : State) (unit : Nat) :
    ((State.hintReceive s unit)).gv = s.gv := by
  unfold State.hintReceive; (repeat' split) <;> simp

@[simp] theorem State.windowStart_gv (s : State) :
    ((State.windowStart s)).gv = s.gv := by
  unfold State.windowStart; (repeat' split) <;> simp

@[simp] theorem State.slotBoundary_gv (s : State) (r : Sys2Proof.SlotReadings) :
    ((State.slotBoundary s r)).gv = s.gv := by
  unfold State.slotBoundary; simp

@[simp] theorem State.calibrate_gv (s : State) (measured : Nat) :
    ((State.calibrate s measured)).gv = s.gv := by
  unfold State.calibrate; (repeat' split) <;> simp

@[simp] theorem State.inputSample_gv (s : State) (mv : Nat) (ma : Nat) :
    ((State.inputSample s mv ma)).gv = s.gv := by
  unfold State.inputSample; dsimp only; (repeat' split) <;> simp

@[simp] theorem State.capUpdate_gv (s : State) :
    ((State.capUpdate s)).gv = s.gv := by
  unfold State.capUpdate; simp

@[simp] theorem State.dieReasons_gv (s : State) :
    ((State.dieReasons s)).gv = s.gv := by
  unfold State.dieReasons; simp

@[simp] theorem State.thermalUpdate_gv (s : State) :
    ((State.thermalUpdate s)).gv = s.gv := by
  unfold State.thermalUpdate; simp

@[simp] theorem State.cdTrip_gv (s : State) (cause : Nat) (sensor : Nat) :
    ((State.cdTrip s cause sensor)).gv = s.gv := by
  unfold State.cdTrip; simp


@[simp] theorem State.siodWarm_gv (s : State) :
    ((State.siodWarm s)).gv = s.gv := by
  unfold State.siodWarm; simp

@[simp] theorem State.flowLoss_gv (s : State) :
    ((State.flowLoss s)).gv = s.gv := by
  unfold State.flowLoss; (repeat' split) <;> simp

@[simp] theorem State.flowReturn_gv (s : State) :
    ((State.flowReturn s)).gv = s.gv := by
  unfold State.flowReturn; (repeat' split) <;> simp

@[simp] theorem State.setBerth_gv (s : State) (l : Nat) (b : Nat) (f : Berth → Berth) :
    ((State.setBerth s l b f)).gv = s.gv := by
  unfold State.setBerth; simp

@[simp] theorem State.frameDrop_gv (s : State) (l : Nat) (sub : Nat) :
    ((State.frameDrop s l sub)).gv = s.gv := by
  unfold State.frameDrop; simp

@[simp] theorem State.startLinks_gv (s : State) :
    ((State.startLinks s)).gv = s.gv := by
  unfold State.startLinks; simp

@[simp] theorem State.clearBerths_gv (s : State) (l : Nat) :
    ((State.clearBerths s l)).gv = s.gv := by
  unfold State.clearBerths; simp

@[simp] theorem State.dropLink_gv (s : State) (l : Nat) (cause : Nat) :
    ((State.dropLink s l cause)).gv = s.gv := by
  unfold State.dropLink; simp

@[simp] theorem State.modeChanged_gv (s : State) (l : Nat) :
    ((State.modeChanged s l)).gv = s.gv := by
  unfold State.modeChanged; (repeat' split) <;> simp

@[simp] theorem State.serdesLost_gv (s : State) :
    ((State.serdesLost s)).gv = s.gv := by
  unfold State.serdesLost; simp

@[simp] theorem State.linkSignal_gv (s : State) (l : Nat) :
    ((State.linkSignal s l)).gv = s.gv := by
  unfold State.linkSignal; (repeat' split) <;> simp

@[simp] theorem State.linkCode_gv (s : State) (l : Nat) :
    ((State.linkCode s l)).gv = s.gv := by
  unfold State.linkCode; (repeat' split) <;> simp

@[simp] theorem State.linkCrossing_gv (s : State) (l : Nat) :
    ((State.linkCrossing s l)).gv = s.gv := by
  unfold State.linkCrossing; (repeat' split) <;> simp

@[simp] theorem State.linkUp_gv (s : State) (l : Nat) (roundTrip : Nat) :
    ((State.linkUp s l roundTrip)).gv = s.gv := by
  unfold State.linkUp; (repeat' split) <;> simp

@[simp] theorem State.linkTimeout_gv (s : State) (l : Nat) :
    ((State.linkTimeout s l)).gv = s.gv := by
  unfold State.linkTimeout; simp

@[simp] theorem State.fragment_gv (s : State) (l : Nat) (b : Nat) (msg : Sys2Proof.Blob) (lost : Bool) :
    ((State.fragment s l b msg lost)).gv = s.gv := by
  unfold State.fragment; dsimp only; (repeat' split) <;> simp

@[simp] theorem State.complyCheck_gv (s : State) (l : Nat) (link : Nat) (t : Nat) :
    ((State.complyCheck s l link t)).gv = s.gv := by
  unfold State.complyCheck; simp

@[simp] theorem State.routeRecord_gv (s : State) (l : Nat) (r : Sys2Proof.Blob) :
    ((State.routeRecord s l r)).gv = s.gv := by
  unfold State.routeRecord; dsimp only; (repeat' split) <;> simp

@[simp] theorem State.hintRecord_gv (s : State) (link : Nat) (b : Nat) (r : Sys2Proof.Blob) :
    ((State.hintRecord s link b r)).gv = s.gv := by
  unfold State.hintRecord; simp

@[simp] theorem State.recordSlot_gv (s : State) (l : Nat) (b : Nat) (slot : Sys2Proof.Blob) (lost : Bool) :
    ((State.recordSlot s l b slot lost)).gv = s.gv := by
  unfold State.recordSlot; (repeat' split) <;> simp

@[simp] theorem State.crossingRelease_gv1 (s : State) (l : Nat) (corrected : Nat) (bad : Nat) (ws : List Sys2Proof.Window) :
    ((State.crossingRelease s l corrected bad ws)).gv.1 = s.gv.1 := by
  unfold State.crossingRelease; (repeat' (first | rfl | (refine (foldl_gv1 _ _ _ (fun s x => ?_)).trans ?_) | split | simp))

@[simp] theorem State.attachReq_gv (s : State) (link : Nat) (b : Nat) (p : Sys2Proof.Blob) :
    ((State.attachReq s link b p)).gv = s.gv := by
  unfold State.attachReq; (repeat' split) <;> simp

@[simp] theorem State.detachReq_gv (s : State) (link : Nat) (b : Nat) (p : Sys2Proof.Blob) :
    ((State.detachReq s link b p)).gv = s.gv := by
  unfold State.detachReq; (repeat' split) <;> simp

@[simp] theorem State.commitLanding_gv (s : State) (now : Nat) (l : Nat) :
    ((State.commitLanding s now l)).gv = s.gv := by
  unfold State.commitLanding; simp

@[simp] theorem State.commitGrants_gv (s : State) :
    ((State.commitGrants s)).gv = s.gv := by
  unfold State.commitGrants; (repeat' split) <;> simp

@[simp] theorem State.freeBerth_gv (s : State) (l : Nat) :
    ((State.freeBerth s l)).gv = s.gv := by
  unfold State.freeBerth; simp

@[simp] theorem State.attachEffect_gv (s : State) :
    ((State.attachEffect s)).gv = s.gv := by
  unfold State.attachEffect; simp

@[simp] theorem State.peerSend_gv (s : State) (l : Nat) (typ : Nat) (payload : Sys2Proof.Blob) :
    ((State.peerSend s l typ payload)).gv = s.gv := by
  unfold State.peerSend; (repeat' split) <;> simp

@[simp] theorem State.sendAggregates_gv (s : State) :
    ((State.sendAggregates s)).gv = s.gv := by
  unfold State.sendAggregates; (repeat' split) <;> simp

@[simp] theorem State.sendDap_gv (s : State) (port dest h len data) : (s.sendDap port dest h len data).gv = s.gv := by
  unfold State.sendDap; simp

@[simp] theorem State.publishAll_gv (s : State) : s.publishAll.gv = s.gv := by
  unfold State.publishAll
  extract_lets p head group s1 s2
  refine (foldl_gv _ _ _ (fun s x => ?_)).trans ?_
  · simp only [State.peerSend_gv]
  · refine (foldl_gv _ _ _ (fun s x => ?_)).trans ?_
    · (repeat' split) <;> simp only [State.setBerth_gv]
    · unfold s1; simp only [State.count_gv, State.sendDap_gv]

@[simp] theorem State.startMessage_gv (s : State) (l : Nat) (b : Nat) (start : Nat) (attached : Bool) :
    ((State.startMessage s l b start attached)).gv = s.gv := by
  unfold State.startMessage; dsimp only; (repeat' split) <;> simp

@[simp] theorem State.startPeer_gv (s : State) (l : Nat) :
    ((State.startPeer s l)).gv = s.gv := by
  unfold State.startPeer; (repeat' split) <;> simp

@[simp] theorem State.sendFragment_gv (s : State) (l : Nat) (b : Nat) :
    ((State.sendFragment s l b).2).gv = s.gv := by
  unfold State.sendFragment; (repeat' split) <;> simp

@[simp] theorem State.sendGrant_gv (s : State) (n : Nat) (start : Nat) (b : Nat) :
    ((State.sendGrant s n start b).2).gv = s.gv := by
  unfold State.sendGrant; (repeat' split) <;> simp

@[simp] theorem State.sendWindow_gv (s : State) (l : Nat) (start : Nat) (b : Nat) :
    ((State.sendWindow s l start b)).gv = s.gv := by
  unfold State.sendWindow; dsimp only; (repeat' split) <;> simp

@[simp] theorem State.downCrossing_gv (s : State) (l : Nat) :
    ((State.downCrossing s l)).gv = s.gv := by
  unfold State.downCrossing; (repeat' split) <;> simp

@[simp] theorem State.aggregateReceive_gv (s : State) (l : Nat) (p : Sys2Proof.Blob) :
    ((State.aggregateReceive s l p)).gv = s.gv := by
  unfold State.aggregateReceive; (repeat' split) <;> simp

@[simp] theorem State.configReceive_gv (s : State) (l : Nat) (p : Sys2Proof.Blob) :
    ((State.configReceive s l p)).gv = s.gv := by
  unfold State.configReceive; (repeat' split) <;> simp

@[simp] theorem State.ceAll_gv (s : State) (f : CeDyn → CeDyn) :
    ((State.ceAll s f)).gv = s.gv := by
  unfold State.ceAll; simp

@[simp] theorem State.stepWatch_gv (s : State) (k : Nat) (l : Int) :
    ((State.stepWatch s k l)).gv = s.gv := by
  unfold State.stepWatch; simp

@[simp] theorem State.siodWords_gv (s : State) (p : Nat → Bool) :
    (State.siodWords s p).gv = s.gv := by
  unfold State.siodWords; simp

@[simp] theorem State.siodRead_gv (s : State) (lo hi : Nat) :
    (State.siodRead s lo hi).gv = s.gv := by
  unfold State.siodRead; simp

@[simp] theorem State.ceSnapshot_gv (s : State) :
    ((State.ceSnapshot s)).gv = s.gv := by
  unfold State.ceSnapshot; dsimp only; (repeat' split) <;> simp

@[simp] theorem State.stepEnters_gv (s : State) (e : Option Event) : (s.stepEnters e).gv = s.gv := by
  unfold State.stepEnters; (repeat' split) <;> simp

@[simp] theorem State.takeRecords_gv (s : State) :
    ((State.takeRecords s).1).gv = s.gv := by
  unfold State.takeRecords; refine (foldl_gv _ _ _ (fun s x => ?_)).trans ?_ <;> (simp)

@[simp] theorem State.keep_gv (s : State) (d : CeDyn) (b : Bool) : (s.keep d b).gv = s.gv := by
  unfold State.keep
  extract_lets s1 s2 loops c s3 s4
  have h1 : s1.gv = s.gv := by unfold s1; simp
  have h2 : s2.gv = s.gv := by
    unfold s2; refine (foldl_gv _ _ _ (fun s p => ?_)).trans h1; split <;> simp
  have h4 : s4.gv = s.gv := by
    unfold s4; refine (foldl_gv _ _ _ (fun s e => ?_)).trans ?_
    · simp
    · exact h2
  split <;> simp [h4]

@[simp] theorem State.selectBranch_gv (s : State) :
    ((State.selectBranch s)).gv = s.gv := by
  unfold State.selectBranch; (repeat' split) <;> simp

@[simp] theorem State.dropBranches_gv (s : State) :
    ((State.dropBranches s)).gv = s.gv := by
  unfold State.dropBranches; simp

@[simp] theorem State.limitForecastLoops_gv (s : State) :
    ((State.limitForecastLoops s)).gv = s.gv := by
  unfold State.limitForecastLoops; simp

@[simp] theorem State.commitStep_gv (s : State) (m : Merged) :
    ((State.commitStep s m)).gv = s.gv := by
  unfold State.commitStep; dsimp only; split <;> (split <;> simp)

@[simp] theorem State.commitRecord_gv (s : State) (taken : Option Merged) :
    ((State.commitRecord s taken)).gv = s.gv := by
  unfold State.commitRecord; dsimp only; (repeat' split) <;> simp

@[simp] theorem State.loopCommand_gv (s : State) (n : Nat) (mode : Nat) :
    ((State.loopCommand s n mode)).gv = s.gv := by
  unfold State.loopCommand; simp

@[simp] theorem State.followTimeout_gv (s : State) (n : Nat) :
    ((State.followTimeout s n)).gv = s.gv := by
  unfold State.followTimeout; simp

@[simp] theorem State.clearTable_gv (s : State) (r : Nat) :
    ((State.clearTable s r)).gv = s.gv := by
  unfold State.clearTable; simp

@[simp] theorem State.redLog_gv (s : State) (event : Nat) (params : Sys2Proof.Blob) :
    ((State.redLog s event params)).gv = s.gv := by
  unfold State.redLog; simp

@[simp] theorem State.setRed_gv (s : State) (f : Red → Red) :
    ((State.setRed s f)).gv = s.gv := by
  unfold State.setRed; simp

@[simp] theorem State.abandonImage_gv (s : State) :
    ((State.abandonImage s)).gv = s.gv := by
  unfold State.abandonImage; simp

@[simp] theorem State.moveTo_gv1 (s : State) (new : Mode) (causes : Nat) (trigger : Nat) :
    ((State.moveTo s new causes trigger)).gv.1 = s.gv.1 := by
  unfold State.moveTo; (repeat' split) <;> simp

@[simp] theorem State.move_gv1 (s : State) (new : Mode) (causes : Nat) (trigger : Nat) :
    ((State.move s new causes trigger)).gv.1 = s.gv.1 := by
  unfold State.move; split
  · rfl
  · exact State.moveTo_gv1 ..

@[simp] theorem State.pathFlag_gv (s : State) (lane : Bool) (on : Bool) :
    ((State.pathFlag s lane on)).gv = s.gv := by
  unfold State.pathFlag; (repeat' split) <;> simp

@[simp] theorem State.pathsGood_gv (s : State) :
    ((State.pathsGood s)).gv = s.gv := by
  unfold State.pathsGood; (repeat' split) <;> simp

@[simp] theorem State.renew_gv (s : State) :
    ((State.renew s)).gv = s.gv := by
  unfold State.renew; simp

@[simp] theorem State.samplePeer_gv (s : State) :
    (State.samplePeer s).gv = s.gv := by
  unfold State.samplePeer; simp

@[simp] theorem State.renewSend_gv (s : State) :
    ((State.renewSend s)).gv = s.gv := by
  unfold State.renewSend; (repeat' split) <;> simp

@[simp] theorem State.fileLate_gv (s : State) :
    ((State.fileLate s)).gv = s.gv := by
  unfold State.fileLate; (repeat' split) <;> simp

@[simp] theorem State.renewalIn_gv (s : State) :
    ((State.renewalIn s)).gv = s.gv := by
  unfold State.renewalIn; simp

@[simp] theorem State.conflict_gv1 (s : State) (path : Nat) :
    ((State.conflict s path)).gv.1 = s.gv.1 := by
  unfold State.conflict; dsimp only; (repeat' split) <;> simp

@[simp] theorem State.pulseIn_gv1 (s : State) (us : Nat) :
    ((State.pulseIn s us)).gv.1 = s.gv.1 := by
  unfold State.pulseIn; dsimp only; (repeat' split) <;> simp

@[simp] theorem State.renewIn_gv1 (s : State) (number : Nat) :
    ((State.renewIn s number)).gv.1 = s.gv.1 := by
  unfold State.renewIn; (repeat' split) <;> simp

@[simp] theorem State.superviseWaiting_gv (s : State) (line : Bool) (lane : Bool) :
    ((State.superviseWaiting s line lane)).gv = s.gv := by
  unfold State.superviseWaiting; (repeat' split) <;> simp

@[simp] theorem State.ackSend_gv (s : State) :
    ((State.ackSend s)).gv = s.gv := by
  unfold State.ackSend; (repeat' split) <;> simp

@[simp] theorem State.ackIn_gv (s : State) (number : Nat) (paths : Nat) :
    ((State.ackIn s number paths)).gv = s.gv := by
  unfold State.ackIn; (repeat' split) <;> simp

@[simp] theorem State.claim_gv1 (s : State) :
    ((State.claim s)).gv.1 = s.gv.1 := by
  unfold State.claim; (repeat' split) <;> simp

@[simp] theorem State.leaseLost_gv1 (s : State) (cause : Nat) :
    ((State.leaseLost s cause)).gv.1 = s.gv.1 := by
  unfold State.leaseLost; dsimp only; simp

@[simp] theorem State.holdLimit_gv1 (s : State) :
    ((State.holdLimit s)).gv.1 = s.gv.1 := by
  unfold State.holdLimit; (repeat' split) <;> simp

@[simp] theorem State.handoverIn_gv (s : State) (number : Nat) :
    ((State.handoverIn s number)).gv = s.gv := by
  unfold State.handoverIn; (repeat' split) <;> simp

@[simp] theorem State.peerStateSend_gv (s : State) :
    ((State.peerStateSend s)).gv = s.gv := by
  unfold State.peerStateSend; (repeat' split) <;> simp

@[simp] theorem State.peerStateIn_gv (s : State) (state : Nat) (flags : Nat) :
    ((State.peerStateIn s state flags)).gv = s.gv := by
  unfold State.peerStateIn; dsimp only; rfl

@[simp] theorem State.startCheckpoint_gv (s : State) (handover : Bool) :
    ((State.startCheckpoint s handover)).gv = s.gv := by
  unfold State.startCheckpoint; (repeat' split) <;> simp

@[simp] theorem State.checkpointTake_gv (s : State) :
    ((State.checkpointTake s)).gv = s.gv := by
  unfold State.checkpointTake; (repeat' split) <;> simp

@[simp] theorem State.checkpointVerified_gv (s : State) :
    ((State.checkpointVerified s)).gv = s.gv := by
  unfold State.checkpointVerified; (repeat' split) <;> simp

@[simp] theorem State.checkpointTimeout_gv (s : State) : s.checkpointTimeout.gv = s.gv := by
  unfold State.checkpointTimeout
  split
  · rfl
  · extract_lets s1 s2 st s3
    have h1 : s1.gv = s.gv := by unfold s1; split <;> simp only [State.ceAll_gv]
    have h3 : s3.gv = s.gv := by unfold s3 s2; simp only [State.setRed_gv, State.count_gv, h1]
    rw [gv_ite, State.redLog_gv, ite_self, h3]

@[simp] theorem State.switchFrame_gv1 (s : State) :
    ((State.switchFrame s)).gv.1 = s.gv.1 := by
  unfold State.switchFrame; (repeat' split) <;> simp

@[simp] theorem State.ceRestore_gv (s : State) (d : CeDyn) :
    ((State.ceRestore s d)).gv = s.gv := by
  unfold State.ceRestore; dsimp only; rfl

@[simp] theorem State.seAdopt_gv (s : State) (b : Sys2Proof.Blob) :
    ((State.seAdopt s b)).gv = s.gv := by
  unfold State.seAdopt; dsimp only; (repeat' split) <;> simp

@[simp] theorem State.bridgeDone_gv (s : State) :
    ((State.bridgeDone s)).gv = s.gv := by
  unfold State.bridgeDone; simp

@[simp] theorem State.grantsFresh_gv (s : State) :
    (State.grantsFresh s).gv = s.gv := by
  unfold State.grantsFresh; simp

@[simp] theorem State.grantsFrom_gv (s : State) (b : Sys2Proof.Blob) :
    ((State.grantsFrom s b)).gv = s.gv := by
  unfold State.grantsFrom; simp

@[simp] theorem State.energyFrom_gv (s : State) (b : Sys2Proof.Blob) :
    ((State.energyFrom s b)).gv = s.gv := by
  unfold State.energyFrom; simp

@[simp] theorem State.takeoverRestored_gv (s : State) (case_ : Nat) :
    ((State.takeoverRestored s case_)).gv = s.gv := by
  unfold State.takeoverRestored; simp

@[simp] theorem State.takeoverCold_gv (s : State) :
    ((State.takeoverCold s)).gv = s.gv := by
  unfold State.takeoverCold; simp

@[simp] theorem State.takeoverFrom_gv (s : State) (slot : Nat) (b : Sys2Proof.Blob) :
    ((State.takeoverFrom s slot b)).gv = s.gv := by
  unfold State.takeoverFrom; simp

@[simp] theorem State.rereadDone_gv (s : State) (seq : Nat) (slot : Nat) :
    ((State.rereadDone s seq slot)).gv = s.gv := by
  unfold State.rereadDone; dsimp only; (repeat' split) <;> simp

@[simp] theorem State.checkpointRead_gv (s : State) (a : Option Sys2Proof.Blob) (b : Option Sys2Proof.Blob) :
    ((State.checkpointRead s a b)).gv = s.gv := by
  unfold State.checkpointRead; (repeat' split) <;> simp

@[simp] theorem State.storeTimeout_gv (s : State) :
    ((State.storeTimeout s)).gv = s.gv := by
  unfold State.storeTimeout; (repeat' split) <;> simp

@[simp] theorem State.tableRestore_gv (s : State) (r : Nat) (b : Sys2Proof.Blob) :
    ((State.tableRestore s r b)).gv = s.gv := by
  unfold State.tableRestore; (repeat' split) <;> simp

@[simp] theorem State.ceRestart_gv (s : State) : s.ceRestart.gv = s.gv := by
  unfold State.ceRestart
  extract_lets s1
  have h1 : s1.gv = s.gv := by
    unfold s1; split <;> simp only [State.setRed_gv, State.ceRestore_gv]
  rw [← h1]; clear_value s1; simp

@[simp] theorem State.ceEnter_gv1 (s : State) :
    (State.ceEnter s).gv.1 = s.gv.1 := by
  unfold State.ceEnter; dsimp only; (repeat' split) <;> simp

@[simp] theorem State.imageOpen_gv (s : State) (h : Sys2Proof.Blob) :
    ((State.imageOpen s h)).gv = s.gv := by
  unfold State.imageOpen; simp

@[simp] theorem State.imageSegment_gv (s : State) (v : Sys2Proof.Blob) :
    ((State.imageSegment s v)).gv = s.gv := by
  unfold State.imageSegment; simp

@[simp] theorem State.imageMark_gv (s : State) :
    ((State.imageMark s)).gv = s.gv := by
  unfold State.imageMark; simp

@[simp] theorem State.keyWrite_gv (s : State) (v : Sys2Proof.Blob) :
    ((State.keyWrite s v)).gv = s.gv := by
  unfold State.keyWrite; (repeat' split) <;> simp

@[simp] theorem State.floorWrite_gv (s : State) (v : Sys2Proof.Blob) :
    ((State.floorWrite s v)).gv = s.gv := by
  unfold State.floorWrite; simp

@[simp] theorem State.ripeningChanged_gv (s : State) :
    ((State.ripeningChanged s)).gv = s.gv := by
  unfold State.ripeningChanged; (repeat' split) <;> simp

@[simp] theorem State.linksChanged_gv (s : State) (old : Sys2Proof.Blob) :
    ((State.linksChanged s old)).gv = s.gv := by
  unfold State.linksChanged; simp

@[simp] theorem State.afterWrite_gv (s : State) (i sub old : Nat) :
    (State.afterWrite s i sub old).gv = s.gv := by
  unfold State.afterWrite; simp

@[simp] theorem State.setValue_gv (s : State) (i : Nat) (sub : Nat) (v : Nat) (config : Bool) :
    ((State.setValue s i sub v config)).gv = s.gv := by
  unfold State.setValue; (repeat' split) <;> simp

@[simp] theorem State.setLast_gv (s : State) (i : Nat) (sub : Nat) (status : Nat) :
    ((State.setLast s i sub status)).gv = s.gv := by
  unfold State.setLast; simp

@[simp] theorem State.nodeCommand_gv (s : State) (v : Nat) :
    ((State.nodeCommand s v)).gv = s.gv := by
  unfold State.nodeCommand; (repeat' split) <;> simp

@[simp] theorem State.cdCommand_gv (s : State) (v : Nat) :
    ((State.cdCommand s v)).gv = s.gv := by
  unfold State.cdCommand; (repeat' split) <;> simp

@[simp] theorem State.bundleAccept_gv (s : State) (b : Sys2Proof.Blob) :
    ((State.bundleAccept s b)).gv = s.gv := by
  unfold State.bundleAccept; simp

@[simp] theorem State.imageActivate_gv (s : State) (source : Nat) :
    ((State.imageActivate s source)).gv = s.gv := by
  unfold State.imageActivate; (repeat' split) <;> simp

set_option maxHeartbeats 400000 in
@[simp] theorem State.execute_gv (s : State) (a : Ask) : (s.execute a).gv = s.gv := by
  unfold State.execute
  extract_lets v ok
  have hok : ∀ s, (ok s).gv = s.gv := fun s => by simp [ok]
  clear_value ok
  split <;> simp [hok]

@[simp] theorem State.commit_gv (s : State) (a : Ask) : (s.commit a).gv = s.gv := by
  unfold State.commit; (repeat' split) <;> simp only [State.execute_gv, State.setValue_gv]

@[simp] theorem State.newChallenge_gv (s : State) :
    ((State.newChallenge s)).gv = s.gv := by
  unfold State.newChallenge; simp

@[simp] theorem State.applyEntry_gv (s : State) (l : List BEntry) (k : Nat) :
    ((State.applyEntry s l k)).gv = s.gv := by
  unfold State.applyEntry; simp

@[simp] theorem State.applyEntries_gv (s : State) (l : List BEntry) :
    ((State.applyEntries s l)).gv = s.gv := by
  unfold State.applyEntries; simp

@[simp] theorem State.compareDigest_gv (s : State) :
    ((State.compareDigest s)).gv = s.gv := by
  unfold State.compareDigest; simp

@[simp] theorem State.noteChange_gv (s : State) :
    (State.noteChange s).gv = s.gv := by
  unfold State.noteChange; simp

@[simp] theorem State.digestFrame_gv (s : State) : s.digestFrame.gv = s.gv := by
  unfold State.digestFrame
  extract_lets t
  rw [State.compareDigest_gv, State.noteChange_gv]
  show (if _ then _ else _ : State).gv = _
  rw [gv_ite, State.digest_gv, ite_self]

@[simp] theorem State.frameEffects_gv (s : State) :
    ((State.frameEffects s)).gv = s.gv := by
  unfold State.frameEffects; simp

@[simp] theorem State.bundleApply_gv (s : State) :
    (State.bundleApply s).gv = s.gv := by
  unfold State.bundleApply; (repeat' split) <;> simp

@[simp] theorem State.clearHbm_gv (s : State) (rs : List Nat) :
    (State.clearHbm s rs).gv = s.gv := by
  unfold State.clearHbm; simp

@[simp] theorem State.clearTe_gv (s : State) (rs : List Nat) :
    (State.clearTe s rs).gv = s.gv := by
  unfold State.clearTe; simp

@[simp] theorem State.clearCe_gv (s : State) (rs : List Nat) :
    (State.clearCe s rs).gv = s.gv := by
  unfold State.clearCe; simp

@[simp] theorem State.worldChange_gv (s : State) :
    ((State.worldChange s)).gv = s.gv := by
  unfold State.worldChange; simp

@[simp] theorem State.bootNote_gv (s : State) (result : Nat) :
    ((State.bootNote s result)).gv = s.gv := by
  unfold State.bootNote; (repeat' split) <;> simp

@[simp] theorem State.bootStop_gv1 (s : State) (result : Nat) (stage : Bool) :
    ((State.bootStop s result stage)).gv.1 = s.gv.1 := by
  unfold State.bootStop; (repeat' split) <;> simp

@[simp] theorem State.runStage_gv (s : State) (stage : Nat) :
    ((State.runStage s stage).2).gv = s.gv := by
  unfold State.runStage; dsimp only; (repeat' split) <;> simp

@[simp] theorem State.keyChain_gv (s : State) :
    ((State.keyChain s)).gv = s.gv := by
  unfold State.keyChain; simp

@[simp] theorem State.bootConfigure_gv (s : State) :
    ((State.bootConfigure s)).gv = s.gv := by
  unfold State.bootConfigure; dsimp only; (repeat' split) <;> simp

@[simp] theorem State.hostLinkUp_gv (s : State) :
    ((State.hostLinkUp s)).gv = s.gv := by
  unfold State.hostLinkUp; simp

@[simp] theorem State.bringUp_gv (s : State) :
    ((State.bringUp s)).gv = s.gv := by
  unfold State.bringUp; simp

@[simp] theorem State.servicesReset_gv1 (s : State) :
    ((State.servicesReset s)).gv.1 = s.gv.1 := by
  unfold State.servicesReset; simp

@[simp] theorem State.cdPower_gv (s : State) :
    (State.cdPower s).gv = s.gv := by
  unfold State.cdPower; simp

@[simp] theorem State.cdRun_gv (s : State) (untrained : List Nat) (failed : List Nat) :
    ((State.cdRun s untrained failed)).gv = s.gv := by
  unfold State.cdRun; simp

@[simp] theorem State.accepted_gv (s : State) (a : Ask) :
    ((State.accepted s a)).gv = s.gv := by
  unfold State.accepted; (repeat' split) <;> simp

@[simp] theorem State.doRead_gv (s : State) (a : Ask) :
    ((State.doRead s a).state).gv = s.gv := by
  unfold State.doRead; dsimp only; (repeat' split) <;> simp

@[simp] theorem State.conclude_gv (s : State) (a : Ask) (st : Nat) :
    ((State.conclude s a st).state).gv = s.gv := by
  unfold State.conclude; (repeat' split) <;> simp

@[simp] theorem State.doWrite_gv (s : State) (a : Ask) :
    ((State.doWrite s a).state).gv = s.gv := by
  unfold State.doWrite; simp

@[simp] theorem State.keepAnswer_gv (s : State) (k : Kept) :
    ((State.keepAnswer s k)).gv = s.gv := by
  unfold State.keepAnswer; simp

@[simp] theorem State.sendAnswer_gv (s : State) (k : Kept) :
    (State.sendAnswer s k).gv = s.gv := by
  unfold State.sendAnswer; simp

@[simp] theorem State.closeTransfer_gv (s : State) (t : Transfer) :
    ((State.closeTransfer s t)).gv = s.gv := by
  unfold State.closeTransfer; simp

@[simp] theorem State.sendAck_gv (s : State) (t : Transfer) :
    (State.sendAck s t).gv = s.gv := by
  unfold State.sendAck; simp

@[simp] theorem State.dapDrop_gv (s : State) :
    ((State.dapDrop s)).gv = s.gv := by
  unfold State.dapDrop; simp

@[simp] theorem State.holdCauses_gv (s : State) :
    ((State.holdCauses s)).gv = s.gv := by
  unfold State.holdCauses; simp

@[simp] theorem State.enterHold_gv1 (s : State) :
    ((State.enterHold s)).gv.1 = s.gv.1 := by
  unfold State.enterHold; (repeat' split) <;> simp

@[simp] theorem State.clearHold_gv (s : State) :
    ((State.clearHold s)).gv = s.gv := by
  unfold State.clearHold; simp

@[simp] theorem State.causesFrame_gv1 (s : State) :
    ((State.causesFrame s)).gv.1 = s.gv.1 := by
  unfold State.causesFrame; dsimp only; (repeat' split) <;> simp

@[simp] theorem State.profileFrame_gv (s : State) :
    ((State.profileFrame s)).gv = s.gv := by
  unfold State.profileFrame; simp

@[simp] theorem State.ceFrame_gv (s : State) (taken : Option Merged) :
    ((State.ceFrame s taken)).gv = s.gv := by
  unfold State.ceFrame; simp

@[simp] theorem State.tableRead_gv (s : State) (o w : Nat) : (s.tableRead o w).2.gv = s.gv := by
  unfold State.tableRead
  extract_lets x r off t a
  split
  · simp
  · exact State.siodWords_gv ..

@[simp] theorem State.mirrorRead_gv (s : State) (o : Nat) (w : Nat) :
    ((State.mirrorRead s o w).2).gv = s.gv := by
  unfold State.mirrorRead; simp

@[simp] theorem State.readHi_gv (s : State) (o : Nat) :
    ((State.readHi s o).2).gv = s.gv := by
  unfold State.readHi; (repeat' split) <;> simp

@[simp] theorem State.readLo_gv (s : State) (a : Sys2Proof.LoReg) :
    ((State.readLo s a).2).gv = s.gv := by
  unfold State.readLo; (repeat' split) <;> simp

@[simp] theorem State.bar0Read_gv (s : State) (o : Nat) (w : Nat) :
    ((State.bar0Read s o w).2).gv = s.gv := by
  unfold State.bar0Read; (repeat' split) <;> simp

@[simp] theorem State.hostRead_gv (s : State) (o : Nat) (w : Nat) :
    ((State.hostRead s o w)).gv = s.gv := by
  unfold State.hostRead; (repeat' split) <;> simp

@[simp] theorem State.clearCauses_gv (s : State) (mask : Nat) :
    ((State.clearCauses s mask)).gv = s.gv := by
  unfold State.clearCauses; simp

@[simp] theorem State.writeEnables_gv (s : State) (v : Nat) :
    ((State.writeEnables s v)).gv = s.gv := by
  unfold State.writeEnables; simp

@[simp] theorem State.msixWrite_gv (s : State) (a : Nat) (v : Nat) :
    ((State.msixWrite s a v)).gv = s.gv := by
  unfold State.msixWrite; (repeat' split) <;> simp

@[simp] theorem State.ctlReset_gv (s : State) (kind : Sys2Proof.CtlReset) :
    ((State.ctlReset s kind)).gv = s.gv := by
  unfold State.ctlReset; (repeat' split) <;> simp

@[simp] theorem State.fnLink_gv (s : State) (port : Nat) (up : Bool) :
    ((State.fnLink s port up)).gv = s.gv := by
  unfold State.fnLink; (repeat' split) <;> simp

@[simp] theorem State.watchEnd_gv (s : State) (driver : Bool) :
    ((State.watchEnd s driver)).gv = s.gv := by
  unfold State.watchEnd; (repeat' (first | rfl | (refine (foldl_gv _ _ _ (fun s x => ?_)).trans ?_) | split))

@[simp] theorem State.bootDone_gv1 (s : State) :
    ((State.bootDone s)).gv.1 = s.gv.1 := by
  unfold State.bootDone; dsimp only; (repeat' split) <;> simp

@[simp] theorem State.strapMove_gv (s : State) (v : Nat) :
    ((State.strapMove s v)).gv = s.gv := by
  unfold State.strapMove; simp

@[simp] theorem State.keysTaken_gv (s : State) (old : Nat → Sys2Proof.Blob) :
    ((State.keysTaken s old)).gv = s.gv := by
  unfold State.keysTaken; simp

@[simp] theorem State.recordTaken_gv (s : State) (w : NvrWrite) :
    ((State.recordTaken s w)).gv = s.gv := by
  unfold State.recordTaken; (repeat' split) <;> simp

@[simp] theorem State.serdesBack_gv (s : State) :
    ((State.serdesBack s)).gv = s.gv := by
  unfold State.serdesBack; simp

@[simp] theorem State.imageTimeout_gv (s : State) :
    ((State.imageTimeout s)).gv = s.gv := by
  unfold State.imageTimeout; (repeat' split) <;> simp

@[simp] theorem State.replySlot_gv (s : State) (a : Nat) (bits : Option Nat) :
    ((State.replySlot s a bits)).gv = s.gv := by
  unfold State.replySlot; (repeat' split) <;> simp

@[simp] theorem State.mgmtReply_gv (s : State) (a : Nat) (bits : Option Nat) :
    ((State.mgmtReply s a bits)).gv = s.gv := by
  unfold State.mgmtReply; (repeat' split) <;> simp

@[simp] theorem State.intakeBoundary_gv (s : State) :
    ((State.intakeBoundary s)).gv = s.gv := by
  unfold State.intakeBoundary; simp

@[simp] theorem State.sealLast_gv (s : State) :
    ((State.sealLast s)).gv = s.gv := by
  unfold State.sealLast; (repeat' split) <;> simp

@[simp] theorem State.periodBoundary_gv (s : State) : s.periodBoundary.gv = s.gv := by
  unfold State.periodBoundary; simp

@[simp] theorem State.refreshMissed_gv (s : State) :
    ((State.refreshMissed s)).gv = s.gv := by
  unfold State.refreshMissed; (repeat' split) <;> simp

@[simp] theorem State.releaseGroup_gv (s : State) (g : Nat) :
    ((State.releaseGroup s g)).gv = s.gv := by
  unfold State.releaseGroup; (repeat' split) <;> simp

@[simp] theorem State.tick600_gv (s : State) :
    ((State.tick600 s)).gv = s.gv := by
  unfold State.tick600; simp

@[simp] theorem State.linkFails_gv (s : State) (l : Nat) (cause : Nat) :
    ((State.linkFails s l cause)).gv = s.gv := by
  unfold State.linkFails; (repeat' split) <;> simp

@[simp] theorem State.loRead_gv (s : State) (r : Sys2Proof.LoReg) :
    ((State.loRead s r)).gv = s.gv := by
  unfold State.loRead; simp

@[simp] theorem State.irregularAccess_gv (s : State) (o : Nat) (w : Nat) (write : Bool) :
    ((State.irregularAccess s o w write)).gv = s.gv := by
  unfold State.irregularAccess; (repeat' split) <;> simp

@[simp] theorem State.publishSecond_gv (s : State) :
    ((State.publishSecond s)).gv = s.gv := by
  unfold State.publishSecond; (repeat' split) <;> simp

@[simp] theorem State.publishChange_gv (s : State) :
    ((State.publishChange s)).gv = s.gv := by
  unfold State.publishChange; simp

@[simp] theorem State.setD3hot_gv (s : State) (b : Bool) :
    ((State.setD3hot s b)).gv = s.gv := by
  unfold State.setD3hot; simp

@[simp] theorem State.sweepEnd_gv (s : State) :
    ((State.sweepEnd s)).gv = s.gv := by
  unfold State.sweepEnd; (repeat' split) <;> simp

end Sys2Proof.Machine
end

