-- ==== Sys2Proof/Laws/Gate.lean ====
section
/-! SUPPORT. The operations that change the operating state, the gate or the driver, each with one lemma: what becomes of
the view, or that the state after it `Follows` the state before it. -/

namespace Sys2Proof.Machine

open Sys2Proof

theorem State.gv_ext {s t : State} (h1 : t.pending = s.pending) (h2 : t.frame = s.frame) (h3 : t.mode = s.mode)
    (h4 : t.power.gate = s.power.gate) (h5 : t.gw.driving = s.gw.driving) : t.gv = s.gv := by simp only [State.gv_def, h1, h2, h3, h4, h5]

@[simp] theorem State.transition_gvx (s : State) (m : Mode) (c t : Nat) : (s.transition m c t).gv = (s.gv.1, (m, s.gv.2.2)) := by
  unfold State.transition; simp only [State.raise_gv, State.logState_gv, State.gv_mk]; rfl

@[simp] theorem State.closeGate_gvx (s : State) : s.closeGate.gv = (s.gv.1, (s.gv.2.1, false, false)) := rfl

/-- The part of a transition that every state shares keeps the view but for the state itself. -/
theorem State.moveTo_standby_gv (s : State) (c t : Nat) :
    (s.moveTo .standbyCold c t).gv = (s.gv.1, (.standbyCold, false, false)) := by
  unfold State.moveTo
  extract_lets old s1 s2 s3
  have h1 : s1.gv = s.gv := by unfold s1; split <;> simp only [State.abandonImage_gv]
  have h2 : s2.gv = s.gv := by unfold s2; split <;> simp only [State.ceAll_gv, h1]
  simp only [State.gv_mk]
  have : ∀ x : State, x.gv = (s.gv.1, (.standbyCold, false, false)) →
      ((x.pending, x.frame), (x.mode, x.power.gate, x.gw.driving)) = (s.gv.1, (.standbyCold, false, false)) := fun x h => h
  refine this _ ?_
  rw [State.cdStop_gv, State.closeGate_gvx]
  unfold s3; rw [State.transition_gvx, h2]

theorem State.moveTo_other_gv (s : State) (m : Mode) (c t : Nat) (h : m ≠ .standbyCold) :
    (s.moveTo m c t).gv = (s.gv.1, (m, s.gv.2.2)) := by
  unfold State.moveTo
  extract_lets old s1 s2 s3
  have h1 : s1.gv = s.gv := by unfold s1; split <;> simp only [State.abandonImage_gv]
  have h2 : s2.gv = s.gv := by unfold s2; split <;> simp only [State.ceAll_gv, h1]
  have h3 : s3.gv = (s.gv.1, (m, s.gv.2.2)) := by unfold s3; rw [State.transition_gvx, h2]
  clear_value s3
  cases m <;> first | exact absurd rfl h | exact h3

theorem State.move_boot_gv (s : State) (c t : Nat) (h : s.mode = .boot) : (s.move .boot c t).gv = s.gv := by
  unfold State.move; split
  · rfl
  · rw [State.moveTo_other_gv _ _ _ _ (by decide)]; simp only [State.gv_def, h]

@[simp] theorem State.servicesReset_gvx (s : State) : s.servicesReset.gv = (s.gv.1, (s.gv.2.1, s.gv.2.2.1, false)) := rfl

theorem State.bootStop_gv (s : State) (r : Nat) (b : Bool) (h : s.mode = .boot) : (s.bootStop r b).gv = s.gv := by
  unfold State.bootStop
  extract_lets p s1
  have h1 : s1.gv = s.gv := State.power_gv s _ rfl
  have hm : s1.mode = .boot := h
  split
  · exact (State.move_boot_gv _ _ _ hm).trans h1
  · exact h1

theorem State.bootRun_gv (s : State) (straps : List Nat) (h : s.mode = .boot) : (s.bootRun straps).gv = s.gv := by
  unfold State.bootRun
  extract_lets c s1 s2 id c2 s3 s4 one two
  have h1 : s1.gv = s.gv := by unfold s1 c; simp
  have h2 : s2.gv = s.gv := by simp only [s2, State.newChallenge_gv, h1]
  have h3 : s3.gv = s.gv := by rw [← h2]; unfold s3 c2; simp
  have h4 : s4.gv = s.gv := by simp only [s4, State.keyChain_gv, h3]
  have h5 : one.2.gv = s.gv := by simp only [one, State.runStage_gv, h4]
  have h6 : two.2.gv = s.gv := by simp only [two, State.runStage_gv, h5]
  have hm : ∀ t : State, t.gv = s.gv → t.mode = .boot := fun t ht => by rw [State.mode_gv, ht]; exact h
  split
  · rw [State.bootStop_gv _ _ _ (hm _ h2), h2]
  · split
    · rw [State.bootStop_gv _ _ _ (hm _ h5), h5]
    · split
      · rw [State.bootStop_gv _ _ _ (hm _ h6), h6]
      · simp only [State.bringUp_gv, State.seBoot_gv, State.bootConfigure_gv, h6]

theorem State.moduleRestart_gv (s : State) (t : Nat) (straps : List Nat) :
    (s.moduleRestart t straps).gv = if s.power.leaving then s.gv else (s.gv.1, (.boot, false, false)) := by
  unfold State.moduleRestart
  extract_lets b s1 c k p s2 s3
  split
  · rfl
  have h1 : s1.gv = (s.gv.1, (s.gv.2.1, false, false)) := by simp only [s1, State.cdStop_gv, State.closeGate_gvx]
  have h2 : s2.gv = (s.gv.1, (s.gv.2.1, false, false)) := by rw [← h1]; rfl
  have h3 : s3.gv = (s.gv.1, (Mode.boot, false, false)) := by
    unfold s3; rw [State.moveTo_other_gv _ _ _ _ (by decide)]; simp only [State.servicesReset_gvx, h2]
  rw [State.bootRun_gv _ _ (by rw [State.mode_gv, h3]), h3]

def GateOk (g : Mode × Bool × Bool) : Prop :=
  (g.2.2 = true → g.2.1 = true) ∧ (g.2.1 = true → holdsLeaseMode g.1 = true)

theorem State.gateInv_iff (s : State) : s.GateInv ↔ GateOk s.gv.2 := Iff.rfl

/-- What a command may do to the queue, the frame number and the gate. -/
def State.Follows (s t : State) : Prop :=
  t.pending = s.pending ∧ (t.frame = s.frame ∨ t.frame = 0) ∧ (s.GateInv → t.GateInv)

theorem State.Follows.of_gv {s t : State} (h : t.gv = s.gv) : s.Follows t := by
  have hp := congrArg (fun g => g.1.1) h
  have hf := congrArg (fun g => g.1.2) h
  refine ⟨hp, Or.inl hf, fun k => ?_⟩
  rw [State.gateInv_iff, h]; exact k

theorem State.Follows.of_gv1 {s t : State} (h : t.gv.1 = s.gv.1) (k : GateOk s.gv.2 → GateOk t.gv.2) : s.Follows t :=
  ⟨congrArg (·.1) h, Or.inl (congrArg (·.2) h), k⟩

theorem State.Follows.of_gvx {s t : State} {m} (h : t.gv = (s.gv.1, m)) (k : GateOk s.gv.2 → GateOk m) : s.Follows t :=
  State.Follows.of_gv1 (by rw [h]) (by rw [h]; exact k)

theorem State.Follows.rfl' {s : State} : s.Follows s := State.Follows.of_gv rfl

theorem State.Follows.trans {s t u : State} (h : s.Follows t) (k : t.Follows u) : s.Follows u := by
  obtain ⟨a, b, c⟩ := h
  obtain ⟨d, e, f⟩ := k
  refine ⟨d.trans a, ?_, fun x => f (c x)⟩
  rcases e with e | e
  · rw [e]; exact b
  · exact Or.inr e

theorem State.Follows.gv_left {s t u : State} (h : t.gv = s.gv) (k : t.Follows u) : s.Follows u := (State.Follows.of_gv h).trans k

theorem State.Follows.gv_right {s t u : State} (k : s.Follows t) (h : u.gv = t.gv) : s.Follows u := k.trans (State.Follows.of_gv h)

theorem ite_follows {s a b : State} {c : Prop} [Decidable c] (ha : s.Follows a) (hb : s.Follows b) :
    s.Follows (if c then a else b) := by split <;> assumption

theorem gateOk_closed {m : Mode} : GateOk (m, false, false) := ⟨fun h => h, fun h => Bool.noConfusion h⟩

theorem gateOk_lease {m : Mode} {g : Mode × Bool × Bool} (h : holdsLeaseMode m = true) (o : GateOk g) :
    GateOk (m, g.2) := ⟨o.1, fun _ => h⟩

theorem State.dark_follows (s : State) (m : Mode) (p : Power) (hp : p.gate = false) : s.Follows (s.dark m p) := by
  refine ⟨rfl, Or.inr rfl, fun _ => ⟨fun h => ?_, fun h => ?_⟩⟩
  · cases h
  · have : p.gate = true := h
    rw [hp] at this; cases this

theorem State.enterOff_follows (s : State) : s.Follows s.enterOff := State.dark_follows _ _ _ rfl

theorem State.enterShutdown_follows (s : State) (c p) : s.Follows (s.enterShutdown c p) := by
  unfold State.enterShutdown; split
  · exact .rfl'
  · refine .gv_left (State.faultRecord_gv s c 7 p) ?_
    exact ⟨rfl, Or.inr rfl, fun _ => gateOk_closed (m := .shutdownLatched)⟩

theorem State.latchRail_follows (s : State) (j c m) : s.Follows (s.latchRail j c m) := by
  unfold State.latchRail
  extract_lets p q s1 s2 s3 d s4
  split
  · exact State.enterShutdown_follows ..
  · refine .of_gv ?_
    have h1 : s1.gv = s.gv := by unfold s1; simp
    have h3 : s3.gv = s.gv := by simp only [s3, s2, State.count_gv, State.cdStop_gv, State.faultRecord_gv, h1]
    rw [State.mpcLog_gv, ← h3]; unfold s4; simp

theorem State.cdStart_follows (s : State) (i) : s.Follows (s.cdStart i) := by
  unfold State.cdStart
  extract_lets c s1 three s2
  have h1 : s1.gv = s.gv := by unfold s1; simp
  have h3 : three.2.gv = s.gv := by simp only [three, State.runStage_gv, State.cdPower_gv, h1]
  clear_value three
  split
  · split
    · exact .gv_left h1 (State.latchRail_follows ..)
    · exact .of_gv h1
  · split
    · exact .of_gv (by simp only [State.reaim_gv, State.cdRun_gv, h3])
    · refine .of_gv (.trans ?_ h3); unfold s2; simp only [State.gv_mk]; rfl

theorem State.cdStartDue_follows (s : State) (i) : s.Follows (s.cdStartDue i) := by
  unfold State.cdStartDue; split <;> first | exact State.cdStart_follows .. | exact .rfl'

theorem State.railFault_follows (s : State) (j c m) : s.Follows (s.railFault j c m) := by
  unfold State.railFault
  extract_lets s1
  have h1 : s1.gv = s.gv := State.rampReach_gv ..
  exact .gv_left h1 (ite_follows (State.latchRail_follows ..) .rfl')

theorem State.sensorRead_follows (s : State) (rs) : s.Follows (s.sensorRead rs) := by
  unfold State.sensorRead
  extract_lets old res trips new m s1 s2 fresh cd hbm s3 s4
  have h1 : s1.gv = s.gv := by unfold s1; simp
  have h2 : s2.gv = s1.gv := by
    refine foldl_gv _ _ _ (fun s x => ?_); split <;> simp only [State.mpcLog_gv]
  have h3 : s3.gv = s.gv := by unfold s3; cases cd <;> simp only [State.cdTrip_gv, h2, h1]
  have h4 : s4.gv = s.gv := by
    unfold s4; cases hbm
    · exact h3
    · simp only [State.cdTrip_gv, h3]
  split
  · exact .gv_left (h2.trans h1) (State.enterShutdown_follows ..)
  · exact .of_gv (by rw [State.siodWarm_gv, h4])

theorem State.mailboxDone_gv' (d : Done) (r : Bool) : (State.mailboxDone d r).gv = d.state.gv := by
  unfold State.mailboxDone; simp

theorem State.dapAnswer_gv' (d : Done) (p m t : Nat) (w : Bool) (e : Echo) : (State.dapAnswer d p m t w e).gv = d.state.gv := by
  unfold State.dapAnswer; simp

@[simp] theorem State.abandon_gv (s : State) (t : Transfer) : (s.abandon t).gv = s.gv := by
  unfold State.abandon; simp only [State.dapAnswer_gv', State.raise_gv, State.count_gv, State.refuse_gv, State.closeTransfer_gv]

theorem State.Follows.restart {s t : State} (h : t.gv = s.gv) (tr : Nat) (straps) : s.Follows (t.moduleRestart tr straps) :=
  .of_gvx (m := if t.power.leaving then s.gv.2 else (.boot, false, false)) (by rw [State.moduleRestart_gv, h]; split <;> rfl)
    (fun k => by split <;> first | exact k | exact gateOk_closed)

@[simp] theorem State.restartAfter_gv (s : State) (i st v : Nat) (straps) : (s.restartAfter i st v straps).gv = s.gv :=
  (gv_ite ..).trans (by split <;> rfl)

theorem State.restartAfter_follows (s : State) (i st v : Nat) (straps) : s.Follows (s.restartAfter i st v straps) := by
  exact .of_gv (State.restartAfter_gv ..)

theorem State.mailboxGo_follows (s : State) (straps) : s.Follows (s.mailboxGo straps) := by
  unfold State.mailboxGo
  extract_lets s1 h tr src a d
  have h1 : s1.gv = s.gv := State.count_gv _ _ _ _
  split
  · exact .of_gv (by simp only [State.mailboxDone_gv', State.doRead_gv, h1])
  · split
    · refine .gv_left (t := State.mailboxDone d false) ?_ (State.restartAfter_follows ..)
      simp only [State.mailboxDone_gv', d, State.doWrite_gv, h1]
    · exact .of_gv (by simp only [State.mailboxDone_gv', State.refuse_gv, h1])

theorem State.badOp_follows (s : State) : s.Follows s.badOp := by
  unfold State.badOp; exact .gv_left (State.host_gv ..) (State.mailboxGo_follows ..)

theorem State.hostRequest_follows (s : State) (op r straps) : s.Follows (s.hostRequest op r straps) := by
  unfold State.hostRequest; split
  · exact .gv_left (State.host_gv ..) (State.mailboxGo_follows ..)
  · exact .rfl'

theorem State.writeMbxCtrl_follows (s : State) (v : Nat) : s.Follows (s.writeMbxCtrl v) := by
  unfold State.writeMbxCtrl
  extract_lets h s1
  have h1 : s1.gv = s.gv := by unfold s1; split <;> simp
  split
  · exact .gv_left h1 (State.mailboxGo_follows ..)
  · exact .of_gv h1

theorem State.write32_follows (s : State) (o v : Nat) : s.Follows (s.write32 o v) := by
  unfold State.write32
  extract_lets h c g
  refine ite_follows (.of_gv (State.host_gv ..)) ?_
  refine ite_follows (.of_gv (State.clearCauses_gv ..)) ?_
  refine ite_follows (.of_gv (State.writeEnables_gv ..)) ?_
  refine ite_follows (.of_gv (State.host_gv ..)) ?_
  refine ite_follows (State.writeMbxCtrl_follows ..) ?_
  refine ite_follows (.of_gv (State.host_gv ..)) ?_
  refine ite_follows (.of_gv (State.host_gv ..)) ?_
  refine ite_follows (.of_gv (State.host_gv ..)) ?_
  refine ite_follows (.of_gv (State.msixWrite_gv ..)) ?_
  refine ite_follows (ite_follows (.of_gv (State.setCore_gv ..)) .rfl') ?_
  refine ite_follows (ite_follows (.of_gv (State.setCore_gv ..)) .rfl') ?_
  refine ite_follows (.of_gv ?_) ?_
  · simp only [State.gv_mk]; rfl
  refine ite_follows (.of_gv ?_) ?_
  · simp only [State.gv_mk]; rfl
  refine ite_follows (.of_gv (State.setLink_gv ..)) ?_
  refine ite_follows (.of_gv (State.host_gv ..)) ?_
  exact ite_follows (.of_gv (State.host_gv ..)) .rfl'

theorem State.writeWord_follows (s : State) (o v : Nat) : s.Follows (s.writeWord o v) := by
  unfold State.writeWord; split <;> first | exact State.write32_follows .. | exact .rfl'

theorem State.hostWrite_follows (s : State) (o w v : Nat) : s.Follows (s.hostWrite o w v) := by
  unfold State.hostWrite; split
  · exact .rfl'
  · extract_lets s1
    have h1 : s1.gv = s.gv := by unfold s1; split <;> simp
    split
    · exact .of_gv h1
    · split
      · exact .gv_left h1 ((State.writeWord_follows ..).trans (State.writeWord_follows ..))
      · exact .gv_left h1 (State.writeWord_follows ..)

theorem State.dapRead_gvy (s : State) (p m t r) : (s.dapRead p m t r).gv = s.gv := by
  unfold State.dapRead
  extract_lets s1
  have h1 : s1.gv = s.gv := State.count_gv _ _ _ _
  clear_value s1
  split
  · simp only [State.sendAnswer_gv, State.count_gv, h1]
  · simp only [State.dapAnswer_gv', State.doRead_gv, h1]

@[simp] theorem State.ackFrames_gv (s : State) (t : Transfer) (n : Nat) : (s.ackFrames t n).gv = s.gv := by
  unfold State.ackFrames; exact foldl_gv _ _ _ (fun s i => State.sendAck_gv ..)

theorem State.dapWrite_follows (s : State) (p m t r straps n) : s.Follows (s.dapWrite p m t r straps n) := by
  unfold State.dapWrite
  split
  · exact .of_gv (by simp only [State.sendAnswer_gv, State.count_gv])
  · extract_lets s1 t' tot a st
    have h1 : s1.gv = s.gv := by unfold s1; split <;> simp only [State.abandon_gv]
    clear_value s1
    split
    · exact .of_gv (by simp only [State.dapAnswer_gv', State.refuse_gv, State.count_gv, h1])
    · split
      · refine .gv_left ?_ (State.restartAfter_follows ..)
        rw [State.dapAnswer_gv']
        exact (State.outs_gv ..).trans ((State.doWrite_gv ..).trans ((State.count_gv ..).trans h1))
      · split
        · exact .of_gv (by rw [State.abandon_gv, State.ackFrames_gv, State.count_gv, h1])
        · exact .of_gv (by rw [State.sendAck_gv, State.net_gv, State.ackFrames_gv, State.count_gv, h1])

theorem State.requestWrite_follows (s : State) (r straps n) : s.Follows (s.requestWrite r straps n) := by
  unfold State.requestWrite; split
  · exact State.hostRequest_follows ..
  · split <;> first | exact State.dapWrite_follows .. | exact .rfl'

theorem State.requestRead_follows (s : State) (r) : s.Follows (s.requestRead r) := by
  unfold State.requestRead; split
  · exact State.hostRequest_follows ..
  · split <;> first | exact .of_gv (State.dapRead_gvy ..) | exact .rfl'

theorem State.command_follows (s : State) (h i k n v straps) : s.Follows (s.command h i k n v straps) := State.requestWrite_follows ..

theorem State.commandTo_follows (s : State) (h i k v) : s.Follows (s.commandTo h i k v) := State.command_follows ..

theorem State.finishTransfer_follows (s : State) (t straps) : s.Follows (s.finishTransfer t straps) := by
  unfold State.finishTransfer
  extract_lets s1 a d
  refine .gv_left (t := State.dapAnswer d t.port t.mac t.tag true t.echo) ?_ (State.restartAfter_follows ..)
  simp only [State.dapAnswer_gv', d, State.conclude_gv, s1, State.closeTransfer_gv]

theorem State.dapSegment_follows (s : State) (p m t o d n straps) : s.Follows (s.dapSegment p m t o d n straps) := by
  unfold State.dapSegment; split
  · exact .of_gv (State.dapDrop_gv ..)
  · extract_lets s1 tot u net s2
    have h1 : s1.gv = s.gv := State.count_gv _ _ _ _
    split
    · exact .of_gv (by simp only [State.abandon_gv, h1])
    · split
      · exact .gv_left h1 (State.finishTransfer_follows ..)
      · exact .of_gv (by rw [State.sendAck_gv]; exact (State.net_gv ..).trans h1)

theorem State.dapAbort_gv (s : State) (p m t) : (s.dapAbort p m t).gv = s.gv := by
  unfold State.dapAbort; split <;> simp only [State.dapDrop_gv, State.abandon_gv, State.count_gv]

theorem State.dapTimeout_gv (s : State) (p m t) : (s.dapTimeout p m t).gv = s.gv := by
  unfold State.dapTimeout; split <;> simp only [State.abandon_gv]

theorem State.ifUp_follows {s : State} {f : State → State} (h : s.Follows (f s)) : s.Follows (s.ifUp f) := by
  unfold State.ifUp; split <;> first | exact h | exact .rfl'

theorem State.ifServed_follows {s : State} {f : State → State} (h : s.Follows (f s)) : s.Follows (s.ifServed f) := by
  unfold State.ifServed; split <;> first | exact h | exact .rfl'

theorem State.ifHost_follows {s : State} {f : State → State} (h : s.Follows (f s)) : s.Follows (s.ifHost f) := by
  unfold State.ifHost; split <;> first | exact h | exact .rfl'

theorem State.ifAnswers_follows {s : State} {f : State → State} (h : s.Follows (f s)) : s.Follows (s.ifAnswers f) := by
  unfold State.ifAnswers; split <;> first | exact h | exact .rfl'

theorem State.ifSweeping_follows {s : State} {f : State → State} (h : s.Follows (f s)) : s.Follows (s.ifSweeping f) := by
  unfold State.ifSweeping; split <;> first | exact h | exact .rfl'

theorem State.onChannel_follows {s : State} {c} {f : State → State} (h : s.Follows (f s)) : s.Follows (s.onChannel c f) := by
  unfold State.onChannel; split <;> first | exact h | exact .rfl'

theorem State.plainCommand_follows {s : State} {p op} {f : State → Nat → Run → Blob → State} (h : ∀ (t : State) c r x, t.Follows (f t c r x)) :
    s.Follows (s.plainCommand p op f) := by
  have hi := State.issue_gv s p
  unfold State.plainCommand; split
  · rename_i t e; rw [e] at hi; exact .of_gv hi
  · rename_i t c r x e
    rw [e] at hi
    split
    · exact .rfl'
    · exact .gv_left hi (h ..)

theorem State.clockLost_follows (s : State) (b) : s.Follows (s.clockLost b) := State.enterShutdown_follows ..

theorem State.mpWatchdog_follows (s : State) : s.Follows s.mpWatchdog := by
  unfold State.mpWatchdog; split <;> first | exact State.enterShutdown_follows .. | exact .rfl'

theorem State.closeGate_follows {s t : State} (h : t.gv = s.closeGate.gv) : s.Follows t :=
  .of_gvx (m := (s.mode, false, false)) h (fun _ => gateOk_closed)

theorem State.move_lease_follows (s : State) (m : Mode) (c t : Nat) (h : holdsLeaseMode m = true)
    (hs : m ≠ .standbyCold) : s.Follows (s.move m c t) :=
  ite_follows .rfl' (.of_gvx (State.moveTo_other_gv s m c t hs) (fun o => gateOk_lease h o))

theorem State.move_standby_follows (s : State) (c t : Nat) : s.Follows (s.move .standbyCold c t) :=
  ite_follows .rfl' (.of_gvx (State.moveTo_standby_gv s c t) (fun _ => gateOk_closed))

theorem State.enterHold_follows (s : State) : s.Follows s.enterHold := by
  unfold State.enterHold
  exact .gv_left (by unfold State.holdCauses; exact State.hold_gv ..) (State.move_lease_follows _ _ _ _ rfl (by decide))

theorem State.leaveHold_follows (s : State) (t : Nat) : s.Follows (s.leaveHold t) := by
  unfold State.leaveHold
  extract_lets c s1
  refine .gv_left (t := s1.ceRestart) ((State.ceRestart_gv _).trans (State.hold_gv ..)) ?_
  split <;> exact State.move_lease_follows _ _ _ _ rfl (by decide)

theorem State.holdFrame_follows (s : State) : s.Follows s.holdFrame := by
  unfold State.holdFrame
  refine ite_follows .rfl' (ite_follows (State.leaveHold_follows ..) ?_)
  extract_lets s1
  have h1 : s1.gv = s.gv := by unfold s1; simp
  exact .gv_left h1 (ite_follows .rfl' (State.leaveHold_follows ..))

theorem State.causesFrame_follows (s : State) : s.Follows s.causesFrame := by
  unfold State.causesFrame
  extract_lets c
  exact ite_follows .rfl' (ite_follows (State.move_lease_follows _ _ _ _ rfl (by decide))
    (State.move_lease_follows _ _ _ _ rfl (by decide)))

theorem State.switchFrame_follows (s : State) : s.Follows s.switchFrame := by
  unfold State.switchFrame
  refine ite_follows .rfl' ?_
  refine ite_follows ?_ (ite_follows (.of_gv (State.startCheckpoint_gv ..)) .rfl')
  extract_lets last seq s1 s2 s3 s4
  refine (State.closeGate_follows (t := s1) rfl).trans ((State.move_standby_follows s1 0 0x0F).gv_right ?_)
  simp only [State.peerSend_gv, s4, State.setRed_gv, s3, State.count_gv, State.redLog_gv, s2]

theorem State.restartFrame_follows (s : State) : s.Follows s.restartFrame := by
  unfold State.restartFrame
  split
  · exact .restart (State.draw_gv _) ..
  · exact .rfl'

theorem State.judge_follows (s : State) : s.Follows s.judge := by
  unfold State.judge
  extract_lets s1 s2
  have h1 : s1.gv = s.gv := by unfold s1; simp only [State.gv_mk]; rfl
  refine .gv_left h1 (ite_follows .rfl' (ite_follows (State.move_standby_follows ..) (ite_follows (State.restartFrame_follows _)
    (ite_follows (State.holdFrame_follows _) (ite_follows ?_ .rfl')))))
  refine (State.switchFrame_follows s1).trans ?_
  exact ite_follows .rfl' (ite_follows (State.enterHold_follows _) (State.causesFrame_follows _))

theorem State.drives_holds (s : State) (h : s.drives = true) : s.power.gate = true := by
  unfold State.drives at h
  revert h; cases s.power.gate <;> simp

theorem State.sendMgmt_gv' (s : State) : s.sendMgmt.gv = s.gv := by simp

theorem State.gangwayFrame_follows (s : State) (d : Bool) : s.Follows (s.gangwayFrame d) := by
  unfold State.gangwayFrame
  extract_lets g s1 pos hold ratios g1 x s2 s3 s4 y s5 z s6
  have h1 : s1.gv = s.gv := by unfold s1; simp only [State.gv_mk]; rfl
  split
  · rename_i hd
    have hg : s1.power.gate = true := State.drives_holds _ hd
    refine .gv_left h1 ?_
    have h2 : s2.gv = (s1.gv.1, (s1.gv.2.1, s1.gv.2.2.1, true)) := by unfold s2; simp only [State.gv_mk]; rfl
    have hgg : s1.gv.2.2.1 = true := hg
    refine .of_gvx (m := (s1.gv.2.1, s1.gv.2.2.1, true)) ?_ (fun o => ⟨fun _ => hgg, o.2⟩)
    rw [State.sendMgmt_gv', ← h2]
    have h3 : s3.gv = s2.gv := by simp only [s3, State.count64_gv, State.emit_gv]
    rw [← h3]
    have h5 : s5.gv = s3.gv := (State.gw_gv s4 _ rfl).trans (State.count_gv s3 0x1300 4 1)
    unfold s6
    split
    · split
      · rw [State.raise_gv, State.logEvent_gv, h5]
      · exact h5
    · exact State.gw_gv s3 _ rfl
  · refine .gv_left h1 (.of_gvx (m := (s1.gv.2.1, s1.gv.2.2.1, false)) (by simp only [State.gv_mk]; rfl)
      (fun o => ⟨fun h => Bool.noConfusion h, o.2⟩))

theorem State.up_gv (s : State) : s.up = (decide (s.gv.2.1 ≠ .off) && decide (s.gv.2.1 ≠ .shutdownLatched)) := by
  unfold State.up State.gv; cases s.mode <;> rfl

theorem State.ceEnter_follows (s : State) : s.Follows s.ceEnter := by
  unfold State.ceEnter
  refine ite_follows .rfl' ?_
  extract_lets c s1 s2 us heard quiet passive causes s3 s4 s5 s6
  clear_value us heard quiet passive causes
  have h1 : s1.gv = s.gv := by unfold s1; simp
  have h2 : s2.gv = s.gv := by unfold s2; rw [State.queueNodes_gv, h1]
  refine ite_follows ?_ (.of_gv h2)
  have h3 : s3.gv = s.gv := (State.setRed_gv ..).trans h2
  have h4 : s4.gv = s.gv := by rw [← h3]; unfold s4; simp only [State.gv_mk]; rfl
  have h5 : s4.Follows s5 := by unfold s5; split <;> exact State.move_lease_follows _ _ _ _ rfl (by decide)
  have h6 : s.Follows s6 := .gv_left h4 (h5.gv_right (State.redLog_gv ..))
  have h7 : s.Follows (if s6.gw.driving then s6 else s6.gangwayFrame s6.gw.readBack) :=
    ite_follows h6 (h6.trans (State.gangwayFrame_follows s6 _))
  exact h7.gv_right (State.commitGrants_gv ..)

theorem State.claim_follows (s : State) : s.Follows s.claim := by
  unfold State.claim
  refine ite_follows .rfl' ?_
  extract_lets hand back s1 ring s2 p c e r s3 s4
  have h1 : s1.gv = s.gv := State.fileLate_gv ..
  have h2 : s2.gv = (s.gv.1, (.takeover, s.gv.2.2)) := by
    unfold s2; rw [State.moveTo_other_gv _ _ _ _ (by decide), h1]
  have h3 : s3.gv = (s.gv.1, (.takeover, true, s.gv.2.2.2)) := by
    unfold s3; rw [State.gv_mk]
    show (s2.gv.1, (s2.gv.2.1, true, s2.gv.2.2.2)) = _
    rw [h2]
  refine .of_gvx (m := (.takeover, true, s.gv.2.2.2)) ?_ (fun _ => ⟨fun _ => rfl, fun _ => rfl⟩)
  simp only [State.redLog_gv, State.count_gv, State.emit_gv, s4, State.renew_gv, h3]

theorem State.conflict_follows (s : State) (p : Nat) : s.Follows (s.conflict p) := by
  unfold State.conflict
  extract_lets s1 s2 s3
  have h3 : s3.gv = s.closeGate.gv := by
    simp only [s3, State.setRed_gv, s2, State.redLog_gv, s1, State.count_gv]
  split
  · exact State.closeGate_follows ((State.hold_gv ..).trans h3)
  · exact State.closeGate_follows ((State.setRed_gv ..).trans h3)

theorem State.pulseIn_follows (s : State) (us : Nat) : s.Follows (s.pulseIn us) := by
  unfold State.pulseIn
  split
  · exact .of_gv (State.power_gv s _ rfl)
  split
  · exact .gv_left (State.renewalIn_gv _) (State.conflict_follows ..)
  extract_lets s1 valid
  have h1 : s1.gv = s.gv := by simp only [s1, State.renewalIn_gv, State.fileLate_gv]
  clear_value s1
  refine .of_gv ?_
  split
  · exact h1
  · split
    · split <;> exact (State.setRed_gv ..).trans h1
    · exact (State.setRed_gv ..).trans h1

theorem State.renewIn_follows (s : State) (n : Nat) : s.Follows (s.renewIn n) := by
  unfold State.renewIn
  split
  · exact .gv_left ((State.setRed_gv ..).trans (State.renewalIn_gv _)) (State.conflict_follows ..)
  extract_lets s1 v a
  have h1 : s1.gv = s.gv := by simp only [s1, State.setRed_gv, State.renewalIn_gv, State.fileLate_gv]
  clear_value s1
  refine .of_gv ?_
  split
  · exact h1
  · exact (State.setRed_gv ..).trans h1

theorem State.leaseLost_follows (s : State) (c : Nat) : s.Follows (s.leaseLost c) := by
  unfold State.leaseLost
  exact State.closeGate_follows (by simp only [State.setRed_gv, State.redLog_gv])

theorem State.leaseExpires_follows (s : State) (straps) : s.Follows (s.leaseExpires straps) := by
  unfold State.leaseExpires
  refine ite_follows .rfl' ?_
  extract_lets s1
  have h1 : s1.gv = s.gv := State.setRed_gv ..
  refine .gv_left h1 (ite_follows (ite_follows (.restart rfl _ _) ?_) (ite_follows (State.leaseLost_follows ..) .rfl'))
  exact (State.leaseLost_follows s1 1).trans (.restart rfl _ _)

theorem State.takeoverFails_follows (s : State) (straps) : s.Follows (s.takeoverFails straps) := by
  unfold State.takeoverFails
  refine ite_follows ?_ .rfl'
  extract_lets s1 s2 c s3
  have h3 : s3.gv = s.closeGate.gv := by
    refine (State.cd_gv s2 _).trans ?_
    simp only [s2, State.setRed_gv, s1, State.redLog_gv]
  exact (State.closeGate_follows h3).trans (.restart rfl _ _)

theorem State.holdLimit_follows (s : State) : s.Follows s.holdLimit := by
  unfold State.holdLimit
  split
  · extract_lets s1
    exact State.closeGate_follows (by simp only [State.gv_mk]; rfl)
  · exact .rfl'

theorem State.dropWaiting_gv' (s : State) : s.dropWaiting.gv = s.gv := by simp

theorem State.leaveRange_follows (s : State) : s.Follows s.leaveRange := by
  unfold State.leaveRange
  refine ite_follows (State.enterOff_follows _) ?_
  extract_lets s1 p s2
  have h1 : s1.gv = (s.gv.1, (s.gv.2.1, false, false)) := by
    simp only [s1, State.dropWaiting_gv', State.cdStop_gv, State.closeGate_gvx]
  have h2 : s2.gv = (s.gv.1, (s.gv.2.1, false, false)) := by rw [← h1]; rfl
  refine .trans (t := s2) (.of_gvx h2 (fun _ => gateOk_closed)) ?_
  split
  · exact .rfl'
  · exact State.enterOff_follows _

theorem State.vaonLost_follows (s : State) : s.Follows s.vaonLost := ite_follows .rfl' (State.leaveRange_follows _)

theorem State.rideThroughEnd_follows (s : State) : s.Follows s.rideThroughEnd := ite_follows (State.leaveRange_follows _) .rfl'

theorem State.mateOpen_follows (s : State) (n : Nat) : s.Follows (s.mateOpen n) := by
  unfold State.mateOpen
  split
  · exact .rfl'
  extract_lets p s1
  exact .gv_left (t := s1) (State.power_gv s _ rfl) (ite_follows .rfl' (State.leaveRange_follows _))

theorem State.supervise_follows (s : State) (mv : Nat) : s.Follows (s.supervise mv) := by
  unfold State.supervise
  refine ite_follows .rfl' ?_
  extract_lets p s1 p1 n s2
  have h1 : s1.gv = s.gv := State.power_gv s _ rfl
  have h2 : s2.gv = s.gv := (State.power_gv s1 _ rfl).trans h1
  refine .gv_left h1 (ite_follows (ite_follows (.of_gv (State.power_gv s1 _ rfl)) .rfl') ?_)
  refine ite_follows ?_ (ite_follows (ite_follows ?_ (.of_gv (State.power_gv s1 _ rfl))) (.of_gv (State.power_gv s1 _ rfl)))
  · refine .trans ?_ (State.leaveRange_follows _)
    exact ite_follows (.of_gv (State.power_gv s1 _ rfl)) .rfl'
  · exact .gv_left (State.power_gv s1 _ rfl) (State.leaveRange_follows _)

theorem State.recordTaken_gv' (s : State) (w) : (s.recordTaken w).gv = s.gv := by simp

theorem State.nvrDone_follows (s : State) : s.Follows s.nvrDone := by
  unfold State.nvrDone
  split
  · exact .rfl'
  · rename_i w hw
    extract_lets n s1 s2
    have h1 : s1.gv = s.gv := State.nvr_gv s _
    refine ite_follows ?_ ?_
    · exact .gv_left (t := s1) h1 (.gv_left (State.nvr_gv s1 _) (State.enterOff_follows _))
    · have h2 : s2.gv = s.gv := by
        unfold s2; split
        · rw [State.recordTaken_gv', h1]
        · exact (State.nvr_gv s1 _).trans h1
      split
      · exact .of_gv h2
      · exact .of_gv ((State.nvr_gv s2 _).trans h2)

theorem State.bootStop_follows (s : State) (r : Nat) (b : Bool) (h : s.mode = .boot) : s.Follows (s.bootStop r b) :=
  .of_gv (State.bootStop_gv s r b h)

theorem State.watchEnd_follows (s : State) (d : Bool) : s.Follows (s.watchEnd d) := by
  unfold State.watchEnd
  split
  · exact .rfl'
  · rename_i h
    split
    · exact State.bootStop_follows _ _ _ (Classical.byContradiction fun k => h (Or.inl k))
    · exact .of_gv (State.power_gv s _ rfl)

theorem State.bootDone_follows (s : State) : s.Follows s.bootDone := by
  unfold State.bootDone
  extract_lets s1 s2 p
  have h1 : s1.gv = s.gv := by unfold s1; split <;> simp only [State.rampAll_gv]
  refine .gv_left h1 ?_
  split
  · exact .gv_right (State.move_standby_follows s1 0 0x01) (State.power_gv _ _ rfl)
  · exact .rfl'

theorem State.bootWatchdog_follows (s : State) (straps) : s.Follows (s.bootWatchdog straps) := by
  unfold State.bootWatchdog
  split
  · exact .rfl'
  · rename_i h
    have hm : s.mode = .boot := Classical.byContradiction fun k => h (Or.inl k)
    extract_lets n p s1
    have h1 : s1.gv = s.gv := State.power_gv s _ rfl
    have hm1 : s1.mode = .boot := hm
    refine .gv_left h1 ?_
    split
    · exact State.bootStop_follows _ _ _ hm1
    · refine .trans (t := s1.servicesReset) (.of_gvx (State.servicesReset_gvx s1) (fun o => ⟨fun h => Bool.noConfusion h, o.2⟩)) ?_
      exact .of_gv (State.bootRun_gv _ _ hm1)

theorem State.raiseRails_gv' (s : State) (l) : (s.raiseRails l).gv = s.gv := by simp

theorem State.powerOn_follows (s : State) (b) : s.Follows (s.powerOn b) := by
  unfold State.powerOn
  split
  · exact .rfl'
  · rename_i h
    have hm : s.mode = .off := Classical.byContradiction fun k => h k
    extract_lets before fault p m s1 s2 s3 c p2 s4
    have h1 : s1.gv = s.gv := State.mpc_power_gv s _ _ rfl
    have h2 : s2.gv = (s.gv.1, (.boot, s.gv.2.2)) := by unfold s2; rw [State.moveTo_other_gv _ _ _ _ (by decide), h1]
    have f2 : s.Follows s2 := by
      refine .of_gvx h2 (fun o => ⟨o.1, fun k => ?_⟩)
      have := o.2 k
      rw [show s.gv.2.1 = .off from hm] at this
      exact Bool.noConfusion this
    split
    · exact f2.trans (ite_follows (State.latchRail_follows ..) .rfl')
    · have h3 : s3.gv = s2.gv := State.raiseRails_gv' ..
      have h4 : s4.gv = s2.gv := (State.clk_power_gv s3 _ _ rfl).trans h3
      have hb : s4.mode = .boot := by rw [State.mode_gv, h4, h2]
      exact f2.gv_right ((State.bootRun_gv _ _ hb).trans h4)

theorem State.softStartShort_follows (s : State) (j m) : s.Follows (s.softStartShort j m) := by
  unfold State.softStartShort
  extract_lets s0 pl af p s1 s2 p1 s3 c s4
  have h0 : s0.gv = s.gv := State.rampReach_gv ..
  refine .gv_left h0 ?_
  split
  · exact .rfl'
  split
  · exact State.latchRail_follows ..
  have h1 : s1.gv = s0.gv := by unfold s1; simp
  have h2 : s2.gv = s0.gv := by simp only [s2, State.count_gv, State.faultRecord_gv, h1]
  refine .of_gv ((State.mpcLog_gv ..).trans ?_)
  unfold s4
  split
  · exact (State.power_gv s2 _ rfl).trans h2
  · refine (State.cd_gv s3 _).trans ((State.cdStop_gv ..).trans h2)

theorem State.softStartRetry_follows (s : State) (j m) : s.Follows (s.softStartRetry j m) := by
  unfold State.softStartRetry
  extract_lets s1 p c m s2 s3
  split
  · exact .rfl'
  split
  · split
    · exact .rfl'
    · split
      · exact ite_follows (State.latchRail_follows ..) .rfl'
      · exact .of_gv ((State.power_gv s1 _ rfl).trans (State.raiseRails_gv' ..))
  · have h2 : s2.gv = s.gv := State.cd_mpc_gv s _ _
    have h3 : s3.gv = s.gv := by simp only [s3, State.cdDue_gv, h2]
    exact .gv_left h3 (ite_follows (State.cdStart_follows ..) .rfl')

theorem State.takeRecords_gv' (s : State) : s.takeRecords.1.gv = s.gv := by simp

theorem State.frameBoundary_inv (s : State) (d : Bool) :
    (s.frameBoundary d).pending = s.pending ∧ (s.GateInv → (s.frameBoundary d).GateInv) := by
  unfold State.frameBoundary
  split
  · exact ⟨rfl, id⟩
  · extract_lets s1 t s2 s3 g4 s4
    have f : State.Follows s1 (((s4.siodRead 784 801).gangwayFrame d).commitGrants.lostCharge) := by
      have h1 : t.1.gv = s1.gv := State.takeRecords_gv' _
      have h2 : s1.Follows s2 := .gv_left h1 ((State.judge_follows t.1).gv_right (State.ceFrame_gv ..))
      have h3 : s2.Follows s3 := by
        unfold s3
        refine ite_follows (.of_gv ?_) .rfl'
        simp only [State.digestFrame_gv, State.frameEffects_gv]
      have h4 : s4.gv = s3.gv := by unfold s4; simp only [State.gv_mk]; rfl
      refine (h2.trans h3).trans (.gv_left ((State.siodRead_gv s4 784 801).trans h4)
        ((State.gangwayFrame_follows (s4.siodRead 784 801) d).gv_right ?_))
      simp only [State.lostCharge_gv, State.commitGrants_gv]
    exact ⟨f.1, f.2.2⟩

end Sys2Proof.Machine
end

