-- ==== Sys2Proof/Laws/Memory.lean ====
section
/-! SUPPORT. Tables and memories: what a table reads after an update, that every update keeps the canonical form
(`tabWf`), and that every operation of a memory keeps `Mem.wf`, which the memories of `State.reset` have. -/

namespace Sys2Proof.Machine

open Sys2Proof

variable {α : Type}

/-! ## Reading after an update -/

@[simp] theorem tabGet_tabInsert (d : α) (t : Tab α) (i j : Nat) (v : α) :
    tabGet d (tabInsert t i v) j = if j = i then v else tabGet d t j := by
  induction t with
  | nil => rfl
  | cons p t ih =>
    rcases p with ⟨k, w⟩
    unfold tabInsert
    split
    · rfl
    · split
      · next h => subst h; by_cases e : j = i <;> simp [tabGet, e]
      · next h => by_cases e : j = k <;> simp_all [tabGet, eq_comm]

@[simp] theorem tabGet_tabErase (d : α) (t : Tab α) (i j : Nat) :
    tabGet d (tabErase t i) j = if j = i then d else tabGet d t j := by
  induction t with
  | nil => simp [tabErase, tabGet]
  | cons p t ih =>
    rcases p with ⟨k, w⟩
    unfold tabErase
    split
    · next h => subst h; rw [ih]; by_cases e : j = i <;> simp [tabGet, e]
    · next h => by_cases e : j = k <;> simp_all [tabGet, eq_comm]

@[simp] theorem tabGet_tabPut [DecidableEq α] (d : α) (t : Tab α) (i j : Nat) (v : α) :
    tabGet d (tabPut d t i v) j = if j = i then v else tabGet d t j := by
  unfold tabPut
  split
  · next h => subst h; simp
  · simp

@[simp] theorem tabGet_tabMod [DecidableEq α] (d : α) (t : Tab α) (i j : Nat) (f : α → α) :
    tabGet d (tabMod d t i f) j = if j = i then f (tabGet d t i) else tabGet d t j := by simp [tabMod]

/-! ## The canonical form -/

/-- The canonical form of a table: keys strictly rising, no entry equal to the default. -/
theorem tabWf_iff [DecidableEq α] (d : α) (t : Tab α) :
    tabWf d t = true ↔ (t.map (·.1)).Pairwise (· < ·) ∧ ∀ p ∈ t, p.2 ≠ d := by
  induction t with
  | nil => simp [tabWf]
  | cons p t ih =>
    cases t with
    | nil => simp [tabWf]
    | cons q t =>
      simp only [tabWf, Bool.and_eq_true, decide_eq_true_eq, ih, List.map_cons, List.pairwise_cons, List.mem_cons,
        forall_eq_or_imp]
      constructor
      · rintro ⟨⟨h1, h2⟩, ⟨h3, h4⟩, h5⟩
        exact ⟨⟨⟨h2, fun k hk => Nat.lt_trans h2 (h3 k hk)⟩, h3, h4⟩, h1, h5⟩
      · rintro ⟨⟨⟨h2, -⟩, h3, h4⟩, h1, h5⟩
        exact ⟨⟨h1, h2⟩, ⟨h3, h4⟩, h5⟩

theorem tabWf_filter [DecidableEq α] {d : α} {t : Tab α} (f : Nat × α → Bool) (h : tabWf d t = true) :
    tabWf d (t.filter f) = true := by
  rw [tabWf_iff] at *
  exact ⟨h.1.sublist (List.Sublist.map _ List.filter_sublist), fun p hp => h.2 p (List.mem_filter.mp hp).1⟩

theorem tabErase_eq_filter (t : Tab α) (i : Nat) : tabErase t i = t.filter (fun p => decide (p.1 ≠ i)) := by
  induction t with
  | nil => rfl
  | cons p t ih =>
    rcases p with ⟨k, w⟩
    by_cases h : i = k <;> simp_all [tabErase, eq_comm]

theorem tabWf_tabErase [DecidableEq α] {d : α} {t : Tab α} (i : Nat) (h : tabWf d t = true) :
    tabWf d (tabErase t i) = true := by rw [tabErase_eq_filter]; exact tabWf_filter _ h

theorem mem_tabInsert {t : Tab α} {i : Nat} {v : α} {p : Nat × α} (h : p ∈ tabInsert t i v) : p = (i, v) ∨ p ∈ t := by
  induction t with
  | nil => simpa [tabInsert] using h
  | cons q t ih =>
    unfold tabInsert at h
    split at h
    · simpa using h
    · split at h
      · rcases List.mem_cons.mp h with h | h
        · exact .inl h
        · exact .inr (List.mem_cons_of_mem _ h)
      · rcases List.mem_cons.mp h with h | h
        · exact .inr (h ▸ List.mem_cons_self)
        · exact (ih h).imp id (List.mem_cons_of_mem _)

theorem tabWf_tabInsert [DecidableEq α] {d : α} {t : Tab α} {i : Nat} {v : α} (hv : v ≠ d) (h : tabWf d t = true) :
    tabWf d (tabInsert t i v) = true := by
  rw [tabWf_iff] at *
  refine ⟨?_, fun p hp => (mem_tabInsert hp).elim (fun e => by rw [e]; exact hv) (h.2 p)⟩
  obtain ⟨h1, -⟩ := h
  induction t with
  | nil => simp [tabInsert]
  | cons q t ih =>
    rcases q with ⟨k, w⟩
    simp only [List.map_cons, List.pairwise_cons] at h1
    unfold tabInsert
    split
    · next lt =>
      simp only [List.map_cons, List.pairwise_cons, List.mem_cons, forall_eq_or_imp]
      exact ⟨⟨lt, fun a ha => Nat.lt_trans lt (h1.1 a ha)⟩, h1⟩
    · split
      · next e => subst e; simpa only [List.map_cons, List.pairwise_cons] using h1
      · next nlt ne =>
        simp only [List.map_cons, List.pairwise_cons]
        refine ⟨fun a ha => ?_, ih h1.2⟩
        obtain ⟨p, hp, rfl⟩ := List.mem_map.mp ha
        rcases mem_tabInsert hp with e | m
        · subst e; show k < i; omega
        · exact h1.1 _ (List.mem_map_of_mem m)

theorem tabWf_tabPut [DecidableEq α] {d : α} {t : Tab α} (i : Nat) (v : α) (h : tabWf d t = true) :
    tabWf d (tabPut d t i v) = true := by
  unfold tabPut
  split
  · exact tabWf_tabErase i h
  · next hv => exact tabWf_tabInsert hv h

theorem tabWf_tabMod [DecidableEq α] {d : α} {t : Tab α} (i : Nat) (f : α → α) (h : tabWf d t = true) :
    tabWf d (tabMod d t i f) = true := tabWf_tabPut i _ h

theorem tabWf_cellsPut {t : List Host.Cell} (a n : Nat) (v : Blob) (h : tabWf 0 t = true) :
    tabWf 0 (cellsPut memZero t a n v) = true := by
  induction n generalizing t a v with
  | zero => exact h
  | succ n ih => exact ih _ _ (tabWf_tabPut (d := (0 : BitVec 8)) a _ h)

/-- An ordered list of numbers, as a table. -/
theorem ordInsert_map (l : List Nat) (i : Nat) :
    (ordInsert l i).map (fun b => (b, 0)) = tabInsert (l.map (fun b => (b, 0))) i 0 := by
  induction l with
  | nil => rfl
  | cons k t ih =>
    unfold ordInsert
    simp only [List.map_cons, tabInsert]
    split
    · rfl
    · split
      · next h => subst h; rfl
      · simp [ih]

theorem tabWf_ordInsert {l : List Nat} (i : Nat) (h : tabWf 1 (l.map (fun b => (b, 0))) = true) :
    tabWf 1 ((ordInsert l i).map (fun b => (b, 0))) = true := by
  rw [ordInsert_map]; exact tabWf_tabInsert (by decide) h

/-! ## Memories -/

theorem Mem.wf_iff (m : Mem) : m.wf ↔
    tabWf 0 m.cells = true ∧ tabWf 0 m.errs = true ∧ tabWf 1 (m.valid.map (fun b => (b, 0))) = true ∧
      tabWf 0 m.votes = true := by
  simp only [Mem.wf, Bool.and_eq_true, and_assoc]

theorem Mem.wf_of {m : Mem} (h1 : tabWf 0 m.cells = true) (h2 : tabWf 0 m.errs = true)
    (h3 : tabWf 1 (m.valid.map (fun b => (b, 0))) = true) (h4 : tabWf 0 m.votes = true) : m.wf :=
  (Mem.wf_iff m).mpr ⟨h1, h2, h3, h4⟩

theorem valid_filter {l : List Nat} (f : Nat → Bool) (h : tabWf 1 (l.map (fun b => (b, 0))) = true) :
    tabWf 1 ((l.filter f).map (fun b => (b, 0))) = true := by
  have e : (l.filter f).map (fun b => (b, 0)) = (l.map (fun b => (b, 0))).filter (fun p : Nat × Nat => f p.1) := by
    rw [List.filter_map]; rfl
  rw [e]; exact tabWf_filter _ h

/-- A memory with nothing in it is in canonical form. -/
theorem Mem.wf_empty : ({} : Mem).wf := by decide

/-- Writing one word keeps the canonical form. -/
theorem Mem.wf_writeWord (m : Mem) (unit w a n : Nat) (v : Blob) (h : m.wf) : (m.writeWord unit w a n v).1.wf := by
  obtain ⟨h1, h2, h3, h4⟩ := (Mem.wf_iff m).mp h
  unfold Mem.writeWord
  dsimp only
  split
  · exact h
  · exact Mem.wf_of (tabWf_cellsPut _ _ _ h1) (tabWf_tabErase _ h2) (tabWf_ordInsert _ h3) h4

/-- Writing any bytes keeps the canonical form. -/
theorem Mem.wf_write (m : Mem) (unit a n : Nat) (v : Blob) (h : m.wf) : (m.write unit a n v).1.wf := by
  unfold Mem.write
  suffices ∀ (l : List Nat) (p : Mem × MemFx), p.1.wf →
      (l.foldl (fun p w => let r := p.1.writeWord unit w a n v; (r.1, p.2.add r.2)) p).1.wf from this _ _ h
  intro l
  induction l with
  | nil => exact fun p hp => hp
  | cons w t ih => exact fun p hp => ih _ (Mem.wf_writeWord _ _ _ _ _ _ hp)

/-- Clearing bytes keeps the canonical form. -/
theorem Mem.wf_clear (m : Mem) (unit a n : Nat) (h : m.wf) : (m.clear unit a n).wf := by
  obtain ⟨h1, h2, h3, h4⟩ := (Mem.wf_iff m).mp h
  exact Mem.wf_of (tabWf_filter _ h1) (tabWf_filter _ h2) (valid_filter _ h3) (tabWf_filter _ h4)

/-- Dropping what is gone keeps the canonical form. -/
theorem Mem.wf_drop (m : Mem) (unit : Nat) (gone : Nat → Bool) (h : m.wf) : (m.drop unit gone).wf := by
  obtain ⟨h1, h2, h3, h4⟩ := (Mem.wf_iff m).mp h
  exact Mem.wf_of (tabWf_filter _ h1) (tabWf_filter _ h2) (valid_filter _ h3) (tabWf_filter _ h4)

/-- A struck word keeps the canonical form. -/
theorem Mem.wf_upset (m : Mem) (unit a mask : Nat) (h : m.wf) : (m.upset unit a mask).wf := by
  obtain ⟨h1, h2, h3, h4⟩ := (Mem.wf_iff m).mp h
  unfold Mem.upset
  dsimp only
  split
  · exact Mem.wf_of h1 (tabWf_tabMod (a / 4 * 4) (fun e => e ^^^ fld mask 0 39) h2) h3
      (tabWf_tabMod (a / unit) (fun v => v ^^^ fld mask 39 3) h4)
  · exact Mem.wf_of h1 h2 h3 (tabWf_tabMod (a / unit) (fun v => v ^^^ fld mask 39 3) h4)

theorem tabWf_strays (l : List Nat) (key : Nat → Nat) (word : Nat → Nat) (t : Tab Nat) (h : tabWf 0 t = true) :
    tabWf 0 (l.foldl (fun t i => tabPut 0 t (key i) (word i)) t) = true := by
  induction l generalizing t with
  | nil => exact h
  | cons i l ih => exact ih _ (tabWf_tabPut _ _ h)

/-- A vote over the valid bits keeps the canonical form. -/
theorem Mem.wf_vote (m : Mem) (unit a n : Nat) (h : m.wf) : (m.vote unit a n).1.wf := by
  unfold Mem.vote
  dsimp only
  generalize m.votes.filter (fun v => decide (n ≠ 0 ∧ a / unit ≤ v.1 ∧ v.1 ≤ (a + n - 1) / unit)) = l
  induction l generalizing m with
  | nil => exact h
  | cons v t ih =>
    refine ih _ ?_
    obtain ⟨h1, h2, h3, h4⟩ := (Mem.wf_iff m).mp h
    dsimp only
    split
    · split
      · exact Mem.wf_of (tabWf_filter _ h1) (tabWf_filter _ h2) (valid_filter _ h3) (tabWf_tabErase _ h4)
      · exact Mem.wf_of h1 (tabWf_strays _ _ _ _ h2) (tabWf_ordInsert _ h3) (tabWf_tabErase _ h4)
    · exact Mem.wf_of h1 h2 h3 (tabWf_tabErase _ h4)

/-- The memories of the state after reset are in canonical form. -/
theorem reset_memories : State.reset.cd.hbm.wf ∧ State.reset.cd.sram.wf := by decide

end Sys2Proof.Machine
end

