-- ==== Sys2Proof/Laws/Requests.lean ====
section
/-! SUPPORT. Requests: what was put into a buffer reads back, a signed trailer survives its transport, and a command row
whose write passes the checks has the effect of its entry (`command_answered`). -/

namespace Sys2Proof.Machine
open Sys2Proof

theorem fld_lt (v lo n : Nat) : fld v lo n < 2 ^ n := Nat.mod_lt _ (Nat.two_pow_pos n)

/-- What was put into a buffer reads back. -/
theorem bytesAt_setBytes (a n x : Nat) : bytesAt (setBytes a 0 n x) 0 n = x % 2 ^ (8 * n) := by
  unfold setBytes bytesAt fld
  simp only [Nat.mul_zero, Nat.shiftRight_zero, Nat.shiftLeft_zero]
  have h1 : a % 2 ^ (8 * n) ≤ a := Nat.mod_le ..
  have h2 : a - a % 2 ^ (8 * n) = 2 ^ (8 * n) * (a / 2 ^ (8 * n)) := by
    have := Nat.div_add_mod a (2 ^ (8 * n)); omega
  rw [h2, Nat.mul_add_mod, Nat.mod_mod]

theorem bytesAt_zero (v n : Nat) : bytesAt v 0 n = v % 2 ^ (8 * n) := by
  unfold bytesAt fld; simp

theorem bytesAt_of_lt {v n : Nat} (h : v < 2 ^ (8 * n)) : bytesAt v 0 n = v := by
  rw [bytesAt_zero, Nat.mod_eq_of_lt h]

/-- The bytes after the first `n` of two pieces joined. -/
theorem bytesAt_joined {v n : Nat} (h : v < 2 ^ (8 * n)) (t m : Nat) : bytesAt (v + t <<< (8 * n)) n m = t % 2 ^ (8 * m) := by
  unfold bytesAt fld
  rw [Nat.shiftLeft_eq, Nat.shiftRight_eq_div_pow, Nat.add_mul_div_right _ _ (Nat.two_pow_pos _), Nat.div_eq_of_lt h,
    Nat.zero_add]

theorem bytesAt_joined_low {v n : Nat} (h : v < 2 ^ (8 * n)) (t : Nat) : bytesAt (v + t <<< (8 * n)) 0 n = v := by
  rw [bytesAt_zero, Nat.shiftLeft_eq, Nat.mul_comm, Nat.add_mul_mod_self_left, Nat.mod_eq_of_lt h]

theorem joined_lt {v n t m : Nat} (h : v < 2 ^ (8 * n)) (k : t < 2 ^ (8 * m)) : v + t <<< (8 * n) < 2 ^ (8 * (n + m)) := by
  rw [Nat.shiftLeft_eq, Nat.mul_add, Nat.pow_add]
  have : t * 2 ^ (8 * n) + 2 ^ (8 * n) ≤ 2 ^ (8 * m) * 2 ^ (8 * n) := by
    rw [← Nat.succ_mul]; exact Nat.mul_le_mul_right _ k
  rw [Nat.mul_comm (2 ^ (8 * n))]; omega

/-- Three fields packed one after another. -/
theorem packBytes_three (a b c x y z : Nat) :
    packBytes [(a, x), (b, y), (c, z)] =
      x % 2 ^ (8 * a) + (y % 2 ^ (8 * b) + (z % 2 ^ (8 * c)) <<< (8 * b)) <<< (8 * a) := by
  simp [packBytes]

theorem packBytes_three_lt (a b c x y z : Nat) : packBytes [(a, x), (b, y), (c, z)] < 2 ^ (8 * (a + (b + c))) := by
  rw [packBytes_three]
  have h (n v : Nat) : v % 2 ^ (8 * n) < 2 ^ (8 * n) := Nat.mod_lt _ (Nat.two_pow_pos _)
  exact joined_lt (h a x) (joined_lt (h b y) (h c z))

theorem bytesAt_joined_high {v n : Nat} (h : v < 2 ^ (8 * n)) (t o m : Nat) :
    bytesAt (v + t <<< (8 * n)) (n + o) m = bytesAt t o m := by
  unfold bytesAt fld
  rw [Nat.mul_add, Nat.shiftRight_add, Nat.shiftLeft_eq, Nat.shiftRight_eq_div_pow _ (8 * n),
    Nat.add_mul_div_right _ _ (Nat.two_pow_pos _), Nat.div_eq_of_lt h, Nat.zero_add]

theorem bytesAt_three (a b c x y z : Nat) :
    bytesAt (packBytes [(a, x), (b, y), (c, z)]) 0 a = x % 2 ^ (8 * a) ∧
    bytesAt (packBytes [(a, x), (b, y), (c, z)]) a b = y % 2 ^ (8 * b) ∧
    bytesAt (packBytes [(a, x), (b, y), (c, z)]) (a + b) c = z % 2 ^ (8 * c) := by
  rw [packBytes_three]
  have h (n v : Nat) : v % 2 ^ (8 * n) < 2 ^ (8 * n) := Nat.mod_lt _ (Nat.two_pow_pos _)
  refine ⟨bytesAt_joined_low (h a x) _, ?_, ?_⟩
  · exact (bytesAt_joined_high (h a x) _ 0 b).trans (bytesAt_joined_low (h b y) _)
  · rw [bytesAt_joined_high (h a x)]
    refine (bytesAt_joined_high (h b y) _ 0 c).trans ?_
    rw [bytesAt_zero, Nat.mod_mod]

theorem trailerBytes_lt (t : Trailer) : trailerBytes t < 2 ^ (8 * 104) := packBytes_three_lt 8 32 64 _ _ _

/-- A trailer reads back from its 104 bytes (R356). -/
theorem trailerOf_trailerBytes (t : Trailer) (h : t.wf = true) : trailerOf (trailerBytes t) = t := by
  unfold Trailer.wf Sys2Proof.fits at h
  simp only [Bool.and_eq_true, decide_eq_true_eq] at h
  obtain ⟨⟨h1, h2⟩, h3⟩ := h
  have k := bytesAt_three 8 32 64 t.challenge t.key t.sig
  unfold trailerOf trailerBytes
  rw [k.1, k.2.1, k.2.2, Nat.mod_eq_of_lt h1, Nat.mod_eq_of_lt h2, Nat.mod_eq_of_lt h3]

/-! ## A row's write is carried out -/

/-- What `Answered` allows, kept by the operations that finish a request. -/
theorem Answered.host {c t : State} (h : Answered c t) (x : HostPort) : Answered c { t with host := x } := by
  obtain ⟨a, b, o, f, g, rfl⟩ := h; exact ⟨x, b, o, f, g, rfl⟩

theorem Answered.net {c t : State} (h : Answered c t) (x : FieldNet) : Answered c { t with net := x } := by
  obtain ⟨a, b, o, f, g, rfl⟩ := h; exact ⟨a, x, o, f, g, rfl⟩

theorem Answered.out {c t : State} (h : Answered c t) (x : List Output) : Answered c { t with out := x } := by
  obtain ⟨a, b, o, f, g, rfl⟩ := h; exact ⟨a, b, x, f, g, rfl⟩

theorem Answered.refl (c : State) : Answered c c := ⟨c.host, c.net, c.out, c.free, c.power.challenge, rfl⟩

theorem Answered.emit {c t : State} (h : Answered c t) (o : Output) : Answered c (t.emit o) := by
  unfold State.emit; split
  · exact h
  · exact Answered.out h _

theorem Answered.fold {α : Type} {c : State} {f : State → α → State} (hf : ∀ t x, Answered c t → Answered c (f t x)) (l : List α) :
    ∀ t, Answered c t → Answered c (l.foldl f t) := by
  induction l with
  | nil => exact fun _ h => h
  | cons x l ih => exact fun t h => ih _ (hf t x h)

theorem Answered.sendAnswer {c t : State} (h : Answered c t) (k : Kept) : Answered c (t.sendAnswer k) := by
  unfold State.sendAnswer State.sendDap
  split
  · exact Answered.emit h _
  · exact Answered.fold (fun t x h => Answered.emit h _) _ _ h

theorem Answered.raise {c t : State} (h : Answered c t) (n : Nat) : Answered c (t.raise n) := by
  unfold State.raise State.sendVector
  extract_lets hp u ctl
  have hu : Answered c u := Answered.host h _
  clear_value u
  split
  · split
    · exact Answered.host hu _
    · exact Answered.emit hu _
  · exact hu

theorem Answered.newChallenge {c t : State} (h : Answered c t) : Answered c t.newChallenge := by
  obtain ⟨a, b, o, f, g, rfl⟩ := h; exact ⟨a, b, o, f + 1, _, rfl⟩

theorem Answered.accepted {c t : State} (h : Answered c t) (a : Ask) : Answered c (t.accepted a) := by
  unfold State.accepted; split
  · exact Answered.newChallenge h
  · exact h

theorem Answered.mailboxDone {c : State} {d : Done} (h : Answered c d.state) (r : Bool) : Answered c (State.mailboxDone d r) := by
  unfold State.mailboxDone
  exact Answered.emit (Answered.raise (Answered.host h _) _) _

theorem Answered.dapAnswer {c : State} {d : Done} (h : Answered c d.state) (p m t : Nat) (w : Bool) (e : Echo) :
    Answered c (State.dapAnswer d p m t w e) := by
  unfold State.dapAnswer State.keepAnswer
  exact Answered.net (Answered.sendAnswer h _) _

theorem doWrite_answered (s : State) (a : Ask) (h : s.writeStatus a = stOk) (e : (entryOf a.index a.sub).isSome) :
    Answered (s.commit a) (s.doWrite a).state := by
  unfold State.doWrite State.conclude
  rw [h]
  cases hk : entryOf a.index a.sub with
  | none => rw [hk] at e; cases e
  | some x => exact Answered.accepted (Answered.refl _) a

theorem restartAfter_other (s : State) (i st v : Nat) (straps : List Nat) (h : i ≠ 0xB072) : s.restartAfter i st v straps = s := by
  unfold State.restartAfter; exact if_neg (fun k => h k.1)

/-- The stream of a row's write, and what the module reads back from it. -/
theorem headReq_stream (h : ReqHead) (i k n v : Nat) (hw : h.wf = true) (hi : i < 65536) (hk : k < 256) (hv : v < 2 ^ (8 * n)) :
    let r := headReq h i k n v
    r.via = h.via ∧ r.signed = h.signed.isSome ∧ r.index = i ∧ r.sub = k ∧ r.len = n ∧ r.dataLen = streamLen n r.signed ∧
      bytesAt r.data 0 r.dataLen = r.data ∧ bytesAt r.data 0 n = v ∧
      (r.signed = true → some (trailerOf (bytesAt r.data n 104)) = h.signed) := by
  have hm : v % 2 ^ (8 * n) = v := Nat.mod_eq_of_lt hv
  unfold headReq
  rw [hm]
  cases hs : h.signed with
  | none => exact ⟨rfl, rfl, rfl, rfl, rfl, rfl, bytesAt_of_lt hv, bytesAt_of_lt hv, fun h => Bool.noConfusion h⟩
  | some t =>
    have ht : t.wf = true := by
      unfold ReqHead.wf at hw; rw [hs] at hw
      simpa using (Bool.and_eq_true _ _ ▸ hw).2
    refine ⟨rfl, rfl, rfl, rfl, rfl, rfl, bytesAt_of_lt (joined_lt hv (trailerBytes_lt t)), bytesAt_joined_low hv _, fun _ => ?_⟩
    show some (trailerOf (bytesAt (v + trailerBytes t <<< (8 * n)) n 104)) = some t
    have e1 : bytesAt (v + trailerBytes t <<< (8 * n)) n 104 = trailerBytes t := by
      have := bytesAt_joined_high hv (trailerBytes t) 0 104
      rw [Nat.add_zero] at this
      rw [this, bytesAt_of_lt (trailerBytes_lt t)]
    rw [e1, trailerOf_trailerBytes t ht]

theorem headAsk_stream (h : ReqHead) (i k n v : Nat) (hw : h.wf = true) (hi : i < 65536) (hk : k < 256) (hv : v < 2 ^ (8 * n)) :
    streamAsk h.via (headReq h i k n v).signed i k n (headReq h i k n v).data = headAsk h i k n v := by
  obtain ⟨h1, h2, h3, h4, h5, h6, h7, h8, h9⟩ := headReq_stream h i k n v hw hi hk hv
  unfold streamAsk headAsk
  rw [h8, Nat.mod_eq_of_lt hi, Nat.mod_eq_of_lt hk, ← h2]
  cases hs : (headReq h i k n v).signed with
  | false =>
    rw [hs] at h2
    cases hh : h.signed with
    | none => rfl
    | some t => rw [hh] at h2; cases h2
  | true =>
    rw [← h9 hs]; rfl

theorem count_net (s : State) (i k n : Nat) : (s.count i k n).net = s.net := rfl

theorem count_host (s : State) (i k n : Nat) : (s.count i k n).host = s.host := rfl

theorem dapWrite_answered (s : State) (h : ReqHead) (p m t i k n v : Nat) (straps : List Nat) (hv : h.via = .dap p m t)
    (a : s.admits h i k n v) (e : (entryOf i k).isSome) (hx : i ≠ 0xB072) :
    Answered ((s.arrival h i k n v).commit (headAsk h i k n v))
      (State.dapWrite { s with out := [] } p m t (headReq h i k n v) straps (dapFrames (headReq h i k n v).dataLen)) := by
  obtain ⟨hw, ⟨hi, hk, hn, hvl⟩, ⟨ht, ho⟩, hs⟩ := a
  obtain ⟨h1, h2, h3, h4, h5, h6, h7, h8, h9⟩ := headReq_stream h i k n v hw hi hk hvl
  have hask := headAsk_stream h i k n v hw hi hk hvl
  unfold State.takesFrom at ht
  unfold State.opens at ho
  rw [hv] at ht hask ho
  replace ho := of_decide_eq_true ho
  simp only [Bool.and_eq_true, Option.isNone_iff_eq_none] at ht
  obtain ⟨⟨_, hkept⟩, hopen⟩ := ht
  have harr : s.arrival h i k n v = State.count { s with out := [] } 0x1020 1 (dapFrames (headReq h i k n v).dataLen) := by
    unfold State.arrival; rw [hv]
  rw [harr] at hs ⊢
  unfold State.dapWrite
  have hk2 : State.keptFor { s with out := [] } p m t = none := hkept
  have ho2 : State.transferOf { s with out := [] } p m t = none := hopen
  dsimp only
  rw [hk2, ho2]
  dsimp only
  rw [ho, if_neg (by simp)]
  generalize State.count { s with out := [] } 0x1020 1 (dapFrames (headReq h i k n v).dataLen) = c at hs ⊢
  unfold reqTransfer Transfer.ask
  dsimp only
  rw [h3, h4, h5, h7, Nat.mod_eq_of_lt hi, Nat.mod_eq_of_lt hk]
  rw [hask, if_pos h6]
  have hd : Answered (c.commit (headAsk h i k n v)) (c.doWrite (headAsk h i k n v)).state :=
    doWrite_answered _ _ hs e
  rw [restartAfter_other _ _ _ _ _ (show (headAsk h i k n v).index ≠ _ from hx)]
  exact Answered.dapAnswer (d := ⟨_, _, _, _⟩) (Answered.out hd _) p m t true _

theorem mailboxSet_write (x : HostPort) (r : Req) (h1 : r.index < 65536) (h2 : r.sub < 256) (h3 : r.len < 65536) :
    let y := x.mailboxSet 2 r
    y.op = 2 ∧ y.sign = r.signed ∧ y.index = r.index ∧ y.sub = r.sub ∧ y.length = r.len ∧
      bytesAt y.area 0 (min y.length 65535) = bytesAt r.data 0 r.len ∧
      (r.signed = true → y.trailer = bytesAt r.data r.len 104) := by
  have hl : r.len % 2 ^ 32 = r.len := Nat.mod_eq_of_lt (Nat.lt_trans h3 (by decide))
  have hm : min r.len 65536 = r.len := Nat.min_eq_left (by omega)
  have hm2 : min r.len 65535 = r.len := Nat.min_eq_left (by omega)
  have hb : bytesAt (setBytes x.area 0 r.len (bytesAt r.data 0 r.len)) 0 r.len = bytesAt r.data 0 r.len := by
    rw [bytesAt_setBytes, bytesAt_zero, Nat.mod_mod]
  unfold HostPort.mailboxSet
  simp only [if_true, hl, hm, Nat.mod_eq_of_lt h1, Nat.mod_eq_of_lt h2]
  cases hs : r.signed with
  | false => simp [hm2, hb]
  | true => simp [hm2, hb]

theorem hostWrite_answered (s : State) (h : ReqHead) (i k n v : Nat) (straps : List Nat) (hv : h.via = .host)
    (a : s.admits h i k n v) (e : (entryOf i k).isSome) (hx : i ≠ 0xB072) :
    Answered ((s.arrival h i k n v).commit (headAsk h i k n v))
      (State.hostRequest { s with out := [] } 2 (headReq h i k n v) straps) := by
  obtain ⟨hw, ⟨hi, hk, hn, hvl⟩, ⟨ht, _⟩, hs⟩ := a
  obtain ⟨h1, h2, h3, h4, h5, h6, h7, h8, h9⟩ := headReq_stream h i k n v hw hi hk hvl
  unfold State.takesFrom at ht
  rw [hv] at ht
  have harr : s.arrival h i k n v = State.count { s with out := [], host := s.host.mailboxSet 2 (headReq h i k n v) } 0x1001 6 := by
    unfold State.arrival; rw [hv]
  rw [harr] at hs ⊢
  obtain ⟨m1, m2, m3, m4, m5, m6, m7⟩ := mailboxSet_write s.host (headReq h i k n v) (by rw [h3]; exact hi) (by rw [h4]; exact hk)
    (by rw [h5]; exact hn)
  unfold State.hostRequest
  rw [if_pos (show State.hostReaches { s with out := [] } = true from ht)]
  show Answered _ (State.mailboxGo { s with out := [], host := s.host.mailboxSet 2 (headReq h i k n v) } straps)
  unfold State.mailboxGo
  generalize hc : State.count { s with out := [], host := s.host.mailboxSet 2 (headReq h i k n v) } 0x1001 6 = c at hs ⊢
  have hch : c.host = s.host.mailboxSet 2 (headReq h i k n v) := by rw [← hc]; rfl
  have htr : (if (headReq h i k n v).signed then some (trailerOf (s.host.mailboxSet 2 (headReq h i k n v)).trailer) else none)
      = h.signed := by
    cases hsg : (headReq h i k n v).signed with
    | false =>
      rw [hsg] at h2
      cases hh : h.signed with
      | none => rfl
      | some t => rw [hh] at h2; cases h2
    | true => rw [m7 hsg, h5]; exact h9 hsg
  have hsrc : sourceFor .host (headReq h i k n v).signed i = sourceFor h.via h.signed.isSome i := by rw [h2, hv]
  dsimp only
  rw [hch, m1, m2, m3, m4, m6, m5, h3, h4, h5, h8, htr, hsrc]
  rw [if_neg (by decide), if_pos rfl]
  have hd : Answered (c.commit (headAsk h i k n v)) (c.doWrite (headAsk h i k n v)).state :=
    doWrite_answered _ _ hs e
  rw [restartAfter_other _ _ _ _ _ hx]
  exact Answered.mailboxDone hd false

/-- A command row whose write passes the checks of R16 has the effect of its entry, and beside it only the bookkeeping of an
answered request. -/
theorem command_answered (s : State) (h : ReqHead) (i k n v : Nat) (straps : List Nat)
    (a : s.admits h i k n v) (e : (entryOf i k).isSome) (hx : i ≠ 0xB072) :
    Answered ((s.arrival h i k n v).commit (headAsk h i k n v)) (State.command { s with out := [] } h i k n v straps) := by
  have hvia : (headReq h i k n v).via = h.via := by unfold headReq; cases h.signed <;> rfl
  unfold State.command State.requestWrite
  dsimp only
  rw [hvia]
  cases hv : h.via with
  | host => exact hostWrite_answered s h i k n v straps hv a e hx
  | dap p m t =>
    have ht := a.2.2.1.1
    unfold State.takesFrom at ht
    rw [hv] at ht
    simp only [Bool.and_eq_true] at ht
    dsimp only
    rw [if_pos (show State.answers { s with out := [] } = true from ht.1.1)]
    exact dapWrite_answered s h p m t i k n v straps hv a e hx

end Sys2Proof.Machine
end

