-- ==== Sys2Proof/Laws/State.lean ====
section
/-! SUPPORT. The small lemmas of `State`: for each named update and each field it does not write, that the field stays;
and what an accessor reads after the update of its table. All but the last are true by `rfl`. -/

namespace Sys2Proof.Machine

open Sys2Proof

variable (s : State)

/-- Reading a table with the default of the key read, after an update with the default of the key written. -/
theorem tabGet_tabPut_at (d : Nat → Nat) (t : Tab Nat) (i j v : Nat) :
    tabGet (d j) (tabPut (d i) t i v) j = if j = i then v else tabGet (d j) t j := by
  by_cases h : j = i
  · subst h; rw [tabGet_tabPut]
  · unfold tabPut
    split
    · rw [tabGet_tabErase]; simp only [if_neg h]
    · rw [tabGet_tabInsert]; simp only [if_neg h]

/-! ## `State.setRed` -/

@[simp] theorem State.setRed_pending (f : Red → Red) : (s.setRed f).pending = s.pending := rfl
@[simp] theorem State.setRed_out (f : Red → Red) : (s.setRed f).out = s.out := rfl
@[simp] theorem State.setRed_free (f : Red → Red) : (s.setRed f).free = s.free := rfl
@[simp] theorem State.setRed_mode (f : Red → Red) : (s.setRed f).mode = s.mode := rfl
@[simp] theorem State.setRed_causes (f : Red → Red) : (s.setRed f).causes = s.causes := rfl
@[simp] theorem State.setRed_notRunning (f : Red → Red) : (s.setRed f).notRunning = s.notRunning := rfl
@[simp] theorem State.setRed_frame (f : Red → Red) : (s.setRed f).frame = s.frame := rfl
@[simp] theorem State.setRed_intake (f : Red → Red) : (s.setRed f).intake = s.intake := rfl
@[simp] theorem State.setRed_lastTransition (f : Red → Red) : (s.setRed f).lastTransition = s.lastTransition := rfl
@[simp] theorem State.setRed_lastTrigger (f : Red → Red) : (s.setRed f).lastTrigger = s.lastTrigger := rfl
@[simp] theorem State.setRed_profile (f : Red → Red) : (s.setRed f).profile = s.profile := rfl
@[simp] theorem State.setRed_hold (f : Red → Red) : (s.setRed f).hold = s.hold := rfl
@[simp] theorem State.setRed_od (f : Red → Red) : (s.setRed f).od = s.od := rfl
@[simp] theorem State.setRed_eff (f : Red → Red) : (s.setRed f).eff = s.eff := rfl
@[simp] theorem State.setRed_digest (f : Red → Red) : (s.setRed f).digest = s.digest := rfl
@[simp] theorem State.setRed_digestDue (f : Red → Red) : (s.setRed f).digestDue = s.digestDue := rfl
@[simp] theorem State.setRed_generation (f : Red → Red) : (s.setRed f).generation = s.generation := rfl
@[simp] theorem State.setRed_mismatch (f : Red → Red) : (s.setRed f).mismatch = s.mismatch := rfl
@[simp] theorem State.setRed_description (f : Red → Red) : (s.setRed f).description = s.description := rfl
@[simp] theorem State.setRed_peerPubs (f : Red → Red) : (s.setRed f).peerPubs = s.peerPubs := rfl
@[simp] theorem State.setRed_aggregates (f : Red → Red) : (s.setRed f).aggregates = s.aggregates := rfl
@[simp] theorem State.setRed_log (f : Red → Red) : (s.setRed f).log = s.log := rfl
@[simp] theorem State.setRed_nvr (f : Red → Red) : (s.setRed f).nvr = s.nvr := rfl
@[simp] theorem State.setRed_power (f : Red → Red) : (s.setRed f).power = s.power := rfl
@[simp] theorem State.setRed_clk (f : Red → Red) : (s.setRed f).clk = s.clk := rfl
@[simp] theorem State.setRed_host (f : Red → Red) : (s.setRed f).host = s.host := rfl
@[simp] theorem State.setRed_net (f : Red → Red) : (s.setRed f).net = s.net := rfl
@[simp] theorem State.setRed_gw (f : Red → Red) : (s.setRed f).gw = s.gw := rfl
@[simp] theorem State.setRed_ce (f : Red → Red) : (s.setRed f).ce = s.ce := rfl
@[simp] theorem State.setRed_te (f : Red → Red) : (s.setRed f).te = s.te := rfl
@[simp] theorem State.setRed_cd (f : Red → Red) : (s.setRed f).cd = s.cd := rfl
@[simp] theorem State.setRed_bm (f : Red → Red) : (s.setRed f).bm = s.bm := rfl
@[simp] theorem State.setRed_ferry (f : Red → Red) : (s.setRed f).ferry = s.ferry := rfl
@[simp] theorem State.setRed_cells (f : Red → Red) : (s.setRed f).cells = s.cells := rfl
@[simp] theorem State.setRed_se (f : Red → Red) : (s.setRed f).se = s.se := rfl
@[simp] theorem State.setRed_mpc (f : Red → Red) : (s.setRed f).mpc = s.mpc := rfl
@[simp] theorem State.setRed_red (f : Red → Red) : (s.setRed f).red = f s.red := rfl

/-! ## `State.setNode` -/

@[simp] theorem State.setNode_pending (a : Nat) (f : Node → Node) : (s.setNode a f).pending = s.pending := rfl
@[simp] theorem State.setNode_out (a : Nat) (f : Node → Node) : (s.setNode a f).out = s.out := rfl
@[simp] theorem State.setNode_free (a : Nat) (f : Node → Node) : (s.setNode a f).free = s.free := rfl
@[simp] theorem State.setNode_mode (a : Nat) (f : Node → Node) : (s.setNode a f).mode = s.mode := rfl
@[simp] theorem State.setNode_causes (a : Nat) (f : Node → Node) : (s.setNode a f).causes = s.causes := rfl
@[simp] theorem State.setNode_notRunning (a : Nat) (f : Node → Node) : (s.setNode a f).notRunning = s.notRunning := rfl
@[simp] theorem State.setNode_frame (a : Nat) (f : Node → Node) : (s.setNode a f).frame = s.frame := rfl
@[simp] theorem State.setNode_intake (a : Nat) (f : Node → Node) : (s.setNode a f).intake = s.intake := rfl
@[simp] theorem State.setNode_lastTransition (a : Nat) (f : Node → Node) :
    (s.setNode a f).lastTransition = s.lastTransition := rfl
@[simp] theorem State.setNode_lastTrigger (a : Nat) (f : Node → Node) :
    (s.setNode a f).lastTrigger = s.lastTrigger := rfl
@[simp] theorem State.setNode_profile (a : Nat) (f : Node → Node) : (s.setNode a f).profile = s.profile := rfl
@[simp] theorem State.setNode_hold (a : Nat) (f : Node → Node) : (s.setNode a f).hold = s.hold := rfl
@[simp] theorem State.setNode_od (a : Nat) (f : Node → Node) : (s.setNode a f).od = s.od := rfl
@[simp] theorem State.setNode_eff (a : Nat) (f : Node → Node) : (s.setNode a f).eff = s.eff := rfl
@[simp] theorem State.setNode_digest (a : Nat) (f : Node → Node) : (s.setNode a f).digest = s.digest := rfl
@[simp] theorem State.setNode_digestDue (a : Nat) (f : Node → Node) : (s.setNode a f).digestDue = s.digestDue := rfl
@[simp] theorem State.setNode_generation (a : Nat) (f : Node → Node) : (s.setNode a f).generation = s.generation := rfl
@[simp] theorem State.setNode_mismatch (a : Nat) (f : Node → Node) : (s.setNode a f).mismatch = s.mismatch := rfl
@[simp] theorem State.setNode_description (a : Nat) (f : Node → Node) :
    (s.setNode a f).description = s.description := rfl
@[simp] theorem State.setNode_peerPubs (a : Nat) (f : Node → Node) : (s.setNode a f).peerPubs = s.peerPubs := rfl
@[simp] theorem State.setNode_aggregates (a : Nat) (f : Node → Node) : (s.setNode a f).aggregates = s.aggregates := rfl
@[simp] theorem State.setNode_log (a : Nat) (f : Node → Node) : (s.setNode a f).log = s.log := rfl
@[simp] theorem State.setNode_nvr (a : Nat) (f : Node → Node) : (s.setNode a f).nvr = s.nvr := rfl
@[simp] theorem State.setNode_power (a : Nat) (f : Node → Node) : (s.setNode a f).power = s.power := rfl
@[simp] theorem State.setNode_clk (a : Nat) (f : Node → Node) : (s.setNode a f).clk = s.clk := rfl
@[simp] theorem State.setNode_host (a : Nat) (f : Node → Node) : (s.setNode a f).host = s.host := rfl
@[simp] theorem State.setNode_net (a : Nat) (f : Node → Node) : (s.setNode a f).net = s.net := rfl
@[simp] theorem State.setNode_ce (a : Nat) (f : Node → Node) : (s.setNode a f).ce = s.ce := rfl
@[simp] theorem State.setNode_te (a : Nat) (f : Node → Node) : (s.setNode a f).te = s.te := rfl
@[simp] theorem State.setNode_cd (a : Nat) (f : Node → Node) : (s.setNode a f).cd = s.cd := rfl
@[simp] theorem State.setNode_bm (a : Nat) (f : Node → Node) : (s.setNode a f).bm = s.bm := rfl
@[simp] theorem State.setNode_ferry (a : Nat) (f : Node → Node) : (s.setNode a f).ferry = s.ferry := rfl
@[simp] theorem State.setNode_cells (a : Nat) (f : Node → Node) : (s.setNode a f).cells = s.cells := rfl
@[simp] theorem State.setNode_se (a : Nat) (f : Node → Node) : (s.setNode a f).se = s.se := rfl
@[simp] theorem State.setNode_mpc (a : Nat) (f : Node → Node) : (s.setNode a f).mpc = s.mpc := rfl
@[simp] theorem State.setNode_red (a : Nat) (f : Node → Node) : (s.setNode a f).red = s.red := rfl
@[simp] theorem State.setNode_node (a : Nat) (f : Node → Node) (j : Nat) :
    (s.setNode a f).node j = if j = a then f (s.node a) else s.node j :=
  tabGet_tabMod ..

/-! ## `State.setCore` -/

@[simp] theorem State.setCore_pending (c : Nat) (f : Core → Core) : (s.setCore c f).pending = s.pending := rfl
@[simp] theorem State.setCore_out (c : Nat) (f : Core → Core) : (s.setCore c f).out = s.out := rfl
@[simp] theorem State.setCore_free (c : Nat) (f : Core → Core) : (s.setCore c f).free = s.free := rfl
@[simp] theorem State.setCore_mode (c : Nat) (f : Core → Core) : (s.setCore c f).mode = s.mode := rfl
@[simp] theorem State.setCore_causes (c : Nat) (f : Core → Core) : (s.setCore c f).causes = s.causes := rfl
@[simp] theorem State.setCore_notRunning (c : Nat) (f : Core → Core) : (s.setCore c f).notRunning = s.notRunning := rfl
@[simp] theorem State.setCore_frame (c : Nat) (f : Core → Core) : (s.setCore c f).frame = s.frame := rfl
@[simp] theorem State.setCore_intake (c : Nat) (f : Core → Core) : (s.setCore c f).intake = s.intake := rfl
@[simp] theorem State.setCore_lastTransition (c : Nat) (f : Core → Core) :
    (s.setCore c f).lastTransition = s.lastTransition := rfl
@[simp] theorem State.setCore_lastTrigger (c : Nat) (f : Core → Core) :
    (s.setCore c f).lastTrigger = s.lastTrigger := rfl
@[simp] theorem State.setCore_profile (c : Nat) (f : Core → Core) : (s.setCore c f).profile = s.profile := rfl
@[simp] theorem State.setCore_hold (c : Nat) (f : Core → Core) : (s.setCore c f).hold = s.hold := rfl
@[simp] theorem State.setCore_od (c : Nat) (f : Core → Core) : (s.setCore c f).od = s.od := rfl
@[simp] theorem State.setCore_eff (c : Nat) (f : Core → Core) : (s.setCore c f).eff = s.eff := rfl
@[simp] theorem State.setCore_digest (c : Nat) (f : Core → Core) : (s.setCore c f).digest = s.digest := rfl
@[simp] theorem State.setCore_digestDue (c : Nat) (f : Core → Core) : (s.setCore c f).digestDue = s.digestDue := rfl
@[simp] theorem State.setCore_generation (c : Nat) (f : Core → Core) : (s.setCore c f).generation = s.generation := rfl
@[simp] theorem State.setCore_mismatch (c : Nat) (f : Core → Core) : (s.setCore c f).mismatch = s.mismatch := rfl
@[simp] theorem State.setCore_description (c : Nat) (f : Core → Core) :
    (s.setCore c f).description = s.description := rfl
@[simp] theorem State.setCore_peerPubs (c : Nat) (f : Core → Core) : (s.setCore c f).peerPubs = s.peerPubs := rfl
@[simp] theorem State.setCore_aggregates (c : Nat) (f : Core → Core) : (s.setCore c f).aggregates = s.aggregates := rfl
@[simp] theorem State.setCore_log (c : Nat) (f : Core → Core) : (s.setCore c f).log = s.log := rfl
@[simp] theorem State.setCore_nvr (c : Nat) (f : Core → Core) : (s.setCore c f).nvr = s.nvr := rfl
@[simp] theorem State.setCore_power (c : Nat) (f : Core → Core) : (s.setCore c f).power = s.power := rfl
@[simp] theorem State.setCore_clk (c : Nat) (f : Core → Core) : (s.setCore c f).clk = s.clk := rfl
@[simp] theorem State.setCore_host (c : Nat) (f : Core → Core) : (s.setCore c f).host = s.host := rfl
@[simp] theorem State.setCore_net (c : Nat) (f : Core → Core) : (s.setCore c f).net = s.net := rfl
@[simp] theorem State.setCore_gw (c : Nat) (f : Core → Core) : (s.setCore c f).gw = s.gw := rfl
@[simp] theorem State.setCore_ce (c : Nat) (f : Core → Core) : (s.setCore c f).ce = s.ce := rfl
@[simp] theorem State.setCore_cd (c : Nat) (f : Core → Core) : (s.setCore c f).cd = s.cd := rfl
@[simp] theorem State.setCore_bm (c : Nat) (f : Core → Core) : (s.setCore c f).bm = s.bm := rfl
@[simp] theorem State.setCore_ferry (c : Nat) (f : Core → Core) : (s.setCore c f).ferry = s.ferry := rfl
@[simp] theorem State.setCore_cells (c : Nat) (f : Core → Core) : (s.setCore c f).cells = s.cells := rfl
@[simp] theorem State.setCore_se (c : Nat) (f : Core → Core) : (s.setCore c f).se = s.se := rfl
@[simp] theorem State.setCore_mpc (c : Nat) (f : Core → Core) : (s.setCore c f).mpc = s.mpc := rfl
@[simp] theorem State.setCore_red (c : Nat) (f : Core → Core) : (s.setCore c f).red = s.red := rfl
@[simp] theorem State.setCore_core (c : Nat) (f : Core → Core) (j : Nat) :
    (s.setCore c f).core j = if j = c then f (s.core c) else s.core j :=
  tabGet_tabMod ..

/-! ## `State.setStream` -/

@[simp] theorem State.setStream_pending (n : Nat) (f : Stream → Stream) : (s.setStream n f).pending = s.pending := rfl
@[simp] theorem State.setStream_out (n : Nat) (f : Stream → Stream) : (s.setStream n f).out = s.out := rfl
@[simp] theorem State.setStream_free (n : Nat) (f : Stream → Stream) : (s.setStream n f).free = s.free := rfl
@[simp] theorem State.setStream_mode (n : Nat) (f : Stream → Stream) : (s.setStream n f).mode = s.mode := rfl
@[simp] theorem State.setStream_causes (n : Nat) (f : Stream → Stream) : (s.setStream n f).causes = s.causes := rfl
@[simp] theorem State.setStream_notRunning (n : Nat) (f : Stream → Stream) :
    (s.setStream n f).notRunning = s.notRunning := rfl
@[simp] theorem State.setStream_frame (n : Nat) (f : Stream → Stream) : (s.setStream n f).frame = s.frame := rfl
@[simp] theorem State.setStream_intake (n : Nat) (f : Stream → Stream) : (s.setStream n f).intake = s.intake := rfl
@[simp] theorem State.setStream_lastTransition (n : Nat) (f : Stream → Stream) :
    (s.setStream n f).lastTransition = s.lastTransition := rfl
@[simp] theorem State.setStream_lastTrigger (n : Nat) (f : Stream → Stream) :
    (s.setStream n f).lastTrigger = s.lastTrigger := rfl
@[simp] theorem State.setStream_profile (n : Nat) (f : Stream → Stream) : (s.setStream n f).profile = s.profile := rfl
@[simp] theorem State.setStream_hold (n : Nat) (f : Stream → Stream) : (s.setStream n f).hold = s.hold := rfl
@[simp] theorem State.setStream_od (n : Nat) (f : Stream → Stream) : (s.setStream n f).od = s.od := rfl
@[simp] theorem State.setStream_eff (n : Nat) (f : Stream → Stream) : (s.setStream n f).eff = s.eff := rfl
@[simp] theorem State.setStream_digest (n : Nat) (f : Stream → Stream) : (s.setStream n f).digest = s.digest := rfl
@[simp] theorem State.setStream_digestDue (n : Nat) (f : Stream → Stream) :
    (s.setStream n f).digestDue = s.digestDue := rfl
@[simp] theorem State.setStream_generation (n : Nat) (f : Stream → Stream) :
    (s.setStream n f).generation = s.generation := rfl
@[simp] theorem State.setStream_mismatch (n : Nat) (f : Stream → Stream) :
    (s.setStream n f).mismatch = s.mismatch := rfl
@[simp] theorem State.setStream_description (n : Nat) (f : Stream → Stream) :
    (s.setStream n f).description = s.description := rfl
@[simp] theorem State.setStream_peerPubs (n : Nat) (f : Stream → Stream) :
    (s.setStream n f).peerPubs = s.peerPubs := rfl
@[simp] theorem State.setStream_aggregates (n : Nat) (f : Stream → Stream) :
    (s.setStream n f).aggregates = s.aggregates := rfl
@[simp] theorem State.setStream_log (n : Nat) (f : Stream → Stream) : (s.setStream n f).log = s.log := rfl
@[simp] theorem State.setStream_nvr (n : Nat) (f : Stream → Stream) : (s.setStream n f).nvr = s.nvr := rfl
@[simp] theorem State.setStream_power (n : Nat) (f : Stream → Stream) : (s.setStream n f).power = s.power := rfl
@[simp] theorem State.setStream_clk (n : Nat) (f : Stream → Stream) : (s.setStream n f).clk = s.clk := rfl
@[simp] theorem State.setStream_host (n : Nat) (f : Stream → Stream) : (s.setStream n f).host = s.host := rfl
@[simp] theorem State.setStream_net (n : Nat) (f : Stream → Stream) : (s.setStream n f).net = s.net := rfl
@[simp] theorem State.setStream_gw (n : Nat) (f : Stream → Stream) : (s.setStream n f).gw = s.gw := rfl
@[simp] theorem State.setStream_ce (n : Nat) (f : Stream → Stream) : (s.setStream n f).ce = s.ce := rfl
@[simp] theorem State.setStream_cd (n : Nat) (f : Stream → Stream) : (s.setStream n f).cd = s.cd := rfl
@[simp] theorem State.setStream_bm (n : Nat) (f : Stream → Stream) : (s.setStream n f).bm = s.bm := rfl
@[simp] theorem State.setStream_ferry (n : Nat) (f : Stream → Stream) : (s.setStream n f).ferry = s.ferry := rfl
@[simp] theorem State.setStream_cells (n : Nat) (f : Stream → Stream) : (s.setStream n f).cells = s.cells := rfl
@[simp] theorem State.setStream_se (n : Nat) (f : Stream → Stream) : (s.setStream n f).se = s.se := rfl
@[simp] theorem State.setStream_mpc (n : Nat) (f : Stream → Stream) : (s.setStream n f).mpc = s.mpc := rfl
@[simp] theorem State.setStream_red (n : Nat) (f : Stream → Stream) : (s.setStream n f).red = s.red := rfl
@[simp] theorem State.setStream_stream (n : Nat) (f : Stream → Stream) (j : Nat) :
    (s.setStream n f).stream j = if j = n then f (s.stream n) else s.stream j :=
  tabGet_tabMod ..

/-! ## `State.setModel` -/

@[simp] theorem State.setModel_pending (k : Nat) (f : Model → Model) : (s.setModel k f).pending = s.pending := rfl
@[simp] theorem State.setModel_out (k : Nat) (f : Model → Model) : (s.setModel k f).out = s.out := rfl
@[simp] theorem State.setModel_free (k : Nat) (f : Model → Model) : (s.setModel k f).free = s.free := rfl
@[simp] theorem State.setModel_mode (k : Nat) (f : Model → Model) : (s.setModel k f).mode = s.mode := rfl
@[simp] theorem State.setModel_causes (k : Nat) (f : Model → Model) : (s.setModel k f).causes = s.causes := rfl
@[simp] theorem State.setModel_notRunning (k : Nat) (f : Model → Model) :
    (s.setModel k f).notRunning = s.notRunning := rfl
@[simp] theorem State.setModel_frame (k : Nat) (f : Model → Model) : (s.setModel k f).frame = s.frame := rfl
@[simp] theorem State.setModel_intake (k : Nat) (f : Model → Model) : (s.setModel k f).intake = s.intake := rfl
@[simp] theorem State.setModel_lastTransition (k : Nat) (f : Model → Model) :
    (s.setModel k f).lastTransition = s.lastTransition := rfl
@[simp] theorem State.setModel_lastTrigger (k : Nat) (f : Model → Model) :
    (s.setModel k f).lastTrigger = s.lastTrigger := rfl
@[simp] theorem State.setModel_profile (k : Nat) (f : Model → Model) : (s.setModel k f).profile = s.profile := rfl
@[simp] theorem State.setModel_hold (k : Nat) (f : Model → Model) : (s.setModel k f).hold = s.hold := rfl
@[simp] theorem State.setModel_od (k : Nat) (f : Model → Model) : (s.setModel k f).od = s.od := rfl
@[simp] theorem State.setModel_eff (k : Nat) (f : Model → Model) : (s.setModel k f).eff = s.eff := rfl
@[simp] theorem State.setModel_digest (k : Nat) (f : Model → Model) : (s.setModel k f).digest = s.digest := rfl
@[simp] theorem State.setModel_digestDue (k : Nat) (f : Model → Model) : (s.setModel k f).digestDue = s.digestDue := rfl
@[simp] theorem State.setModel_generation (k : Nat) (f : Model → Model) :
    (s.setModel k f).generation = s.generation := rfl
@[simp] theorem State.setModel_mismatch (k : Nat) (f : Model → Model) : (s.setModel k f).mismatch = s.mismatch := rfl
@[simp] theorem State.setModel_description (k : Nat) (f : Model → Model) :
    (s.setModel k f).description = s.description := rfl
@[simp] theorem State.setModel_peerPubs (k : Nat) (f : Model → Model) : (s.setModel k f).peerPubs = s.peerPubs := rfl
@[simp] theorem State.setModel_aggregates (k : Nat) (f : Model → Model) :
    (s.setModel k f).aggregates = s.aggregates := rfl
@[simp] theorem State.setModel_log (k : Nat) (f : Model → Model) : (s.setModel k f).log = s.log := rfl
@[simp] theorem State.setModel_nvr (k : Nat) (f : Model → Model) : (s.setModel k f).nvr = s.nvr := rfl
@[simp] theorem State.setModel_power (k : Nat) (f : Model → Model) : (s.setModel k f).power = s.power := rfl
@[simp] theorem State.setModel_clk (k : Nat) (f : Model → Model) : (s.setModel k f).clk = s.clk := rfl
@[simp] theorem State.setModel_host (k : Nat) (f : Model → Model) : (s.setModel k f).host = s.host := rfl
@[simp] theorem State.setModel_net (k : Nat) (f : Model → Model) : (s.setModel k f).net = s.net := rfl
@[simp] theorem State.setModel_gw (k : Nat) (f : Model → Model) : (s.setModel k f).gw = s.gw := rfl
@[simp] theorem State.setModel_ce (k : Nat) (f : Model → Model) : (s.setModel k f).ce = s.ce := rfl
@[simp] theorem State.setModel_cd (k : Nat) (f : Model → Model) : (s.setModel k f).cd = s.cd := rfl
@[simp] theorem State.setModel_bm (k : Nat) (f : Model → Model) : (s.setModel k f).bm = s.bm := rfl
@[simp] theorem State.setModel_ferry (k : Nat) (f : Model → Model) : (s.setModel k f).ferry = s.ferry := rfl
@[simp] theorem State.setModel_cells (k : Nat) (f : Model → Model) : (s.setModel k f).cells = s.cells := rfl
@[simp] theorem State.setModel_se (k : Nat) (f : Model → Model) : (s.setModel k f).se = s.se := rfl
@[simp] theorem State.setModel_mpc (k : Nat) (f : Model → Model) : (s.setModel k f).mpc = s.mpc := rfl
@[simp] theorem State.setModel_red (k : Nat) (f : Model → Model) : (s.setModel k f).red = s.red := rfl
@[simp] theorem State.setModel_model (k : Nat) (f : Model → Model) (j : Nat) :
    (s.setModel k f).model j = if j = k then f (s.model k) else s.model j :=
  tabGet_tabMod ..

/-! ## `State.setJob` -/

@[simp] theorem State.setJob_pending (i : Nat) (f : Job → Job) : (s.setJob i f).pending = s.pending := rfl
@[simp] theorem State.setJob_out (i : Nat) (f : Job → Job) : (s.setJob i f).out = s.out := rfl
@[simp] theorem State.setJob_free (i : Nat) (f : Job → Job) : (s.setJob i f).free = s.free := rfl
@[simp] theorem State.setJob_mode (i : Nat) (f : Job → Job) : (s.setJob i f).mode = s.mode := rfl
@[simp] theorem State.setJob_causes (i : Nat) (f : Job → Job) : (s.setJob i f).causes = s.causes := rfl
@[simp] theorem State.setJob_notRunning (i : Nat) (f : Job → Job) : (s.setJob i f).notRunning = s.notRunning := rfl
@[simp] theorem State.setJob_frame (i : Nat) (f : Job → Job) : (s.setJob i f).frame = s.frame := rfl
@[simp] theorem State.setJob_intake (i : Nat) (f : Job → Job) : (s.setJob i f).intake = s.intake := rfl
@[simp] theorem State.setJob_lastTransition (i : Nat) (f : Job → Job) :
    (s.setJob i f).lastTransition = s.lastTransition := rfl
@[simp] theorem State.setJob_lastTrigger (i : Nat) (f : Job → Job) : (s.setJob i f).lastTrigger = s.lastTrigger := rfl
@[simp] theorem State.setJob_profile (i : Nat) (f : Job → Job) : (s.setJob i f).profile = s.profile := rfl
@[simp] theorem State.setJob_hold (i : Nat) (f : Job → Job) : (s.setJob i f).hold = s.hold := rfl
@[simp] theorem State.setJob_od (i : Nat) (f : Job → Job) : (s.setJob i f).od = s.od := rfl
@[simp] theorem State.setJob_eff (i : Nat) (f : Job → Job) : (s.setJob i f).eff = s.eff := rfl
@[simp] theorem State.setJob_digest (i : Nat) (f : Job → Job) : (s.setJob i f).digest = s.digest := rfl
@[simp] theorem State.setJob_digestDue (i : Nat) (f : Job → Job) : (s.setJob i f).digestDue = s.digestDue := rfl
@[simp] theorem State.setJob_generation (i : Nat) (f : Job → Job) : (s.setJob i f).generation = s.generation := rfl
@[simp] theorem State.setJob_mismatch (i : Nat) (f : Job → Job) : (s.setJob i f).mismatch = s.mismatch := rfl
@[simp] theorem State.setJob_description (i : Nat) (f : Job → Job) : (s.setJob i f).description = s.description := rfl
@[simp] theorem State.setJob_peerPubs (i : Nat) (f : Job → Job) : (s.setJob i f).peerPubs = s.peerPubs := rfl
@[simp] theorem State.setJob_aggregates (i : Nat) (f : Job → Job) : (s.setJob i f).aggregates = s.aggregates := rfl
@[simp] theorem State.setJob_log (i : Nat) (f : Job → Job) : (s.setJob i f).log = s.log := rfl
@[simp] theorem State.setJob_nvr (i : Nat) (f : Job → Job) : (s.setJob i f).nvr = s.nvr := rfl
@[simp] theorem State.setJob_power (i : Nat) (f : Job → Job) : (s.setJob i f).power = s.power := rfl
@[simp] theorem State.setJob_clk (i : Nat) (f : Job → Job) : (s.setJob i f).clk = s.clk := rfl
@[simp] theorem State.setJob_host (i : Nat) (f : Job → Job) : (s.setJob i f).host = s.host := rfl
@[simp] theorem State.setJob_net (i : Nat) (f : Job → Job) : (s.setJob i f).net = s.net := rfl
@[simp] theorem State.setJob_gw (i : Nat) (f : Job → Job) : (s.setJob i f).gw = s.gw := rfl
@[simp] theorem State.setJob_ce (i : Nat) (f : Job → Job) : (s.setJob i f).ce = s.ce := rfl
@[simp] theorem State.setJob_cd (i : Nat) (f : Job → Job) : (s.setJob i f).cd = s.cd := rfl
@[simp] theorem State.setJob_bm (i : Nat) (f : Job → Job) : (s.setJob i f).bm = s.bm := rfl
@[simp] theorem State.setJob_ferry (i : Nat) (f : Job → Job) : (s.setJob i f).ferry = s.ferry := rfl
@[simp] theorem State.setJob_cells (i : Nat) (f : Job → Job) : (s.setJob i f).cells = s.cells := rfl
@[simp] theorem State.setJob_se (i : Nat) (f : Job → Job) : (s.setJob i f).se = s.se := rfl
@[simp] theorem State.setJob_mpc (i : Nat) (f : Job → Job) : (s.setJob i f).mpc = s.mpc := rfl
@[simp] theorem State.setJob_red (i : Nat) (f : Job → Job) : (s.setJob i f).red = s.red := rfl

/-! ## `State.setLanding` -/

@[simp] theorem State.setLanding_pending (l : Nat) (f : Landing → Landing) :
    (s.setLanding l f).pending = s.pending := rfl
@[simp] theorem State.setLanding_out (l : Nat) (f : Landing → Landing) : (s.setLanding l f).out = s.out := rfl
@[simp] theorem State.setLanding_free (l : Nat) (f : Landing → Landing) : (s.setLanding l f).free = s.free := rfl
@[simp] theorem State.setLanding_mode (l : Nat) (f : Landing → Landing) : (s.setLanding l f).mode = s.mode := rfl
@[simp] theorem State.setLanding_causes (l : Nat) (f : Landing → Landing) : (s.setLanding l f).causes = s.causes := rfl
@[simp] theorem State.setLanding_notRunning (l : Nat) (f : Landing → Landing) :
    (s.setLanding l f).notRunning = s.notRunning := rfl
@[simp] theorem State.setLanding_frame (l : Nat) (f : Landing → Landing) : (s.setLanding l f).frame = s.frame := rfl
@[simp] theorem State.setLanding_intake (l : Nat) (f : Landing → Landing) : (s.setLanding l f).intake = s.intake := rfl
@[simp] theorem State.setLanding_lastTransition (l : Nat) (f : Landing → Landing) :
    (s.setLanding l f).lastTransition = s.lastTransition := rfl
@[simp] theorem State.setLanding_lastTrigger (l : Nat) (f : Landing → Landing) :
    (s.setLanding l f).lastTrigger = s.lastTrigger := rfl
@[simp] theorem State.setLanding_profile (l : Nat) (f : Landing → Landing) :
    (s.setLanding l f).profile = s.profile := rfl
@[simp] theorem State.setLanding_hold (l : Nat) (f : Landing → Landing) : (s.setLanding l f).hold = s.hold := rfl
@[simp] theorem State.setLanding_od (l : Nat) (f : Landing → Landing) : (s.setLanding l f).od = s.od := rfl
@[simp] theorem State.setLanding_eff (l : Nat) (f : Landing → Landing) : (s.setLanding l f).eff = s.eff := rfl
@[simp] theorem State.setLanding_digest (l : Nat) (f : Landing → Landing) : (s.setLanding l f).digest = s.digest := rfl
@[simp] theorem State.setLanding_digestDue (l : Nat) (f : Landing → Landing) :
    (s.setLanding l f).digestDue = s.digestDue := rfl
@[simp] theorem State.setLanding_generation (l : Nat) (f : Landing → Landing) :
    (s.setLanding l f).generation = s.generation := rfl
@[simp] theorem State.setLanding_mismatch (l : Nat) (f : Landing → Landing) :
    (s.setLanding l f).mismatch = s.mismatch := rfl
@[simp] theorem State.setLanding_description (l : Nat) (f : Landing → Landing) :
    (s.setLanding l f).description = s.description := rfl
@[simp] theorem State.setLanding_peerPubs (l : Nat) (f : Landing → Landing) :
    (s.setLanding l f).peerPubs = s.peerPubs := rfl
@[simp] theorem State.setLanding_aggregates (l : Nat) (f : Landing → Landing) :
    (s.setLanding l f).aggregates = s.aggregates := rfl
@[simp] theorem State.setLanding_log (l : Nat) (f : Landing → Landing) : (s.setLanding l f).log = s.log := rfl
@[simp] theorem State.setLanding_nvr (l : Nat) (f : Landing → Landing) : (s.setLanding l f).nvr = s.nvr := rfl
@[simp] theorem State.setLanding_power (l : Nat) (f : Landing → Landing) : (s.setLanding l f).power = s.power := rfl
@[simp] theorem State.setLanding_clk (l : Nat) (f : Landing → Landing) : (s.setLanding l f).clk = s.clk := rfl
@[simp] theorem State.setLanding_host (l : Nat) (f : Landing → Landing) : (s.setLanding l f).host = s.host := rfl
@[simp] theorem State.setLanding_net (l : Nat) (f : Landing → Landing) : (s.setLanding l f).net = s.net := rfl
@[simp] theorem State.setLanding_gw (l : Nat) (f : Landing → Landing) : (s.setLanding l f).gw = s.gw := rfl
@[simp] theorem State.setLanding_ce (l : Nat) (f : Landing → Landing) : (s.setLanding l f).ce = s.ce := rfl
@[simp] theorem State.setLanding_te (l : Nat) (f : Landing → Landing) : (s.setLanding l f).te = s.te := rfl
@[simp] theorem State.setLanding_cd (l : Nat) (f : Landing → Landing) : (s.setLanding l f).cd = s.cd := rfl
@[simp] theorem State.setLanding_bm (l : Nat) (f : Landing → Landing) : (s.setLanding l f).bm = s.bm := rfl
@[simp] theorem State.setLanding_cells (l : Nat) (f : Landing → Landing) : (s.setLanding l f).cells = s.cells := rfl
@[simp] theorem State.setLanding_se (l : Nat) (f : Landing → Landing) : (s.setLanding l f).se = s.se := rfl
@[simp] theorem State.setLanding_mpc (l : Nat) (f : Landing → Landing) : (s.setLanding l f).mpc = s.mpc := rfl
@[simp] theorem State.setLanding_red (l : Nat) (f : Landing → Landing) : (s.setLanding l f).red = s.red := rfl
@[simp] theorem State.setLanding_landing (l : Nat) (f : Landing → Landing) (j : Nat) :
    (s.setLanding l f).landing j = if j = l then f (s.landing l) else s.landing j :=
  tabGet_tabMod ..

/-! ## `State.setLink` -/

@[simp] theorem State.setLink_pending (l : Nat) (f : Link → Link) : (s.setLink l f).pending = s.pending := rfl
@[simp] theorem State.setLink_out (l : Nat) (f : Link → Link) : (s.setLink l f).out = s.out := rfl
@[simp] theorem State.setLink_free (l : Nat) (f : Link → Link) : (s.setLink l f).free = s.free := rfl
@[simp] theorem State.setLink_mode (l : Nat) (f : Link → Link) : (s.setLink l f).mode = s.mode := rfl
@[simp] theorem State.setLink_causes (l : Nat) (f : Link → Link) : (s.setLink l f).causes = s.causes := rfl
@[simp] theorem State.setLink_notRunning (l : Nat) (f : Link → Link) : (s.setLink l f).notRunning = s.notRunning := rfl
@[simp] theorem State.setLink_frame (l : Nat) (f : Link → Link) : (s.setLink l f).frame = s.frame := rfl
@[simp] theorem State.setLink_intake (l : Nat) (f : Link → Link) : (s.setLink l f).intake = s.intake := rfl
@[simp] theorem State.setLink_lastTransition (l : Nat) (f : Link → Link) :
    (s.setLink l f).lastTransition = s.lastTransition := rfl
@[simp] theorem State.setLink_lastTrigger (l : Nat) (f : Link → Link) :
    (s.setLink l f).lastTrigger = s.lastTrigger := rfl
@[simp] theorem State.setLink_profile (l : Nat) (f : Link → Link) : (s.setLink l f).profile = s.profile := rfl
@[simp] theorem State.setLink_hold (l : Nat) (f : Link → Link) : (s.setLink l f).hold = s.hold := rfl
@[simp] theorem State.setLink_od (l : Nat) (f : Link → Link) : (s.setLink l f).od = s.od := rfl
@[simp] theorem State.setLink_eff (l : Nat) (f : Link → Link) : (s.setLink l f).eff = s.eff := rfl
@[simp] theorem State.setLink_digest (l : Nat) (f : Link → Link) : (s.setLink l f).digest = s.digest := rfl
@[simp] theorem State.setLink_digestDue (l : Nat) (f : Link → Link) : (s.setLink l f).digestDue = s.digestDue := rfl
@[simp] theorem State.setLink_generation (l : Nat) (f : Link → Link) : (s.setLink l f).generation = s.generation := rfl
@[simp] theorem State.setLink_mismatch (l : Nat) (f : Link → Link) : (s.setLink l f).mismatch = s.mismatch := rfl
@[simp] theorem State.setLink_description (l : Nat) (f : Link → Link) :
    (s.setLink l f).description = s.description := rfl
@[simp] theorem State.setLink_peerPubs (l : Nat) (f : Link → Link) : (s.setLink l f).peerPubs = s.peerPubs := rfl
@[simp] theorem State.setLink_aggregates (l : Nat) (f : Link → Link) : (s.setLink l f).aggregates = s.aggregates := rfl
@[simp] theorem State.setLink_log (l : Nat) (f : Link → Link) : (s.setLink l f).log = s.log := rfl
@[simp] theorem State.setLink_nvr (l : Nat) (f : Link → Link) : (s.setLink l f).nvr = s.nvr := rfl
@[simp] theorem State.setLink_power (l : Nat) (f : Link → Link) : (s.setLink l f).power = s.power := rfl
@[simp] theorem State.setLink_clk (l : Nat) (f : Link → Link) : (s.setLink l f).clk = s.clk := rfl
@[simp] theorem State.setLink_host (l : Nat) (f : Link → Link) : (s.setLink l f).host = s.host := rfl
@[simp] theorem State.setLink_net (l : Nat) (f : Link → Link) : (s.setLink l f).net = s.net := rfl
@[simp] theorem State.setLink_gw (l : Nat) (f : Link → Link) : (s.setLink l f).gw = s.gw := rfl
@[simp] theorem State.setLink_ce (l : Nat) (f : Link → Link) : (s.setLink l f).ce = s.ce := rfl
@[simp] theorem State.setLink_te (l : Nat) (f : Link → Link) : (s.setLink l f).te = s.te := rfl
@[simp] theorem State.setLink_cd (l : Nat) (f : Link → Link) : (s.setLink l f).cd = s.cd := rfl
@[simp] theorem State.setLink_bm (l : Nat) (f : Link → Link) : (s.setLink l f).bm = s.bm := rfl
@[simp] theorem State.setLink_cells (l : Nat) (f : Link → Link) : (s.setLink l f).cells = s.cells := rfl
@[simp] theorem State.setLink_se (l : Nat) (f : Link → Link) : (s.setLink l f).se = s.se := rfl
@[simp] theorem State.setLink_mpc (l : Nat) (f : Link → Link) : (s.setLink l f).mpc = s.mpc := rfl
@[simp] theorem State.setLink_red (l : Nat) (f : Link → Link) : (s.setLink l f).red = s.red := rfl
@[simp] theorem State.setLink_link (l : Nat) (f : Link → Link) (j : Nat) :
    (s.setLink l f).link j = if j = l then f (s.link l) else s.link j :=
  tabGet_tabMod ..

/-! ## `State.setBerth` -/

@[simp] theorem State.setBerth_pending (l b : Nat) (f : Berth → Berth) : (s.setBerth l b f).pending = s.pending := rfl
@[simp] theorem State.setBerth_out (l b : Nat) (f : Berth → Berth) : (s.setBerth l b f).out = s.out := rfl
@[simp] theorem State.setBerth_free (l b : Nat) (f : Berth → Berth) : (s.setBerth l b f).free = s.free := rfl
@[simp] theorem State.setBerth_mode (l b : Nat) (f : Berth → Berth) : (s.setBerth l b f).mode = s.mode := rfl
@[simp] theorem State.setBerth_causes (l b : Nat) (f : Berth → Berth) : (s.setBerth l b f).causes = s.causes := rfl
@[simp] theorem State.setBerth_notRunning (l b : Nat) (f : Berth → Berth) :
    (s.setBerth l b f).notRunning = s.notRunning := rfl
@[simp] theorem State.setBerth_frame (l b : Nat) (f : Berth → Berth) : (s.setBerth l b f).frame = s.frame := rfl
@[simp] theorem State.setBerth_intake (l b : Nat) (f : Berth → Berth) : (s.setBerth l b f).intake = s.intake := rfl
@[simp] theorem State.setBerth_lastTransition (l b : Nat) (f : Berth → Berth) :
    (s.setBerth l b f).lastTransition = s.lastTransition := rfl
@[simp] theorem State.setBerth_lastTrigger (l b : Nat) (f : Berth → Berth) :
    (s.setBerth l b f).lastTrigger = s.lastTrigger := rfl
@[simp] theorem State.setBerth_profile (l b : Nat) (f : Berth → Berth) : (s.setBerth l b f).profile = s.profile := rfl
@[simp] theorem State.setBerth_hold (l b : Nat) (f : Berth → Berth) : (s.setBerth l b f).hold = s.hold := rfl
@[simp] theorem State.setBerth_od (l b : Nat) (f : Berth → Berth) : (s.setBerth l b f).od = s.od := rfl
@[simp] theorem State.setBerth_eff (l b : Nat) (f : Berth → Berth) : (s.setBerth l b f).eff = s.eff := rfl
@[simp] theorem State.setBerth_digest (l b : Nat) (f : Berth → Berth) : (s.setBerth l b f).digest = s.digest := rfl
@[simp] theorem State.setBerth_digestDue (l b : Nat) (f : Berth → Berth) :
    (s.setBerth l b f).digestDue = s.digestDue := rfl
@[simp] theorem State.setBerth_generation (l b : Nat) (f : Berth → Berth) :
    (s.setBerth l b f).generation = s.generation := rfl
@[simp] theorem State.setBerth_mismatch (l b : Nat) (f : Berth → Berth) :
    (s.setBerth l b f).mismatch = s.mismatch := rfl
@[simp] theorem State.setBerth_description (l b : Nat) (f : Berth → Berth) :
    (s.setBerth l b f).description = s.description := rfl
@[simp] theorem State.setBerth_peerPubs (l b : Nat) (f : Berth → Berth) :
    (s.setBerth l b f).peerPubs = s.peerPubs := rfl
@[simp] theorem State.setBerth_aggregates (l b : Nat) (f : Berth → Berth) :
    (s.setBerth l b f).aggregates = s.aggregates := rfl
@[simp] theorem State.setBerth_log (l b : Nat) (f : Berth → Berth) : (s.setBerth l b f).log = s.log := rfl
@[simp] theorem State.setBerth_nvr (l b : Nat) (f : Berth → Berth) : (s.setBerth l b f).nvr = s.nvr := rfl
@[simp] theorem State.setBerth_power (l b : Nat) (f : Berth → Berth) : (s.setBerth l b f).power = s.power := rfl
@[simp] theorem State.setBerth_clk (l b : Nat) (f : Berth → Berth) : (s.setBerth l b f).clk = s.clk := rfl
@[simp] theorem State.setBerth_host (l b : Nat) (f : Berth → Berth) : (s.setBerth l b f).host = s.host := rfl
@[simp] theorem State.setBerth_net (l b : Nat) (f : Berth → Berth) : (s.setBerth l b f).net = s.net := rfl
@[simp] theorem State.setBerth_gw (l b : Nat) (f : Berth → Berth) : (s.setBerth l b f).gw = s.gw := rfl
@[simp] theorem State.setBerth_ce (l b : Nat) (f : Berth → Berth) : (s.setBerth l b f).ce = s.ce := rfl
@[simp] theorem State.setBerth_te (l b : Nat) (f : Berth → Berth) : (s.setBerth l b f).te = s.te := rfl
@[simp] theorem State.setBerth_cd (l b : Nat) (f : Berth → Berth) : (s.setBerth l b f).cd = s.cd := rfl
@[simp] theorem State.setBerth_bm (l b : Nat) (f : Berth → Berth) : (s.setBerth l b f).bm = s.bm := rfl
@[simp] theorem State.setBerth_cells (l b : Nat) (f : Berth → Berth) : (s.setBerth l b f).cells = s.cells := rfl
@[simp] theorem State.setBerth_se (l b : Nat) (f : Berth → Berth) : (s.setBerth l b f).se = s.se := rfl
@[simp] theorem State.setBerth_mpc (l b : Nat) (f : Berth → Berth) : (s.setBerth l b f).mpc = s.mpc := rfl
@[simp] theorem State.setBerth_red (l b : Nat) (f : Berth → Berth) : (s.setBerth l b f).red = s.red := rfl
@[simp] theorem State.setBerth_berth (l b m c : Nat) (f : Berth → Berth) :
    (s.setBerth l b f).berth m c = if m * 128 + c = l * 128 + b then f (s.berth l b) else s.berth m c := tabGet_tabMod ..

/-! ## `State.setGroup` -/

@[simp] theorem State.setGroup_pending (g : Nat) (f : JobGroup → JobGroup) : (s.setGroup g f).pending = s.pending := rfl
@[simp] theorem State.setGroup_out (g : Nat) (f : JobGroup → JobGroup) : (s.setGroup g f).out = s.out := rfl
@[simp] theorem State.setGroup_free (g : Nat) (f : JobGroup → JobGroup) : (s.setGroup g f).free = s.free := rfl
@[simp] theorem State.setGroup_mode (g : Nat) (f : JobGroup → JobGroup) : (s.setGroup g f).mode = s.mode := rfl
@[simp] theorem State.setGroup_causes (g : Nat) (f : JobGroup → JobGroup) : (s.setGroup g f).causes = s.causes := rfl
@[simp] theorem State.setGroup_notRunning (g : Nat) (f : JobGroup → JobGroup) :
    (s.setGroup g f).notRunning = s.notRunning := rfl
@[simp] theorem State.setGroup_frame (g : Nat) (f : JobGroup → JobGroup) : (s.setGroup g f).frame = s.frame := rfl
@[simp] theorem State.setGroup_intake (g : Nat) (f : JobGroup → JobGroup) : (s.setGroup g f).intake = s.intake := rfl
@[simp] theorem State.setGroup_lastTransition (g : Nat) (f : JobGroup → JobGroup) :
    (s.setGroup g f).lastTransition = s.lastTransition := rfl
@[simp] theorem State.setGroup_lastTrigger (g : Nat) (f : JobGroup → JobGroup) :
    (s.setGroup g f).lastTrigger = s.lastTrigger := rfl
@[simp] theorem State.setGroup_profile (g : Nat) (f : JobGroup → JobGroup) : (s.setGroup g f).profile = s.profile := rfl
@[simp] theorem State.setGroup_hold (g : Nat) (f : JobGroup → JobGroup) : (s.setGroup g f).hold = s.hold := rfl
@[simp] theorem State.setGroup_od (g : Nat) (f : JobGroup → JobGroup) : (s.setGroup g f).od = s.od := rfl
@[simp] theorem State.setGroup_eff (g : Nat) (f : JobGroup → JobGroup) : (s.setGroup g f).eff = s.eff := rfl
@[simp] theorem State.setGroup_digest (g : Nat) (f : JobGroup → JobGroup) : (s.setGroup g f).digest = s.digest := rfl
@[simp] theorem State.setGroup_digestDue (g : Nat) (f : JobGroup → JobGroup) :
    (s.setGroup g f).digestDue = s.digestDue := rfl
@[simp] theorem State.setGroup_generation (g : Nat) (f : JobGroup → JobGroup) :
    (s.setGroup g f).generation = s.generation := rfl
@[simp] theorem State.setGroup_mismatch (g : Nat) (f : JobGroup → JobGroup) :
    (s.setGroup g f).mismatch = s.mismatch := rfl
@[simp] theorem State.setGroup_description (g : Nat) (f : JobGroup → JobGroup) :
    (s.setGroup g f).description = s.description := rfl
@[simp] theorem State.setGroup_peerPubs (g : Nat) (f : JobGroup → JobGroup) :
    (s.setGroup g f).peerPubs = s.peerPubs := rfl
@[simp] theorem State.setGroup_aggregates (g : Nat) (f : JobGroup → JobGroup) :
    (s.setGroup g f).aggregates = s.aggregates := rfl
@[simp] theorem State.setGroup_log (g : Nat) (f : JobGroup → JobGroup) : (s.setGroup g f).log = s.log := rfl
@[simp] theorem State.setGroup_nvr (g : Nat) (f : JobGroup → JobGroup) : (s.setGroup g f).nvr = s.nvr := rfl
@[simp] theorem State.setGroup_power (g : Nat) (f : JobGroup → JobGroup) : (s.setGroup g f).power = s.power := rfl
@[simp] theorem State.setGroup_clk (g : Nat) (f : JobGroup → JobGroup) : (s.setGroup g f).clk = s.clk := rfl
@[simp] theorem State.setGroup_host (g : Nat) (f : JobGroup → JobGroup) : (s.setGroup g f).host = s.host := rfl
@[simp] theorem State.setGroup_net (g : Nat) (f : JobGroup → JobGroup) : (s.setGroup g f).net = s.net := rfl
@[simp] theorem State.setGroup_gw (g : Nat) (f : JobGroup → JobGroup) : (s.setGroup g f).gw = s.gw := rfl
@[simp] theorem State.setGroup_ce (g : Nat) (f : JobGroup → JobGroup) : (s.setGroup g f).ce = s.ce := rfl
@[simp] theorem State.setGroup_te (g : Nat) (f : JobGroup → JobGroup) : (s.setGroup g f).te = s.te := rfl
@[simp] theorem State.setGroup_cd (g : Nat) (f : JobGroup → JobGroup) : (s.setGroup g f).cd = s.cd := rfl
@[simp] theorem State.setGroup_ferry (g : Nat) (f : JobGroup → JobGroup) : (s.setGroup g f).ferry = s.ferry := rfl
@[simp] theorem State.setGroup_cells (g : Nat) (f : JobGroup → JobGroup) : (s.setGroup g f).cells = s.cells := rfl
@[simp] theorem State.setGroup_se (g : Nat) (f : JobGroup → JobGroup) : (s.setGroup g f).se = s.se := rfl
@[simp] theorem State.setGroup_mpc (g : Nat) (f : JobGroup → JobGroup) : (s.setGroup g f).mpc = s.mpc := rfl
@[simp] theorem State.setGroup_red (g : Nat) (f : JobGroup → JobGroup) : (s.setGroup g f).red = s.red := rfl
@[simp] theorem State.setGroup_group (g : Nat) (f : JobGroup → JobGroup) (j : Nat) :
    (s.setGroup g f).group j = if j = g then f (s.group g) else s.group j :=
  tabGet_tabMod ..

/-! ## `State.setPort` -/

@[simp] theorem State.setPort_pending (p : Nat) (f : Port → Port) : (s.setPort p f).pending = s.pending := rfl
@[simp] theorem State.setPort_out (p : Nat) (f : Port → Port) : (s.setPort p f).out = s.out := rfl
@[simp] theorem State.setPort_free (p : Nat) (f : Port → Port) : (s.setPort p f).free = s.free := rfl
@[simp] theorem State.setPort_mode (p : Nat) (f : Port → Port) : (s.setPort p f).mode = s.mode := rfl
@[simp] theorem State.setPort_causes (p : Nat) (f : Port → Port) : (s.setPort p f).causes = s.causes := rfl
@[simp] theorem State.setPort_notRunning (p : Nat) (f : Port → Port) : (s.setPort p f).notRunning = s.notRunning := rfl
@[simp] theorem State.setPort_frame (p : Nat) (f : Port → Port) : (s.setPort p f).frame = s.frame := rfl
@[simp] theorem State.setPort_intake (p : Nat) (f : Port → Port) : (s.setPort p f).intake = s.intake := rfl
@[simp] theorem State.setPort_lastTransition (p : Nat) (f : Port → Port) :
    (s.setPort p f).lastTransition = s.lastTransition := rfl
@[simp] theorem State.setPort_lastTrigger (p : Nat) (f : Port → Port) :
    (s.setPort p f).lastTrigger = s.lastTrigger := rfl
@[simp] theorem State.setPort_profile (p : Nat) (f : Port → Port) : (s.setPort p f).profile = s.profile := rfl
@[simp] theorem State.setPort_hold (p : Nat) (f : Port → Port) : (s.setPort p f).hold = s.hold := rfl
@[simp] theorem State.setPort_od (p : Nat) (f : Port → Port) : (s.setPort p f).od = s.od := rfl
@[simp] theorem State.setPort_eff (p : Nat) (f : Port → Port) : (s.setPort p f).eff = s.eff := rfl
@[simp] theorem State.setPort_digest (p : Nat) (f : Port → Port) : (s.setPort p f).digest = s.digest := rfl
@[simp] theorem State.setPort_digestDue (p : Nat) (f : Port → Port) : (s.setPort p f).digestDue = s.digestDue := rfl
@[simp] theorem State.setPort_generation (p : Nat) (f : Port → Port) : (s.setPort p f).generation = s.generation := rfl
@[simp] theorem State.setPort_mismatch (p : Nat) (f : Port → Port) : (s.setPort p f).mismatch = s.mismatch := rfl
@[simp] theorem State.setPort_description (p : Nat) (f : Port → Port) :
    (s.setPort p f).description = s.description := rfl
@[simp] theorem State.setPort_peerPubs (p : Nat) (f : Port → Port) : (s.setPort p f).peerPubs = s.peerPubs := rfl
@[simp] theorem State.setPort_aggregates (p : Nat) (f : Port → Port) : (s.setPort p f).aggregates = s.aggregates := rfl
@[simp] theorem State.setPort_log (p : Nat) (f : Port → Port) : (s.setPort p f).log = s.log := rfl
@[simp] theorem State.setPort_nvr (p : Nat) (f : Port → Port) : (s.setPort p f).nvr = s.nvr := rfl
@[simp] theorem State.setPort_power (p : Nat) (f : Port → Port) : (s.setPort p f).power = s.power := rfl
@[simp] theorem State.setPort_clk (p : Nat) (f : Port → Port) : (s.setPort p f).clk = s.clk := rfl
@[simp] theorem State.setPort_host (p : Nat) (f : Port → Port) : (s.setPort p f).host = s.host := rfl
@[simp] theorem State.setPort_net (p : Nat) (f : Port → Port) : (s.setPort p f).net = s.net := rfl
@[simp] theorem State.setPort_gw (p : Nat) (f : Port → Port) : (s.setPort p f).gw = s.gw := rfl
@[simp] theorem State.setPort_ce (p : Nat) (f : Port → Port) : (s.setPort p f).ce = s.ce := rfl
@[simp] theorem State.setPort_te (p : Nat) (f : Port → Port) : (s.setPort p f).te = s.te := rfl
@[simp] theorem State.setPort_cd (p : Nat) (f : Port → Port) : (s.setPort p f).cd = s.cd := rfl
@[simp] theorem State.setPort_bm (p : Nat) (f : Port → Port) : (s.setPort p f).bm = s.bm := rfl
@[simp] theorem State.setPort_ferry (p : Nat) (f : Port → Port) : (s.setPort p f).ferry = s.ferry := rfl
@[simp] theorem State.setPort_se (p : Nat) (f : Port → Port) : (s.setPort p f).se = s.se := rfl
@[simp] theorem State.setPort_mpc (p : Nat) (f : Port → Port) : (s.setPort p f).mpc = s.mpc := rfl
@[simp] theorem State.setPort_red (p : Nat) (f : Port → Port) : (s.setPort p f).red = s.red := rfl
@[simp] theorem State.setPort_port (p : Nat) (f : Port → Port) (j : Nat) :
    (s.setPort p f).port j = if j = p then f (s.port p) else s.port j :=
  tabGet_tabMod ..

/-! ## `State.setChan` -/

@[simp] theorem State.setChan_pending (c : Nat) (f : SeChan → SeChan) : (s.setChan c f).pending = s.pending := rfl
@[simp] theorem State.setChan_out (c : Nat) (f : SeChan → SeChan) : (s.setChan c f).out = s.out := rfl
@[simp] theorem State.setChan_free (c : Nat) (f : SeChan → SeChan) : (s.setChan c f).free = s.free := rfl
@[simp] theorem State.setChan_mode (c : Nat) (f : SeChan → SeChan) : (s.setChan c f).mode = s.mode := rfl
@[simp] theorem State.setChan_causes (c : Nat) (f : SeChan → SeChan) : (s.setChan c f).causes = s.causes := rfl
@[simp] theorem State.setChan_notRunning (c : Nat) (f : SeChan → SeChan) :
    (s.setChan c f).notRunning = s.notRunning := rfl
@[simp] theorem State.setChan_frame (c : Nat) (f : SeChan → SeChan) : (s.setChan c f).frame = s.frame := rfl
@[simp] theorem State.setChan_intake (c : Nat) (f : SeChan → SeChan) : (s.setChan c f).intake = s.intake := rfl
@[simp] theorem State.setChan_lastTransition (c : Nat) (f : SeChan → SeChan) :
    (s.setChan c f).lastTransition = s.lastTransition := rfl
@[simp] theorem State.setChan_lastTrigger (c : Nat) (f : SeChan → SeChan) :
    (s.setChan c f).lastTrigger = s.lastTrigger := rfl
@[simp] theorem State.setChan_profile (c : Nat) (f : SeChan → SeChan) : (s.setChan c f).profile = s.profile := rfl
@[simp] theorem State.setChan_hold (c : Nat) (f : SeChan → SeChan) : (s.setChan c f).hold = s.hold := rfl
@[simp] theorem State.setChan_od (c : Nat) (f : SeChan → SeChan) : (s.setChan c f).od = s.od := rfl
@[simp] theorem State.setChan_eff (c : Nat) (f : SeChan → SeChan) : (s.setChan c f).eff = s.eff := rfl
@[simp] theorem State.setChan_digest (c : Nat) (f : SeChan → SeChan) : (s.setChan c f).digest = s.digest := rfl
@[simp] theorem State.setChan_digestDue (c : Nat) (f : SeChan → SeChan) : (s.setChan c f).digestDue = s.digestDue := rfl
@[simp] theorem State.setChan_generation (c : Nat) (f : SeChan → SeChan) :
    (s.setChan c f).generation = s.generation := rfl
@[simp] theorem State.setChan_mismatch (c : Nat) (f : SeChan → SeChan) : (s.setChan c f).mismatch = s.mismatch := rfl
@[simp] theorem State.setChan_description (c : Nat) (f : SeChan → SeChan) :
    (s.setChan c f).description = s.description := rfl
@[simp] theorem State.setChan_peerPubs (c : Nat) (f : SeChan → SeChan) : (s.setChan c f).peerPubs = s.peerPubs := rfl
@[simp] theorem State.setChan_aggregates (c : Nat) (f : SeChan → SeChan) :
    (s.setChan c f).aggregates = s.aggregates := rfl
@[simp] theorem State.setChan_log (c : Nat) (f : SeChan → SeChan) : (s.setChan c f).log = s.log := rfl
@[simp] theorem State.setChan_nvr (c : Nat) (f : SeChan → SeChan) : (s.setChan c f).nvr = s.nvr := rfl
@[simp] theorem State.setChan_power (c : Nat) (f : SeChan → SeChan) : (s.setChan c f).power = s.power := rfl
@[simp] theorem State.setChan_clk (c : Nat) (f : SeChan → SeChan) : (s.setChan c f).clk = s.clk := rfl
@[simp] theorem State.setChan_host (c : Nat) (f : SeChan → SeChan) : (s.setChan c f).host = s.host := rfl
@[simp] theorem State.setChan_net (c : Nat) (f : SeChan → SeChan) : (s.setChan c f).net = s.net := rfl
@[simp] theorem State.setChan_gw (c : Nat) (f : SeChan → SeChan) : (s.setChan c f).gw = s.gw := rfl
@[simp] theorem State.setChan_ce (c : Nat) (f : SeChan → SeChan) : (s.setChan c f).ce = s.ce := rfl
@[simp] theorem State.setChan_te (c : Nat) (f : SeChan → SeChan) : (s.setChan c f).te = s.te := rfl
@[simp] theorem State.setChan_cd (c : Nat) (f : SeChan → SeChan) : (s.setChan c f).cd = s.cd := rfl
@[simp] theorem State.setChan_bm (c : Nat) (f : SeChan → SeChan) : (s.setChan c f).bm = s.bm := rfl
@[simp] theorem State.setChan_ferry (c : Nat) (f : SeChan → SeChan) : (s.setChan c f).ferry = s.ferry := rfl
@[simp] theorem State.setChan_cells (c : Nat) (f : SeChan → SeChan) : (s.setChan c f).cells = s.cells := rfl
@[simp] theorem State.setChan_mpc (c : Nat) (f : SeChan → SeChan) : (s.setChan c f).mpc = s.mpc := rfl
@[simp] theorem State.setChan_red (c : Nat) (f : SeChan → SeChan) : (s.setChan c f).red = s.red := rfl
@[simp] theorem State.setChan_chan (c : Nat) (f : SeChan → SeChan) (j : Nat) :
    (s.setChan c f).chan j = if j = c then f (s.chan c) else s.chan j :=
  tabGet_tabMod ..

/-! ## `State.setD3hot` -/

@[simp] theorem State.setD3hot_pending (b : Bool) : (s.setD3hot b).pending = s.pending := rfl
@[simp] theorem State.setD3hot_out (b : Bool) : (s.setD3hot b).out = s.out := rfl
@[simp] theorem State.setD3hot_free (b : Bool) : (s.setD3hot b).free = s.free := rfl
@[simp] theorem State.setD3hot_mode (b : Bool) : (s.setD3hot b).mode = s.mode := rfl
@[simp] theorem State.setD3hot_causes (b : Bool) : (s.setD3hot b).causes = s.causes := rfl
@[simp] theorem State.setD3hot_notRunning (b : Bool) : (s.setD3hot b).notRunning = s.notRunning := rfl
@[simp] theorem State.setD3hot_frame (b : Bool) : (s.setD3hot b).frame = s.frame := rfl
@[simp] theorem State.setD3hot_intake (b : Bool) : (s.setD3hot b).intake = s.intake := rfl
@[simp] theorem State.setD3hot_lastTransition (b : Bool) : (s.setD3hot b).lastTransition = s.lastTransition := rfl
@[simp] theorem State.setD3hot_lastTrigger (b : Bool) : (s.setD3hot b).lastTrigger = s.lastTrigger := rfl
@[simp] theorem State.setD3hot_profile (b : Bool) : (s.setD3hot b).profile = s.profile := rfl
@[simp] theorem State.setD3hot_hold (b : Bool) : (s.setD3hot b).hold = s.hold := rfl
@[simp] theorem State.setD3hot_od (b : Bool) : (s.setD3hot b).od = s.od := rfl
@[simp] theorem State.setD3hot_eff (b : Bool) : (s.setD3hot b).eff = s.eff := rfl
@[simp] theorem State.setD3hot_digest (b : Bool) : (s.setD3hot b).digest = s.digest := rfl
@[simp] theorem State.setD3hot_digestDue (b : Bool) : (s.setD3hot b).digestDue = s.digestDue := rfl
@[simp] theorem State.setD3hot_generation (b : Bool) : (s.setD3hot b).generation = s.generation := rfl
@[simp] theorem State.setD3hot_mismatch (b : Bool) : (s.setD3hot b).mismatch = s.mismatch := rfl
@[simp] theorem State.setD3hot_description (b : Bool) : (s.setD3hot b).description = s.description := rfl
@[simp] theorem State.setD3hot_peerPubs (b : Bool) : (s.setD3hot b).peerPubs = s.peerPubs := rfl
@[simp] theorem State.setD3hot_aggregates (b : Bool) : (s.setD3hot b).aggregates = s.aggregates := rfl
@[simp] theorem State.setD3hot_log (b : Bool) : (s.setD3hot b).log = s.log := rfl
@[simp] theorem State.setD3hot_nvr (b : Bool) : (s.setD3hot b).nvr = s.nvr := rfl
@[simp] theorem State.setD3hot_power (b : Bool) : (s.setD3hot b).power = s.power := rfl
@[simp] theorem State.setD3hot_clk (b : Bool) : (s.setD3hot b).clk = s.clk := rfl
@[simp] theorem State.setD3hot_net (b : Bool) : (s.setD3hot b).net = s.net := rfl
@[simp] theorem State.setD3hot_gw (b : Bool) : (s.setD3hot b).gw = s.gw := rfl
@[simp] theorem State.setD3hot_ce (b : Bool) : (s.setD3hot b).ce = s.ce := rfl
@[simp] theorem State.setD3hot_te (b : Bool) : (s.setD3hot b).te = s.te := rfl
@[simp] theorem State.setD3hot_cd (b : Bool) : (s.setD3hot b).cd = s.cd := rfl
@[simp] theorem State.setD3hot_bm (b : Bool) : (s.setD3hot b).bm = s.bm := rfl
@[simp] theorem State.setD3hot_ferry (b : Bool) : (s.setD3hot b).ferry = s.ferry := rfl
@[simp] theorem State.setD3hot_cells (b : Bool) : (s.setD3hot b).cells = s.cells := rfl
@[simp] theorem State.setD3hot_se (b : Bool) : (s.setD3hot b).se = s.se := rfl
@[simp] theorem State.setD3hot_mpc (b : Bool) : (s.setD3hot b).mpc = s.mpc := rfl
@[simp] theorem State.setD3hot_red (b : Bool) : (s.setD3hot b).red = s.red := rfl

/-! ## `State.odPut` -/

@[simp] theorem State.odPut_pending (k v : Nat) : (s.odPut k v).pending = s.pending := rfl
@[simp] theorem State.odPut_out (k v : Nat) : (s.odPut k v).out = s.out := rfl
@[simp] theorem State.odPut_free (k v : Nat) : (s.odPut k v).free = s.free := rfl
@[simp] theorem State.odPut_mode (k v : Nat) : (s.odPut k v).mode = s.mode := rfl
@[simp] theorem State.odPut_causes (k v : Nat) : (s.odPut k v).causes = s.causes := rfl
@[simp] theorem State.odPut_notRunning (k v : Nat) : (s.odPut k v).notRunning = s.notRunning := rfl
@[simp] theorem State.odPut_frame (k v : Nat) : (s.odPut k v).frame = s.frame := rfl
@[simp] theorem State.odPut_intake (k v : Nat) : (s.odPut k v).intake = s.intake := rfl
@[simp] theorem State.odPut_lastTransition (k v : Nat) : (s.odPut k v).lastTransition = s.lastTransition := rfl
@[simp] theorem State.odPut_lastTrigger (k v : Nat) : (s.odPut k v).lastTrigger = s.lastTrigger := rfl
@[simp] theorem State.odPut_profile (k v : Nat) : (s.odPut k v).profile = s.profile := rfl
@[simp] theorem State.odPut_hold (k v : Nat) : (s.odPut k v).hold = s.hold := rfl
@[simp] theorem State.odPut_eff (k v : Nat) : (s.odPut k v).eff = s.eff := rfl
@[simp] theorem State.odPut_digest (k v : Nat) : (s.odPut k v).digest = s.digest := rfl
@[simp] theorem State.odPut_digestDue (k v : Nat) : (s.odPut k v).digestDue = s.digestDue := rfl
@[simp] theorem State.odPut_generation (k v : Nat) : (s.odPut k v).generation = s.generation := rfl
@[simp] theorem State.odPut_mismatch (k v : Nat) : (s.odPut k v).mismatch = s.mismatch := rfl
@[simp] theorem State.odPut_description (k v : Nat) : (s.odPut k v).description = s.description := rfl
@[simp] theorem State.odPut_peerPubs (k v : Nat) : (s.odPut k v).peerPubs = s.peerPubs := rfl
@[simp] theorem State.odPut_aggregates (k v : Nat) : (s.odPut k v).aggregates = s.aggregates := rfl
@[simp] theorem State.odPut_log (k v : Nat) : (s.odPut k v).log = s.log := rfl
@[simp] theorem State.odPut_nvr (k v : Nat) : (s.odPut k v).nvr = s.nvr := rfl
@[simp] theorem State.odPut_power (k v : Nat) : (s.odPut k v).power = s.power := rfl
@[simp] theorem State.odPut_clk (k v : Nat) : (s.odPut k v).clk = s.clk := rfl
@[simp] theorem State.odPut_host (k v : Nat) : (s.odPut k v).host = s.host := rfl
@[simp] theorem State.odPut_net (k v : Nat) : (s.odPut k v).net = s.net := rfl
@[simp] theorem State.odPut_gw (k v : Nat) : (s.odPut k v).gw = s.gw := rfl
@[simp] theorem State.odPut_ce (k v : Nat) : (s.odPut k v).ce = s.ce := rfl
@[simp] theorem State.odPut_te (k v : Nat) : (s.odPut k v).te = s.te := rfl
@[simp] theorem State.odPut_cd (k v : Nat) : (s.odPut k v).cd = s.cd := rfl
@[simp] theorem State.odPut_bm (k v : Nat) : (s.odPut k v).bm = s.bm := rfl
@[simp] theorem State.odPut_ferry (k v : Nat) : (s.odPut k v).ferry = s.ferry := rfl
@[simp] theorem State.odPut_cells (k v : Nat) : (s.odPut k v).cells = s.cells := rfl
@[simp] theorem State.odPut_se (k v : Nat) : (s.odPut k v).se = s.se := rfl
@[simp] theorem State.odPut_mpc (k v : Nat) : (s.odPut k v).mpc = s.mpc := rfl
@[simp] theorem State.odPut_red (k v : Nat) : (s.odPut k v).red = s.red := rfl
@[simp] theorem State.odPut_odk (k v j : Nat) : (s.odPut k v).odk j = if j = k then v else s.odk j := by
  unfold State.odk State.odPut; rw [tabGet_tabPut_at]

/-! ## `State.count` -/

@[simp] theorem State.count_pending (i k n : Nat) : (s.count i k n).pending = s.pending := rfl
@[simp] theorem State.count_out (i k n : Nat) : (s.count i k n).out = s.out := rfl
@[simp] theorem State.count_free (i k n : Nat) : (s.count i k n).free = s.free := rfl
@[simp] theorem State.count_mode (i k n : Nat) : (s.count i k n).mode = s.mode := rfl
@[simp] theorem State.count_causes (i k n : Nat) : (s.count i k n).causes = s.causes := rfl
@[simp] theorem State.count_notRunning (i k n : Nat) : (s.count i k n).notRunning = s.notRunning := rfl
@[simp] theorem State.count_frame (i k n : Nat) : (s.count i k n).frame = s.frame := rfl
@[simp] theorem State.count_intake (i k n : Nat) : (s.count i k n).intake = s.intake := rfl
@[simp] theorem State.count_lastTransition (i k n : Nat) : (s.count i k n).lastTransition = s.lastTransition := rfl
@[simp] theorem State.count_lastTrigger (i k n : Nat) : (s.count i k n).lastTrigger = s.lastTrigger := rfl
@[simp] theorem State.count_profile (i k n : Nat) : (s.count i k n).profile = s.profile := rfl
@[simp] theorem State.count_hold (i k n : Nat) : (s.count i k n).hold = s.hold := rfl
@[simp] theorem State.count_eff (i k n : Nat) : (s.count i k n).eff = s.eff := rfl
@[simp] theorem State.count_digest (i k n : Nat) : (s.count i k n).digest = s.digest := rfl
@[simp] theorem State.count_digestDue (i k n : Nat) : (s.count i k n).digestDue = s.digestDue := rfl
@[simp] theorem State.count_generation (i k n : Nat) : (s.count i k n).generation = s.generation := rfl
@[simp] theorem State.count_mismatch (i k n : Nat) : (s.count i k n).mismatch = s.mismatch := rfl
@[simp] theorem State.count_description (i k n : Nat) : (s.count i k n).description = s.description := rfl
@[simp] theorem State.count_peerPubs (i k n : Nat) : (s.count i k n).peerPubs = s.peerPubs := rfl
@[simp] theorem State.count_aggregates (i k n : Nat) : (s.count i k n).aggregates = s.aggregates := rfl
@[simp] theorem State.count_log (i k n : Nat) : (s.count i k n).log = s.log := rfl
@[simp] theorem State.count_nvr (i k n : Nat) : (s.count i k n).nvr = s.nvr := rfl
@[simp] theorem State.count_power (i k n : Nat) : (s.count i k n).power = s.power := rfl
@[simp] theorem State.count_clk (i k n : Nat) : (s.count i k n).clk = s.clk := rfl
@[simp] theorem State.count_host (i k n : Nat) : (s.count i k n).host = s.host := rfl
@[simp] theorem State.count_net (i k n : Nat) : (s.count i k n).net = s.net := rfl
@[simp] theorem State.count_gw (i k n : Nat) : (s.count i k n).gw = s.gw := rfl
@[simp] theorem State.count_ce (i k n : Nat) : (s.count i k n).ce = s.ce := rfl
@[simp] theorem State.count_te (i k n : Nat) : (s.count i k n).te = s.te := rfl
@[simp] theorem State.count_cd (i k n : Nat) : (s.count i k n).cd = s.cd := rfl
@[simp] theorem State.count_bm (i k n : Nat) : (s.count i k n).bm = s.bm := rfl
@[simp] theorem State.count_ferry (i k n : Nat) : (s.count i k n).ferry = s.ferry := rfl
@[simp] theorem State.count_cells (i k n : Nat) : (s.count i k n).cells = s.cells := rfl
@[simp] theorem State.count_se (i k n : Nat) : (s.count i k n).se = s.se := rfl
@[simp] theorem State.count_mpc (i k n : Nat) : (s.count i k n).mpc = s.mpc := rfl
@[simp] theorem State.count_red (i k n : Nat) : (s.count i k n).red = s.red := rfl
@[simp] theorem State.count_odk (i k n j : Nat) :
    (s.count i k n).odk j = if j = okey i k then sat32 (s.odv i k) n else s.odk j := State.odPut_odk ..

/-! ## `State.emit` -/

@[simp] theorem State.emit_pending (o : Output) : (s.emit o).pending = s.pending := by unfold State.emit; split <;> rfl
@[simp] theorem State.emit_free (o : Output) : (s.emit o).free = s.free := by unfold State.emit; split <;> rfl
@[simp] theorem State.emit_mode (o : Output) : (s.emit o).mode = s.mode := by unfold State.emit; split <;> rfl
@[simp] theorem State.emit_causes (o : Output) : (s.emit o).causes = s.causes := by unfold State.emit; split <;> rfl
@[simp] theorem State.emit_notRunning (o : Output) :
    (s.emit o).notRunning = s.notRunning := by unfold State.emit; split <;> rfl
@[simp] theorem State.emit_frame (o : Output) : (s.emit o).frame = s.frame := by unfold State.emit; split <;> rfl
@[simp] theorem State.emit_intake (o : Output) : (s.emit o).intake = s.intake := by unfold State.emit; split <;> rfl
@[simp] theorem State.emit_lastTransition (o : Output) :
    (s.emit o).lastTransition = s.lastTransition := by unfold State.emit; split <;> rfl
@[simp] theorem State.emit_lastTrigger (o : Output) :
    (s.emit o).lastTrigger = s.lastTrigger := by unfold State.emit; split <;> rfl
@[simp] theorem State.emit_profile (o : Output) : (s.emit o).profile = s.profile := by unfold State.emit; split <;> rfl
@[simp] theorem State.emit_hold (o : Output) : (s.emit o).hold = s.hold := by unfold State.emit; split <;> rfl
@[simp] theorem State.emit_od (o : Output) : (s.emit o).od = s.od := by unfold State.emit; split <;> rfl
@[simp] theorem State.emit_eff (o : Output) : (s.emit o).eff = s.eff := by unfold State.emit; split <;> rfl
@[simp] theorem State.emit_digest (o : Output) : (s.emit o).digest = s.digest := by unfold State.emit; split <;> rfl
@[simp] theorem State.emit_digestDue (o : Output) :
    (s.emit o).digestDue = s.digestDue := by unfold State.emit; split <;> rfl
@[simp] theorem State.emit_generation (o : Output) :
    (s.emit o).generation = s.generation := by unfold State.emit; split <;> rfl
@[simp] theorem State.emit_mismatch (o : Output) :
    (s.emit o).mismatch = s.mismatch := by unfold State.emit; split <;> rfl
@[simp] theorem State.emit_description (o : Output) :
    (s.emit o).description = s.description := by unfold State.emit; split <;> rfl
@[simp] theorem State.emit_peerPubs (o : Output) :
    (s.emit o).peerPubs = s.peerPubs := by unfold State.emit; split <;> rfl
@[simp] theorem State.emit_aggregates (o : Output) :
    (s.emit o).aggregates = s.aggregates := by unfold State.emit; split <;> rfl
@[simp] theorem State.emit_log (o : Output) : (s.emit o).log = s.log := by unfold State.emit; split <;> rfl
@[simp] theorem State.emit_nvr (o : Output) : (s.emit o).nvr = s.nvr := by unfold State.emit; split <;> rfl
@[simp] theorem State.emit_power (o : Output) : (s.emit o).power = s.power := by unfold State.emit; split <;> rfl
@[simp] theorem State.emit_clk (o : Output) : (s.emit o).clk = s.clk := by unfold State.emit; split <;> rfl
@[simp] theorem State.emit_host (o : Output) : (s.emit o).host = s.host := by unfold State.emit; split <;> rfl
@[simp] theorem State.emit_net (o : Output) : (s.emit o).net = s.net := by unfold State.emit; split <;> rfl
@[simp] theorem State.emit_gw (o : Output) : (s.emit o).gw = s.gw := by unfold State.emit; split <;> rfl
@[simp] theorem State.emit_ce (o : Output) : (s.emit o).ce = s.ce := by unfold State.emit; split <;> rfl
@[simp] theorem State.emit_te (o : Output) : (s.emit o).te = s.te := by unfold State.emit; split <;> rfl
@[simp] theorem State.emit_cd (o : Output) : (s.emit o).cd = s.cd := by unfold State.emit; split <;> rfl
@[simp] theorem State.emit_bm (o : Output) : (s.emit o).bm = s.bm := by unfold State.emit; split <;> rfl
@[simp] theorem State.emit_ferry (o : Output) : (s.emit o).ferry = s.ferry := by unfold State.emit; split <;> rfl
@[simp] theorem State.emit_cells (o : Output) : (s.emit o).cells = s.cells := by unfold State.emit; split <;> rfl
@[simp] theorem State.emit_se (o : Output) : (s.emit o).se = s.se := by unfold State.emit; split <;> rfl
@[simp] theorem State.emit_mpc (o : Output) : (s.emit o).mpc = s.mpc := by unfold State.emit; split <;> rfl
@[simp] theorem State.emit_red (o : Output) : (s.emit o).red = s.red := by unfold State.emit; split <;> rfl

end Sys2Proof.Machine
end

