-- ==== Sys2Proof/Laws/Tensor.lean ====
section
/-! SUPPORT. The arithmetic of the INT8 pairing (R115, R120, R123 and R126): what an accumulator and an output element hold
where nothing saturates on the way. -/

namespace Sys2Proof.Machine

/-- A byte of a list of single bytes laid end to end. -/
theorem bytesAt_pack_one (l : List Nat) (e : Nat) (h : e < l.length) :
    bytesAt (packBytes (l.map (fun x => (1, x)))) e 1 = l[e] % 256 := by
  induction l generalizing e with
  | nil => simp at h
  | cons x t ih =>
    cases e with
    | zero => 
      simp only [List.map, packBytes, bytesAt, fld, Nat.mul_zero, Nat.shiftRight_zero, Nat.mul_one, List.getElem_cons_zero]
      rw [Nat.shiftLeft_eq]; omega
    | succ e =>
      have := ih e (by simpa using h)
      simp only [List.map, packBytes, bytesAt, fld, Nat.mul_one, List.getElem_cons_succ] at this ⊢
      rw [← this]
      congr 1
      rw [Nat.mul_add, Nat.add_comm (8 * e), Nat.shiftRight_add]
      congr 1
      rw [Nat.shiftLeft_eq, Nat.shiftRight_eq_div_pow]
      omega

/-- A group of INT8 products is bounded by its length. -/
theorem sum_bound (l : List (Int × Nat)) (h : ∀ p ∈ l, -16384 ≤ p.1 ∧ p.1 ≤ 16384) :
    -(16384 * (l.length : Int)) ≤ (l.map (·.1)).sum ∧ (l.map (·.1)).sum ≤ 16384 * (l.length : Int) := by
  induction l with
  | nil => simp
  | cons p t ih =>
    have h1 := h p (List.mem_cons_self ..)
    have h2 := ih (fun q hq => h q (List.mem_cons_of_mem _ hq))
    simp only [List.map, List.sum_cons, List.length_cons]
    omega

/-- A value within 72 bits is not saturated. -/
theorem sat72_id (x : Int) (h : -(2 ^ 71) ≤ x ∧ x < 2 ^ 71) : sat72 x = x := by
  unfold sat72 clampI; split
  · omega
  · split <;> omega

/-- Products without a shift enter an accumulator without one as their sum. -/
theorem alignGroup_zero (l : List (Int × Nat)) (h : ∀ p ∈ l, p.2 = 0)
    (hb : -(2 ^ 71) ≤ (l.map (·.1)).sum ∧ (l.map (·.1)).sum < 2 ^ 71) : (alignGroup 0 l).1 = (l.map (·.1)).sum := by
  have hd : (l.map (·.2)).headD 0 = 0 := by
    cases l with
    | nil => rfl
    | cons p t => exact h p (List.mem_cons_self ..)
  unfold alignGroup
  dsimp only
  rw [hd, if_pos (by simpa using h)]
  unfold alignAcc
  simp [sat72_id _ hb]

/-- An accumulator that cannot leave 72 bits is the sum of all products (R123). -/
theorem accumulateInt_exact (gs : List (List (Int × Nat))) (x : Int) (v : Bool)
    (h : ∀ g ∈ gs, ∀ p ∈ g, p.2 = 0 ∧ -16384 ≤ p.1 ∧ p.1 ≤ 16384)
    (hx : -(2 ^ 70) + 16384 * ((gs.map List.length).sum : Int) ≤ x ∧ x ≤ 2 ^ 70 - 16384 * ((gs.map List.length).sum : Int)) :
    (accumulateInt 0 (x, v) gs).1 = x + (gs.map (fun g => (g.map (·.1)).sum)).sum := by
  induction gs generalizing x v with
  | nil => simp [accumulateInt]
  | cons g t ih =>
    have hg := sum_bound g (fun p hp => (h g (List.mem_cons_self ..) p hp).2)
    simp only [List.map, List.sum_cons] at hx ⊢
    have ha := alignGroup_zero g (fun p hp => (h g (List.mem_cons_self ..) p hp).1) (by omega)
    show (accumulateInt 0 (_, _) t).1 = _
    rw [ih _ _ (fun g' hg' => h g' (List.mem_cons_of_mem _ hg'))]
    · rw [ha, sat72_id _ (by omega)]; omega
    · dsimp only; rw [ha, sat72_id _ (by omega)]; omega

/-- The indices below a bound, of the indices below another. -/
theorem range_filter (m c : Nat) : (List.range m).filter (fun j => decide (j < c)) = List.range (min m c) := by
  induction m with
  | zero => simp
  | succ m ih =>
    rw [List.range_succ, List.filter_append, ih]
    by_cases h : m < c
    · rw [show min (m + 1) c = m + 1 by omega, show min m c = m by omega, List.range_succ]
      simp [h]
    · rw [show min (m + 1) c = min m c by omega]
      simp [h]

/-- The groups of 16 hold each reduction index once (R120). -/
theorem groups_sum (f : Nat → Int) (k n : Nat) :
    (((upTo n).map (fun g => ((upTo 16).map (16 * g + ·)).filter (fun i => decide (i < k)))).map (fun g => (g.map f).sum)).sum =
      ((upTo (min k (16 * n))).map f).sum := by
  induction n with
  | zero => simp [upTo]
  | succ n ih =>
    unfold upTo at ih ⊢
    rw [show List.range (n + 1) = List.range n ++ [n] from List.range_succ, List.map_append, List.map_append,
      List.sum_append, ih]
    have e : ((List.range 16).map (16 * n + ·)).filter (fun i => decide (i < k)) = (List.range (min 16 (k - 16 * n))).map (16 * n + ·) := by
      rw [List.filter_map, ← range_filter]
      congr 1
      refine List.filter_congr (fun j _ => ?_)
      simp only [Function.comp_apply, decide_eq_decide]
      omega
    simp only [List.map_cons, List.map_nil, List.sum_cons, List.sum_nil, e, Int.add_zero]
    rw [show min k (16 * (n + 1)) = min k (16 * n) + min 16 (k - 16 * n) by omega, List.range_add, List.map_append, List.sum_append]
    congr 1
    by_cases h : 16 * n ≤ k
    · rw [show min k (16 * n) = 16 * n by omega]
    · rw [show k - 16 * n = 0 by omega]; simp

/-- The value of a number made from a rational is the rational. -/
theorem num_of_val (x : Rat) : (Num.of x).val = x := by
  unfold Num.of; split <;> simp [Num.val]

/-- Rounding an integer leaves it. -/
theorem rneRat_int (n : Int) : rneRat (n : Rat) = n := by
  unfold rneRat rneDiv
  simp

/-- So does rounding it by its magnitude. -/
theorem roundVal_int (x : Int) : roundVal none (x : Rat) = x := by
  unfold roundVal roundMag
  dsimp only
  by_cases h : x < 0
  · rw [if_pos (by exact_mod_cast h), ← Rat.intCast_neg, rneRat_int]; omega
  · rw [if_neg (by exact_mod_cast h), rneRat_int]; omega

/-- A finite number becomes an integer by rounding and the clamp. -/
theorem toInt_of (rm : Option Nat) (lo hi : Int) (scale x : Rat) :
    (toInt rm lo hi scale (Num.of x)).1 = clampI (roundVal rm (x * scale)) lo hi := by
  have h := num_of_val x
  unfold Num.of at h ⊢
  split at h <;> (rename_i c; simp only [c, if_true, if_false] at h ⊢; unfold toInt; dsimp only; rw [h])

/-- A byte read as INT8 gives back what was stored. -/
theorem signed_unsigned (x : Int) (h : -128 ≤ x ∧ x ≤ 127) : signed 8 (unsigned 8 x % 256) = x := by
  unfold signed unsigned; dsimp only; omega

/-- The clamp keeps INT8. -/
theorem clamp_range (x : Int) : -128 ≤ clampI x (-128) 127 ∧ clampI x (-128) 127 ≤ 127 := by
  unfold clampI; split
  · omega
  · split <;> omega

/-- The range of INT8 (R115). -/
theorem signed8_bound (v : Nat) : -128 ≤ signed 8 v ∧ signed 8 v ≤ 127 := by
  unfold signed; dsimp only; split <;> omega

/-- The range of a product of two INT8 values. -/
theorem mul8_bound (x y : Int) (hx : -128 ≤ x ∧ x ≤ 127) (hy : -128 ≤ y ∧ y ≤ 127) : -16384 ≤ x * y ∧ x * y ≤ 16384 := by
  have h : (x * y).natAbs ≤ 128 * 128 := by
    rw [Int.natAbs_mul]; exact Nat.mul_le_mul (by omega) (by omega)
  omega

/-- A sum of ones is a length. -/
theorem sum_ones {α : Type} (l : List α) : (l.map (fun _ => (1 : Int))).sum = (l.length : Int) := by
  induction l with
  | nil => rfl
  | cons a t ih => simp only [List.map, List.sum_cons, ih, List.length_cons]; omega

/-- The lengths of lists add up as their ones do. -/
theorem sum_lengths {α : Type} (l : List (List α)) :
    (((l.map List.length).sum : Nat) : Int) = (l.map (fun g => (g.map (fun _ => (1 : Int))).sum)).sum := by
  induction l with
  | nil => rfl
  | cons a t ih => rw [List.map_cons, List.map_cons, List.sum_cons, List.sum_cons, ← ih, sum_ones]; omega

/-- An INT8 output is the accumulator's value, rounded and saturated. -/
theorem convertOne_int8 (m : TeMode) (shift e : Nat) (v : Int) (s : Nat) :
    (convertOne m 5 shift e (.int v s)).1 = unsigned 8 (toInt (m.rm e) (-128) 127 (1 / (2 ^ shift : Rat)) (Num.of (v : Rat))).1 := rfl

/-- An INT8 accumulator without an accumulator operand is the sum of its products, since 2 to the 32 of them cannot reach
72 bits. -/
theorem matCell_int8 (toInf : Bool) (sacc k r c : Nat) (a b : Blob) (hk : k < 2 ^ 32) :
    (matCell toInf 5 5 sacc k r c a b none).1 =
      .int ((upTo k).map (fun l => signed 8 (bytesAt a (r * k + l) 1) * signed 8 (bytesAt b (c * k + l) 1))).sum 0 := by
  let f : Nat → Int := fun l => signed 8 (bytesAt a (r * k + l) 1) * signed 8 (bytesAt b (c * k + l) 1)
  have h0 : (matCell toInf 5 5 sacc k r c a b none).1 =
      .int (accumulateInt 0 (0, false) ((groups k).map (fun g => g.map (fun i => (f i, 0))))).1 0 := by
    unfold matCell
    rw [if_pos (Or.inl rfl)]
    simp [f, intAt, rowBytes, fmtSize, startInt]
  have hs : ((groups k).map (fun g => (g.map f).sum)).sum = ((upTo k).map f).sum := by
    unfold groups
    rw [groups_sum, show min k (16 * ceilDiv k 16) = k by unfold ceilDiv; omega]
  have hl : (((groups k).map List.length).sum : Int) = k := by
    rw [sum_lengths]
    unfold groups
    rw [groups_sum, show min k (16 * ceilDiv k 16) = k by unfold ceilDiv; omega, sum_ones]
    simp [upTo]
  rw [h0, accumulateInt_exact]
  · rw [List.map_map, Int.zero_add, ← hs]
    simp only [Function.comp_def, List.map_map]
  · intro g hg p hp
    simp only [List.mem_map] at hg
    obtain ⟨g', _, rfl⟩ := hg
    simp only [List.mem_map] at hp
    obtain ⟨l, _, rfl⟩ := hp
    exact ⟨rfl, mul8_bound _ _ (signed8_bound _) (signed8_bound _)⟩
  · rw [List.map_map]
    simp only [Function.comp_def, List.length_map]
    rw [show (fun x : List Nat => x.length) = List.length from rfl]
    omega

end Sys2Proof.Machine
end

