-- ==== Sys2Proof/Laws/TouchBase.lean ====
section
/-! SUPPORT. What a command touches: `Touches ps s t` composes, and an update of one field stays within its part. -/

namespace Sys2Proof
open Machine

theorem Part.same_refl (p : Part) (s : State) : p.same s s := by cases p <;> simp [Part.same]

theorem Part.same_trans {p : Part} {s t u : State} (h : p.same s t) (k : p.same t u) : p.same s u := by
  cases p <;> simp_all [Part.same]

theorem Touches.refl (ps : List Part) (s : State) : Touches ps s s := ⟨rfl, fun p _ => p.same_refl s⟩

/-- One more change within the same parts. -/
theorem Touches.step {ps qs : List Part} {s t u : State} (h : Touches ps s t) (k : Touches qs t u)
    (hq : ∀ p, p ∈ qs → p ∈ ps) : Touches ps s u :=
  ⟨k.1.trans h.1, fun p hp => Part.same_trans (h.2 p hp) (k.2 p (fun m => hp (hq p m)))⟩

theorem Part.forall_iff (P : Part → Prop) : (∀ p, P p) ↔ P .mode ∧ P .causes ∧ P .frame ∧ P .intake ∧ P .profile ∧ P .hold ∧
    P .dictionary ∧ P .config ∧ P .published ∧ P .log ∧ P .nvr ∧ P .power ∧ P .clk ∧ P .host ∧ P .net ∧ P .gw ∧ P .ce ∧
    P .te ∧ P .cd ∧ P .bm ∧ P .ferry ∧ P .cells ∧ P .se ∧ P .mpc ∧ P .red ∧ P .out ∧ P .free :=
  ⟨fun h => by simp [h], fun h p => by cases p <;> simp [h]⟩

theorem touches_iff (ps : List Part) (s t : State) :
    Touches ps s t ↔ t.pending = s.pending ∧ ∀ p, p ∉ ps → p.same s t := Iff.rfl

/-- A fold whose every step stays within the parts. -/
theorem Touches.foldl {α : Type} {ps : List Part} (f : State → α → State) (l : List α) {s t : State} (h : Touches ps s t)
    (k : ∀ s x, Touches ps s (f s x)) : Touches ps s (l.foldl f t) := by
  induction l generalizing t with
  | nil => exact h
  | cons x l ih => exact ih (h.step (k t x) (fun _ m => m))

theorem Touches.ite {ps : List Part} {s a b : State} {c : Prop} [Decidable c] (ha : Touches ps s a) (hb : Touches ps s b) :
    Touches ps s (if c then a else b) := by split <;> assumption

theorem touch_intake (s : State) (x : Nat) : Touches [.intake] s { s with intake := x } := by
  simp [touches_iff, Part.forall_iff, Part.same]

theorem touch_frame (s : State) (x : Nat) : Touches [.frame] s { s with frame := x } := by
  simp [touches_iff, Part.forall_iff, Part.same]

theorem touch_profile (s : State) (x : Nat) : Touches [.profile] s { s with profile := x } := by
  simp [touches_iff, Part.forall_iff, Part.same]

theorem touch_hold (s : State) (x : Hold) : Touches [.hold] s { s with hold := x } := by
  simp [touches_iff, Part.forall_iff, Part.same]

theorem touch_od (s : State) (x : Tab Nat) : Touches [.dictionary] s { s with od := x } := by
  simp [touches_iff, Part.forall_iff, Part.same]

theorem touch_eff (s : State) (x : Tab Nat) : Touches [.dictionary] s { s with eff := x } := by
  simp [touches_iff, Part.forall_iff, Part.same]

theorem touch_description (s : State) (x : Blob) : Touches [.config] s { s with description := x } := by
  simp [touches_iff, Part.forall_iff, Part.same]

theorem touch_peerPubs (s : State) (x : Tab Blob) : Touches [.published] s { s with peerPubs := x } := by
  simp [touches_iff, Part.forall_iff, Part.same]

theorem touch_aggregates (s : State) (x : Tab Blob) : Touches [.published] s { s with aggregates := x } := by
  simp [touches_iff, Part.forall_iff, Part.same]

theorem touch_log (s : State) (x : Log) : Touches [.log] s { s with log := x } := by
  simp [touches_iff, Part.forall_iff, Part.same]

theorem touch_nvr (s : State) (x : Nvr) : Touches [.nvr] s { s with nvr := x } := by
  simp [touches_iff, Part.forall_iff, Part.same]

theorem touch_power (s : State) (x : Power) : Touches [.power] s { s with power := x } := by
  simp [touches_iff, Part.forall_iff, Part.same]

theorem touch_clk (s : State) (x : Clk) : Touches [.clk] s { s with clk := x } := by
  simp [touches_iff, Part.forall_iff, Part.same]

theorem touch_host (s : State) (x : HostPort) : Touches [.host] s { s with host := x } := by
  simp [touches_iff, Part.forall_iff, Part.same]

theorem touch_net (s : State) (x : FieldNet) : Touches [.net] s { s with net := x } := by
  simp [touches_iff, Part.forall_iff, Part.same]

theorem touch_gw (s : State) (x : Gangway) : Touches [.gw] s { s with gw := x } := by
  simp [touches_iff, Part.forall_iff, Part.same]

theorem touch_ce (s : State) (x : Ce) : Touches [.ce] s { s with ce := x } := by
  simp [touches_iff, Part.forall_iff, Part.same]

theorem touch_te (s : State) (x : Te) : Touches [.te] s { s with te := x } := by
  simp [touches_iff, Part.forall_iff, Part.same]

theorem touch_cd (s : State) (x : Cd) : Touches [.cd] s { s with cd := x } := by
  simp [touches_iff, Part.forall_iff, Part.same]

theorem touch_bm (s : State) (x : Bm) : Touches [.bm] s { s with bm := x } := by
  simp [touches_iff, Part.forall_iff, Part.same]

theorem touch_ferry (s : State) (x : Ferry) : Touches [.ferry] s { s with ferry := x } := by
  simp [touches_iff, Part.forall_iff, Part.same]

theorem touch_cells (s : State) (x : Cells) : Touches [.cells] s { s with cells := x } := by
  simp [touches_iff, Part.forall_iff, Part.same]

theorem touch_se (s : State) (x : Se) : Touches [.se] s { s with se := x } := by
  simp [touches_iff, Part.forall_iff, Part.same]

theorem touch_mpc (s : State) (x : Mpc) : Touches [.mpc] s { s with mpc := x } := by
  simp [touches_iff, Part.forall_iff, Part.same]

theorem touch_red (s : State) (x : Red) : Touches [.red] s { s with red := x } := by
  simp [touches_iff, Part.forall_iff, Part.same]

theorem touch_out (s : State) (x : List Output) : Touches [.out] s { s with out := x } := by
  simp [touches_iff, Part.forall_iff, Part.same]

theorem touch_free (s : State) (x : Nat) : Touches [.free] s { s with free := x } := by
  simp [touches_iff, Part.forall_iff, Part.same]

theorem touch_notRunning (s : State) (x : Bool) : Touches [.causes] s { s with notRunning := x } := by
  simp [touches_iff, Part.forall_iff, Part.same]

theorem touch_causes (s : State) (x : Nat) : Touches [.causes] s { s with causes := x } := by
  simp [touches_iff, Part.forall_iff, Part.same]

end Sys2Proof
end

