-- ==== Sys2Proof/Tests/Slice0.lean ====
section
/-! SUPPORT. Tests: each check of `Instr.wf` refuses a term that breaks it; commands on small states; and for every
statement with hypotheses a state and operands that meet them. -/

namespace Sys2Proof.Tests

set_option Elab.async false
open Sys2Proof Sys2Proof.Machine

/-! ## Small operands -/

/-- An unsigned request through the host mailbox. -/
def hostHead : ReqHead := ⟨.host, none⟩

/-- A head of a port the module does not have. -/
def badHead : ReqHead := ⟨.dap 2 0 0, none⟩

/-- Sixteen equal strap samples, coolant flowing, no short. -/
def boots : BootInputs := ⟨List.replicate 16 5, true, none⟩

/-- Fifteen samples. -/
def badBoots : BootInputs := ⟨List.replicate 15 5, true, none⟩

/-- A measurement that no rail gives. -/
def badMeas : RailMeas := ⟨65536, 0, 0⟩

/-- A frame whose type is no byte. -/
def badFrame : CellFrame := ⟨256, 0, 0, 0, 0, 0⟩

/-- A word struck at an address that is not a word's. -/
def badFx : ExecFx := ⟨[⟨.hbm, 2, 1⟩], false⟩

/-- A stack and a core the module does not have, and a rail of the other die. -/
def badStart : CdStartInputs := ⟨some 4, [], []⟩

/-! ## WellFormed refuses -/

/-- Every command of the list is refused. -/
def allRefused (l : List Instr) : Bool := l.all (fun i => !i.wf)

theorem test_wf_operand_parts :
    Via.wf (.dap 2 0 0) = false ∧ Via.wf (.dap 0 (2 ^ 48) 0) = false ∧ Via.wf (.dap 0 0 65536) = false ∧
    Trailer.wf ⟨2 ^ 64, 0, 0⟩ = false ∧ Trailer.wf ⟨0, 2 ^ 256, 0⟩ = false ∧ Trailer.wf ⟨0, 0, 2 ^ 512⟩ = false ∧
    ReqHead.wf ⟨.host, some ⟨2 ^ 64, 0, 0⟩⟩ = false ∧ Req.wf ⟨.host, false, 65536, 0, 0, 0, 0⟩ = false ∧
    Req.wf ⟨.host, false, 0, 256, 0, 0, 0⟩ = false ∧ Req.wf ⟨.host, false, 0, 0, 2 ^ 32, 0, 0⟩ = false ∧
    Req.wf ⟨.host, false, 0, 0, 1, 256, 1⟩ = false := by decide +kernel

theorem test_wf_struck_words :
    Upset.wf ⟨.hbm, 2, 1⟩ = false ∧ Upset.wf ⟨.hbm, 0, 2 ^ 42⟩ = false ∧ Upset.wf ⟨.hbm, 2 ^ 64, 1⟩ = false ∧
    Upset.wf ⟨.sram, 801 * 2 ^ 20, 1⟩ = false ∧ ExecFx.wf badFx = false := by decide +kernel

theorem test_wf_records :
    ProgRef.wf (.stream 768) = false ∧ ProgRef.wf (.host 96) = false ∧ ProgRef.wf (.ripen 96) = false ∧
    BootInputs.wf badBoots = false ∧ BootInputs.wf ⟨List.replicate 16 16, true, none⟩ = false ∧
    BootInputs.wf ⟨List.replicate 16 5, true, some 5⟩ = false ∧ CdStartInputs.wf badStart = false ∧
    CdStartInputs.wf ⟨none, [12], []⟩ = false ∧ CdStartInputs.wf ⟨none, [], [96]⟩ = false ∧
      RailMeas.wf badMeas = false ∧
    SlotReadings.wf ⟨[(12, 0, 0)], 0, 0, 0, 0⟩ = false ∧ SlotReadings.wf ⟨[(0, 48, 0)], 0, 0, 0, 0⟩ = false ∧
    CellFrame.wf badFrame = false ∧ CellFrame.wf ⟨0, 0, 1, 256, 0, 0⟩ = false ∧ Window.wf ⟨128, 0, 0, false⟩ = false ∧
    Window.wf ⟨0, 2 ^ 608, 0, false⟩ = false ∧ ModelEntry.wf ⟨0, 0, 2 ^ 128, 0, 0, 0⟩ = false ∧
    ModelEntry.wf ⟨0, 0, 0, 0, 0, 2 ^ 32⟩ = false ∧ MergeUpset.wf ⟨some 768, 0, 1⟩ = false ∧
    MergeUpset.wf ⟨some 0, 64, 1⟩ = false ∧ MergeUpset.wf ⟨none, 0, 0⟩ = false := by decide +kernel

theorem test_wf_startup : allRefused
    [.inputEntersRange badBoots, .bootWatchdogExpiry badBoots, .strapChange 16, .operatingPointChange 8,
     .fixedOpWrite badHead 0, .fixedOpWrite hostHead 256, .syncInLost 256, .cdStart badStart,
     .loadReplay ⟨none, [⟨0, 0, 2 ^ 128, 0, 0, 0⟩]⟩,
     .loadReplay ⟨some (2, 0), []⟩] = true := by decide +kernel

theorem test_wf_security : allRefused
    [.imageOpen badHead 0, .imageOpen hostHead (2 ^ 2048), .imageSegment badHead 0 0 0,
      .imageSegment hostHead (2 ^ 32) 0 0,
     .imageSegment hostHead 0 (2 ^ 32) 0, .imageSegment hostHead 0 0 (2 ^ 262144), .imageActivate badHead 0 boots,
     .imageActivate hostHead 256 boots, .imageActivate hostHead 0 badBoots, .floorCommand badHead 0,
     .floorCommand hostHead (2 ^ 1088), .keyEnrol badHead (2 ^ 32), .keyEnrol hostHead (2 ^ 1152 + 2 ^ 32),
     .keyEnrol hostHead 0, .keyRemove hostHead 0, .keyRemove badHead (2 * 2 ^ 32),
       .keyRemove hostHead (2 ^ 1152 + 2 * 2 ^ 32),
     .configurationBundle badHead 0, .configurationBundle hostHead (2 ^ 524280)] = true := by decide +kernel

theorem test_wf_gangway : allRefused
    [.replySlotReceive 24 none, .managementReplyReceive 24 none, .nodeDisable hostHead 32, .nodeDisable badHead 0,
     .nodeEnable hostHead 32, .nodeEnable badHead 0, .nodeClearFault hostHead 32, .nodeClearFault badHead 0,
     .hold badHead, .release badHead] = true := by decide +kernel

theorem test_wf_tensor : allRefused
    [.runEndedAtBankReuse 96, .nop (.stream 768), .matmul (.stream 768) quiet, .matmul (.stream 0) badFx,
     .vector (.stream 768) quiet, .vector (.stream 0) badFx, .copy (.host 96) quiet, .copy (.stream 0) badFx,
     .gather (.ripen 96) quiet, .gather (.stream 0) badFx, .scalar (.stream 768) quiet, .scalar (.stream 0) badFx,
     .skip (.stream 768), .hint (.stream 768), .fence (.stream 768), .barrier (.stream 768),
       .barrierTimeout (.stream 768) 0,
     .barrierTimeout (.stream 0) 256, .emit (.stream 768) quiet, .emit (.stream 0) badFx, .progEnd (.stream 768) 0,
     .tileYield 96, .clusterWake 12, .sequencerWatchdogExpiry 96, .fenceCore badHead 0, .fenceCore hostHead 256,
     .releaseCore badHead 0, .releaseCore hostHead 256, .fenceCluster badHead 0, .fenceCluster hostHead 256,
     .coreSelfTestDone 96 true, .cdStop badHead, .clearHostStop badHead] = true := by decide +kernel

theorem test_wf_loads_and_memory : allRefused
    [.streamSettingsWrite badHead 0 1 0, .streamSettingsWrite hostHead 768 1 0, .streamSettingsWrite hostHead 0 0 0,
     .streamSettingsWrite hostHead 0 4 0, .streamSettingsWrite hostHead 0 1 (2 ^ 64), .loadNewStreams badHead 0 0 0,
     .loadNewStreams hostHead (2 ^ 64) 0 0, .loadNewStreams hostHead 0 65536 0, .replaceModel hostHead 0 0 65536,
     .replaceModel badHead 0 0 0, .unload hostHead 65536 0, .unload badHead 0 0, .hostWork badHead 0,
     .hostWork hostHead (2 ^ 256), .masterCopyRestore (2 ^ 32) [], .masterCopyRestore 0 [⟨.hbm, 2, 1⟩],
       .bar2Read 0 0 [], .bar2Read 0 4 [⟨.hbm, 2, 1⟩],
     .bar2Write 0 0 0 [], .bar2Write 0 1 256 [], .bar2Write 0 1 0 [⟨.hbm, 2, 1⟩], .hbmAccessTimeout 12,
     .hbmScrubStep 12 [] [], .hbmScrubStep 0 [⟨.hbm, 2, 1⟩] [], .hbmScrubStep 0 [] [⟨.hbm, 2, 1⟩],
       .sramScrubStep 801 [] [],
     .sramScrubStep 0 [⟨.hbm, 2, 1⟩] [], .sramScrubStep 0 [] [⟨.hbm, 2, 1⟩], .refreshUpdate 12 none,
     .stackManagementFatal 12] = true := by decide +kernel

theorem test_wf_control : allRefused
    [.resultRecordAccept 96, .mergeRun [⟨some 768, 0, 1⟩], .ripeningImageRegister hostHead (2 ^ 32) 0,
     .ripeningImageRegister hostHead 0 (2 ^ 64), .ripeningImageRegister badHead 0 0, .ripeningImageDeregister badHead 0,
     .ripeningImageDeregister hostHead (2 ^ 32), .ripeningJobStart (2 ^ 32), .ripeningTimeout (2 ^ 32),
     .budgetWrite badHead 0, .budgetWrite hostHead (2 ^ 32), .barrierRelease 64, .followingErrorTimeout 64,
     .loopModeOff badHead 0, .loopModeOff hostHead 64, .loopModeOpen badHead 0, .loopModeOpen hostHead 64,
     .loopModeClosed badHead 0, .loopModeClosed hostHead 64, .rcClear badHead 0, .rcClear hostHead 4,
       .rcPhaseNudge badHead 0 0,
     .rcPhaseNudge hostHead 4 0, .rcPhaseNudge hostHead 0 65536, .rcSetIndex badHead 0 0, .rcSetIndex hostHead 4 0,
     .rcSetIndex hostHead 0 (2 ^ 32), .rcPeriodWrite badHead 0 0, .rcPeriodWrite hostHead 4 0,
     .rcPeriodWrite hostHead 0 (2 ^ 32)] = true := by decide +kernel

theorem test_wf_links : allRefused
    [.linkCodeLock 49, .linkCrossingLock 49, .linkUp 49 0, .linkTrainingTimeout 49, .linkDown 49 1, .linkDown 0 0,
      .linkDown 0 5,
     .downstreamCrossingStart 49, .crossingRelease 49 0 0 [], .crossingRelease 0 0 0 [⟨128, 0, 0, false⟩],
       .attach 49 0 0,
     .attach 0 128 0, .attach 0 0 (2 ^ 64), .detach 49 0 0, .detach 0 128 0, .detach 0 0 (2 ^ 32),
       .peerAggregateReceive 49 0,
     .peerAggregateReceive 0 (2 ^ 1056), .configurationReceive 49 0, .configurationReceive 0 (2 ^ 576),
     .linkSignalDetected 49] = true := by decide +kernel

theorem test_wf_access : allRefused
    [.dictionaryRead ⟨.host, false, 65536, 0, 0, 0, 0⟩, .dictionaryWrite ⟨.host, false, 65536, 0, 0, 0, 0⟩,
     .dapSegment 2 0 0 0 0 0, .dapSegment 0 (2 ^ 48) 0 0 0 0, .dapSegment 0 0 65536 0 0 0,
       .dapSegment 0 0 0 (2 ^ 32) 0 0,
     .dapSegment 0 0 0 0 256 1, .dapAbort 2 0 0, .dapAbort 0 (2 ^ 48) 0, .dapAbort 0 0 65536, .dapTransferTimeout 2 0 0,
     .dapTransferTimeout 0 (2 ^ 48) 0, .dapTransferTimeout 0 0 65536, .dapFrameDrop 2, .mirrorRead (2 ^ 27) 4,
       .mirrorRead 0 3,
     .irregularBar0Access (2 ^ 27) 4 true, .irregularBar0Access 0 3 false, .intStatusClear (2 ^ 32),
       .intEnableWrite (2 ^ 32),
     .registerWrite (2 ^ 27) 4 0, .registerWrite 0 3 0, .registerWrite 0 4 (2 ^ 32), .fnLinkStatusChange 2 true,
     .describe badHead 0, .describe hostHead (2 ^ 32), .logCursorWrite badHead 0 0, .logCursorWrite hostHead 3 0,
     .logCursorWrite hostHead 0 (2 ^ 64)] = true := by decide +kernel

theorem test_wf_energy : allRefused
    [.cellAnswerTimeout 32, .helloAck 32 ⟨0x81, 0, 0, 0, 0, 0⟩, .helloAck 0 badFrame, .configureAck 32 ⟨0x82, 0, 0,
      0, 0, 0⟩,
     .configureAck 0 badFrame, .cellData 32 ⟨0x84, 0, 0, 0, 0, 0⟩, .cellData 0 badFrame, .portRetry 32, .csLost 8,
       .csReturn 8,
     .fullDetect 8, .currentSenseBit 8 true, .resetLearnedValues badHead 0,
       .resetLearnedValues hostHead 256] = true := by
  decide +kernel

theorem test_wf_power : allRefused
    [.railOverVoltage 13 ⟨0, 0, 0⟩, .railOverVoltage 0 badMeas, .softStartShort 13 ⟨0, 0, 0⟩, .softStartShort 0 badMeas,
     .railOvercurrent 13 ⟨0, 0, 0⟩, .railOvercurrent 0 badMeas, .railUnderVoltage 13 ⟨0, 0, 0⟩,
       .railUnderVoltage 0 badMeas,
     .softStartRetry 13 ⟨none, [], []⟩, .softStartRetry 0 ⟨some 13, [], []⟩, .latchRelease badHead 0,
       .latchRelease hostHead 256,
     .phaseRotation 13, .powerSlotBoundary ⟨[], 65536, 0, 0, 0⟩, .powerSlotBoundary ⟨[], 0, 0, 0, 65536⟩,
       .sensorRead []] = true := by decide +kernel

theorem test_wf_redundancy : allRefused
    [.leaseRenewReceive (2 ^ 32) 0 0 0, .leaseRenewReceive 0 256 0 0, .leaseRenewReceive 0 0 256 0,
     .leaseRenewReceive 0 0 0 (2 ^ 32), .leaseAckReceive (2 ^ 32) 0 0, .leaseAckReceive 0 256 0,
       .leaseAckReceive 0 0 256,
     .leaseExpiry badBoots, .takeoverLimitExpiry badBoots, .checkpointReadComplete (some (2 ^ 436768)) none,
     .checkpointReadComplete none (some (2 ^ 436768)), .rcTableRestore 4 0, .rcTableRestore 0 (2 ^ 16777216),
     .manualSwitchOver badHead 0, .manualSwitchOver hostHead 256, .handoverReceive (2 ^ 32) 0,
       .handoverReceive 0 (2 ^ 32),
     .peerStateReceive 256 0, .peerStateReceive 0 256] = true := by decide +kernel

/-- Operands in range are accepted. -/
theorem test_wf_accepts : [Instr.inputEntersRange boots, .operatingPointChange 7, .fixedOpWrite hostHead 255,
  .keyEnrol hostHead (2 ^ 32),
    .keyRemove hostHead (2 * 2 ^ 32), .nodeEnable hostHead 23, .emit (.stream 767) quiet,
      .streamSettingsWrite hostHead 767 3 0,
    .linkDown 48 4, .logCursorWrite hostHead 2 7, .peerAggregateReceive 47 (2 ^ 1056 - 1),
      .sensorRead (List.replicate 95 0),
    .railOvercurrent 12 ⟨0, 0, 0⟩, .leaseClaim].all Instr.wf = true := by decide +kernel

/-! ## Small states -/

/-- A module in STANDBY_COLD with its services up, coolant flowing and its input in range. -/
def cold : State :=
  { State.reset with
    mode := .standbyCold, frame := 100000, intake := 500001
    power := { hotSwap := true, inRange := true, servicesUp := true, watchDone := true, flowOk := true, vin := 54000 }
    clk := { rc := true, root := true, serdes := true, io := true } }

/-- The holder of the lease, in ACTIVE, with its gate open, its CD running and its control engine in service. -/
def act : State :=
  { cold with
    mode := .active
    power := { cold.power with gate := true }
    clk := { cold.clk with compute := true, hbm := true }
    gw := { driving := true }
    red := { held := true, armed := true, timer := true, claimFrame := 50000 }
    ce := { inService := true }
    cd := { running := true } }

/-- A module in BOOT whose services are up and whose watch of the lease line has ended. -/
def booting : State := { cold with mode := .boot }

/-- The holder in SAFE_HOLD. -/
def holding : State := { act with mode := .safeHold }

/-- A module that takes over. -/
def taking : State := { act with mode := .takeover, red := { act.red with step := 1 }, ce := { act.ce with inService := false } }

/-- A write of an entry of the dictionary, for a state of a test. -/
def od (s : State) (i k v : Nat) : State := s.odPut (okey i k) v

/-- A command of eight words. -/
def cmdOf (ws : List Nat) : Blob := packBytes (ws.map (fun w => (4, w)))

/-- An image of one command, with a state buffer, a weights buffer and an output buffer. -/
def imageOf (ws : List Nat) : Model :=
  { ident := 7, progLen := 64, weightsLen := 64, stateLen := 4096, prog := cmdOf ws, weights := 0x0807060504030201,
    bufs := [⟨1, true, 0, 4096⟩, ⟨0, false, 0, 64⟩, ⟨4, true, 0, 4096⟩] }

/-- The run of that image. -/
def runOf (ws : List Nat) : Machine.Run := { image := imageOf ws, frame := 500000, group := 1 }

/-- Stream 0 in slot 0 of core 0, about to issue the command. -/
def onCore (ws : List Nat) : State :=
  { act with te := { act.te with
    cores := [(0, { st := 2 })]
    models := [(0, imageOf ws)]
    streams := [(0, { loaded := true, slot := some 0, epoch := 3, run := some (runOf ws) })]
    sealedTo := 500002 } }

/-- A host program on core 0, about to issue the command. -/
def onHost (ws : List Nat) : State :=
  { act with te := { act.te with cores := [(0, { st := 2 })], host := [(0, runOf ws)] } }

/-- A ripening program on core 0, about to issue the command. -/
def onRipen (ws : List Nat) : State :=
  { act with te := { act.te with cores := [(0, { st := 2 })], ripen := [(0, runOf ws)] } }

/-- The bits of a reply as they are sent, the first lowest. -/
def sent (l : List Bool) : Nat := l.foldr (fun b n => 2 * n + b2n b) 0

/-- A node's reply of a measurement word and a status (R378). -/
def replyBits (node word0 status : Nat) : Nat :=
  let front := [false, false, false] ++ fieldBits 4 0xB
  let body := fieldBits 16 word0 ++ fieldBits 4 status
  let crc := crc8 (fieldBits 5 node ++ front ++ body)
  sent (front ++ scramble (body ++ fieldBits 8 crc))

/-- A management reply (R380). -/
def mgmtBits (node op index : Nat) (ws : List Nat) : Nat :=
  let front := [false, false, false] ++ fieldBits 4 0xB
  let body := fieldBits 5 node ++ fieldBits 3 op ++ fieldBits 2 index ++
    (ws.map (fun w => fieldBits 16 w)).flatten
  let crc := crc8 (front ++ body)
  sent (front ++ scramble (body ++ fieldBits 8 crc))

/-- A frame of a cell monitor port with its CRC. -/
def cellFrame (typ seq len payload : Nat) : CellFrame :=
  ⟨typ, seq, len, payload, crc16 (3 + len) (packBytes [(1, typ), (1, seq), (1, len), (len, payload)]), 5000⟩

/-- Node 0 is present, the holder drives, and its reply is due. -/
def withNode (n : Node) : State :=
  { act with eff := [(okey 0x1300 1, 1)], od := [(okey 0x1300 1, 1)], gw := { act.gw with nodes := [(0, n)] } }

/-- Link 0 in a state, in mode 1. -/
def withLink (l : Link) : State := { (od act 0x9001 0 1) with ferry := { act.ferry with links := [(0, l)] } }

/-- Landing 3 at berth 5 of link 0, with a committed grant. -/
def berthed : State :=
  { withLink { st := 4 } with ferry := { (withLink { st := 4 }).ferry with
    landings := [(3, { place := some (0, 5), epoch := 9, committed := true, cGrant := 1800 })] } }

/-- A record slot with a hint record of landing 3 for berth 5. -/
def hintSlot (epoch version : Nat) : Blob :=
  frameOf 0x01 16 5 (packBytes [(2, 3), (2, epoch), (1, version), (3, 0), (4, 700)])

/-- Port 0 populated, in a state. -/
def withPort (p : Port) : State := { (od act 0x5002 0 1) with cells := { act.cells with ports := [(0, p)] } }

/-- Rail in a state. -/
def withRail (j : Nat) (r : Rail) : State := { act with mpc := { act.mpc with rails := [(j, r)] } }

/-- Channel 0 of a state. -/
def withChan (c : SeChan) : State := { act with se := { act.se with chans := [(0, c)] } }

/-- A hint message of a core. -/
def aHint : HintMsg := { source := 3, level := 1000, lead := 100, duration := 100, issued := 0 }

/-- A floor record of stage 3 at 5 (R89), signed with the test key. -/
def floorRec : Nat :=
  0x51e1fd826e16db584c6599904875a7fed5be41335e0950defeee2eb49f324739e6d1576ce57b1877cc392d524302074feb8a638e5300909dbaa595cebe0aa49b83155126486dc1d5f0da59b30d6e46799c04be718dd701dbe10cef3bf07a1030000000000000000000000000000000000000000000000000000000000000005000003034458464c

/-- A key record that enrols a key in slot 4 (R91), signed with the test key. -/
def enrolRec : Nat :=
  0x4da2c885cf3c3adabd1e36b6b24ff4c651be2af709f812d96ae69bc4393d3412f747669ed2c29b8de2f3deb9b60f7b16bd827fdca8fd971c11024859e683961b83155126486dc1d5f0da59b30d6e46799c04be718dd701dbe10cef3bf07a103b3082568219f03ff4f46b20307a961eb5e62f14c0680d94c1e3f54c8a9c9c1c600000000000000090000040144584b45

/-- A key record that removes the key of slot 1 (R91), signed with the test key. -/
def removeRec : Nat :=
  0xbf763670635fd5d48db9c2725566e90acf2472eb90437f0136884bb79d6f32fb866dc0dc9e574bec50748fdce4ffdcc57654707530f253fbece63ba8272e1c9b83155126486dc1d5f0da59b30d6e46799c04be718dd701dbe10cef3bf07a103b83155126486dc1d5f0da59b30d6e46799c04be718dd701dbe10cef3bf07a10300000000000000090000010244584b45

/-- The header of a stage-3 image of four bytes (R84), signed with the test key. -/
def imageHead : Nat :=
  0x26178edf321f625b4e84eab3dc5225bc2b4440d9664db88f488fdf7c38c3831a5fe9fd3001f1c45dcc690fcf2e8fdf9f4136b299568cb7dfdab9081e60ec7056d8559244946756a00ef0fe8a693377b38bc97b27e5a20ef48a274f1330775dfa369da9ae782b79b0e142836538d6997a8678dd6fde53b56a32eef7065d70698b83155126486dc1d5f0da59b30d6e46799c04be718dd701dbe10cef3bf07a1030000000000000000000000000000000400000000000000050303000144584931

/-- Its body. -/
def imageBody : Nat :=
  0x1003713

/-- A bundle of two entries: node 0 present, rated 1 kW (R99), signed with the test key. -/
def bundle : Nat :=
  0x307eb05e32062bbba12e181e291be7fc4a28f77d20bf57a42aa0bf3f00b34a9e4555e32733ef60f9eb5c9d2e6f7d8b5db9cfbafdad2dc8e70a8f9ca8361adc5000a000200011340000000000001000400011300b83155126486dc1d5f0da59b30d6e46799c04be718dd701dbe10cef3bf07a10300000044000000070003000144584342

/-- The test key: the public half of the Ed25519 seed 00 01 ... 1F, computed outside the model. -/
def aKey : Nat :=
  0xb83155126486dc1d5f0da59b30d6e46799c04be718dd701dbe10cef3bf07a103


/-- A state whose key table holds the test key in slot 1, verified, and whose active bank holds the signed stage-3 image. -/
def keyed (s : State) : State :=
  { s with
    nvr := { s.nvr with
      keys0 := { present := true, seq := 3, data := setBytes 0 0x10 32 aKey, crc := slotCrc .keys 3 (setBytes 0 0x10 32 aKey) }
      images := [(3, { header := imageHead, body := imageBody })] }
    power := { s.power with keysVerified := 1 } }

/-- A transfer of the stage-3 image in which `n` body bytes have arrived. -/
def transferring (n : Nat) : State :=
  { keyed cold with
    nvr := { (keyed cold).nvr with images := [(7, { header := imageHead, body := imageBody, unmarked := true })] }
    power := { (keyed cold).power with imageStage := 3, imageBytes := n } }

/-- A forecast model of one END command, with a state buffer (R174, R175). -/
def modelImage : Blob :=
  packBytes [(4, 0x44584D44), (2, 1), (1, 3), (1, 0), (4, 7), (4, 4000), (4, 0), (4, 32), (4, 64), (4, 0), (1, 1),
    (1, 1), (30, 0),
    (1, 1), (1, 1), (2, 0), (4, 0), (4, 64), (4, 0), (1, 0x0F)]

/-- Core 0 runs, and the image lies at the start of the HBM window. -/
def loadable : State :=
  { act with
    te := { act.te with cores := [(0, { st := 2 })] }
    cd := { act.cd with stackCond := [(0, 1)], hbm := (({} : Mem).write 4096 0 128 modelImage).1 } }

/-- A load of stream 0 onto core 0. -/
def aLoad : Load :=
  { op := 1, first := 0, count := 1, key := 0, secure := false, plan := [(0, 0, 0, 1, 1)], layout := [], replay := false,
    ripens := none, framesLost := 0, noRoom := false }

/-- What the loader makes of the load of that image: the load and its model. -/
def aPair : Load × Model := (loadable.checkLoad (loadArg 0 0 1 1) false).2.getD (aLoad, imageOf [0])

/-! ## Signed values -/

/-- The test key is trusted wherever the verified key table holds it. -/
theorem trusted_of (s : State) (key : Blob)
    (h : [1, 2, 3, 4].any (fun k => bitAt s.power.keysVerified (k - 1) && decide (s.keyIn k = key ∧ key ≠ 0)) = true) :
    s.trusted key = true := by unfold State.trusted; rw [h, Bool.or_true]

theorem sigOk_of (s : State) (key : Blob) (n : Nat) (msg sig : Blob) (h : s.trusted key = true)
    (k : edVerify key n msg sig = true) : s.sigOk key n msg sig = true := by unfold State.sigOk; rw [h, k]; rfl

/-- An unsigned request of the host whose value carries its own signature is admitted. -/
theorem admits_own {s : State} {i k n v : Nat} (h : i < 65536 ∧ k < 256 ∧ n < 65536 ∧ v < 2 ^ (8 * n))
    (ht : s.takesFrom hostHead = true) (ha : (headAsk hostHead i k n v).headStatus = stOk)
    (ho : (s.arrival hostHead i k n v).ownSigOk (headAsk hostHead i k n v) = true)
    (hr : andThen ((s.arrival hostHead i k n v).stateStatus (headAsk hostHead i k n v))
      (andThen ((s.arrival hostHead i k n v).loopStatusOf (headAsk hostHead i k n v))
        (andThen ((s.arrival hostHead i k n v).busyStatus (headAsk hostHead i k n v) true)
          ((s.arrival hostHead i k n v).rangeStatus (headAsk hostHead i k n v)))) = stOk) :
    s.admits hostHead i k n v := by
  refine ⟨rfl, h, ⟨ht, rfl⟩, ?_⟩
  have hs : (s.arrival hostHead i k n v).signStatus (headAsk hostHead i k n v) = stOk := by
    unfold State.signStatus
    rw [ho, show State.trailerOk _ (headAsk hostHead i k n v) = true from rfl]; rfl
  unfold State.writeStatus State.bodyStatus
  rw [ha, hs, hr]; rfl

theorem admits_floor : (keyed act).admits hostHead 0xB013 4 136 floorRec :=
  admits_own (by decide +kernel) (by decide +kernel) (by decide +kernel)
    (by unfold State.ownSigOk; rw [if_neg (by decide), if_pos (by decide)]
        exact sigOk_of _ _ _ _ _ (trusted_of _ _ (by decide +kernel)) (by decide +kernel))
    (by decide +kernel)

theorem admits_enrol : (keyed act).admits hostHead 0xB011 0 144 enrolRec :=
  admits_own (by decide +kernel) (by decide +kernel) (by decide +kernel)
    (by unfold State.ownSigOk; rw [if_pos (by decide)]
        exact sigOk_of _ _ _ _ _ (trusted_of _ _ (by decide +kernel)) (by decide +kernel))
    (by decide +kernel)

theorem admits_remove : ({ keyed act with nvr := { (keyed act).nvr with images := [] } } : State).admits hostHead 0xB011 0 144 removeRec :=
  admits_own (by decide +kernel) (by decide +kernel) (by decide +kernel)
    (by unfold State.ownSigOk; rw [if_pos (by decide)]
        exact sigOk_of _ _ _ _ _ (trusted_of _ _ (by decide +kernel)) (by decide +kernel))
    (by decide +kernel)

theorem admits_image : (keyed cold).admits hostHead 0xB070 0 256 imageHead :=
  admits_own (by decide +kernel) (by decide +kernel) (by decide +kernel)
    (by unfold State.ownSigOk; rw [if_neg (by decide), if_neg (by decide), if_pos (by decide)]
        exact sigOk_of _ _ _ _ _ (trusted_of _ _ (by decide +kernel)) (by decide +kernel))
    (by decide +kernel)

theorem admits_bundle : (keyed act).admits hostHead 0xB080 0 65535 bundle :=
  admits_own (by decide +kernel) (by decide +kernel) (by decide +kernel)
    (by unfold State.ownSigOk State.bundleSigOk
        rw [if_neg (by decide), if_neg (by decide), if_neg (by decide), if_pos (by decide)]
        exact (Bool.and_eq_true _ _).mpr ⟨by decide +kernel,
          sigOk_of _ _ _ _ _ (trusted_of _ _ (by decide +kernel)) (by decide +kernel)⟩)
    (by decide +kernel)

/-- The CD is due and the signed stage-3 image stands in the active bank. -/
def startable : State := keyed { act with cd := { due := true }, intake := 20000000 }

theorem stage3_cond : startable.imageCond 3 { header := imageHead, body := imageBody } = 0 := by
  have ht : startable.trusted aKey = true := trusted_of _ _ (by decide +kernel)
  have hk : bytesAt imageHead 0x20 32 = aKey := by decide +kernel
  unfold State.imageCond
  dsimp only
  rw [hk, ht, sigOk_of startable aKey 0x80 _ _ ht (by decide +kernel), if_neg (by decide +kernel),
    if_neg (by decide +kernel),
    if_neg (by decide +kernel), if_neg (by decide), if_neg (by decide), if_neg (by decide +kernel),
      if_neg (by decide +kernel)]

/-- The signed stage-3 image of the active bank meets every condition of R85. -/
theorem stage3_good : (startable.runStage 3).1 = true := by
  have hb : ([startable.nvr.active 3, 1 - startable.nvr.active 3].filter
    (fun b => !(startable.nvr.image b 3).unmarked)) = [0, 1] := by decide +kernel
  have hi : startable.nvr.image 0 3 = { header := imageHead, body := imageBody } := by decide +kernel
  have htr : startable.onTrial 3 = false := by decide +kernel
  unfold State.runStage
  simp only [htr, Bool.false_eq_true, if_false, hb, List.map_cons, hi, stage3_cond, List.find?_cons, decide_true]

/-! ## Witnesses: a state and operands for every clause of every statement with hypotheses -/

theorem witness_StepAndIdle :
    (∃ (s : State), s.pending = []) :=
  ⟨act, by decide +kernel⟩

theorem witness_LogLimit :
    (∃ (s : State), s.log.inPeriod < 32) ∧
    (∃ (s : State), 32 ≤ s.log.inPeriod) ∧
    (∃ (s : State), ∃ (n : Nat), ∃ (source : Nat), ∃ (event : Nat), s.log.second = s.second ∧
      n ≤ tabGet 0 s.log.perSecond (event * 4096 + source)) ∧
    (∃ (s : State), ∃ (n : Nat), ∃ (source : Nat), ∃ (event : Nat), s.log.second = s.second ∧
      tabGet 0 s.log.perSecond (event * 4096 + source) < n) ∧
    (∃ (s : State), s.up = true) :=
  ⟨⟨act, by decide +kernel⟩,
   ⟨{ act with log := { act.log with inPeriod := 32 } }, by decide +kernel⟩,
   ⟨act, 0, 0, 0, by decide +kernel⟩,
   ⟨act, 1, 0, 0, by decide +kernel⟩,
   ⟨cold, by decide +kernel⟩⟩

theorem witness_InputEntersRange :
    (∃ (s : State), ∃ (b : BootInputs), s.mode = .off ∧ b.highSideShort = none) ∧
    (∃ (s : State), ∃ (b : BootInputs), ∃ (j : Nat), s.mode = .off ∧ b.highSideShort = some j ∧ j < 5) ∧
    (∃ (s : State), s.mode ≠ .off) :=
  ⟨⟨State.reset, boots, by decide +kernel⟩,
   ⟨State.reset, { boots with highSideShort := some 4 }, 4, by decide +kernel⟩,
   ⟨act, by decide +kernel⟩⟩

theorem witness_BootProgress :
    (∃ (s : State), s.mode = .boot ∧ s.power.bootStopped = false ∧ s.power.watchDone = false ∧
      s.power.leaving = false) ∧
    (∃ (s : State), s.mode = .boot ∧ s.power.servicesUp = true ∧ s.power.watchDone = true ∧
      s.power.bootStopped = false ∧ s.power.leaving = false) ∧
    (∃ (s : State), s.up = true) ∧
    (∃ (s : State), s.mode = .boot ∧ s.power.bootStopped = false ∧ s.power.leaving = false ∧ 2 ≤ s.power.bootExpiries) ∧
    (∃ (s : State), s.mode = .boot ∧ s.power.bootStopped = false ∧ s.power.leaving = false ∧ s.power.bootExpiries < 2) ∧
    (∃ (s : State), ∃ (v : Nat), s.up = true ∧ s.mode ≠ .boot ∧ s.power.straps ≠ v % 16) ∧
    (∃ (s : State), ∃ (v : Nat), s.mode = .boot ∧ s.power.straps ≠ v % 16) :=
  ⟨⟨{ booting with power := { booting.power with watchDone := false } }, by decide +kernel⟩,
   ⟨booting, by decide +kernel⟩,
   ⟨act, by decide +kernel⟩,
   ⟨{ booting with power := { booting.power with bootExpiries := 2 } }, by decide +kernel⟩,
   ⟨{ booting with power := { booting.power with bootExpiries := 1 } }, by decide +kernel⟩,
   ⟨act, 15, by decide +kernel⟩,
   ⟨booting, 15, by decide +kernel⟩⟩

theorem witness_ShutdownFaults :
    (∃ (s : State), s.up = true ∧ s.mode ≠ .boot ∧ s.power.kickAt + 100000 ≤ s.intake) ∧
    (∃ (s : State), s.up = true) ∧
    (∃ (s : State), s.power.inRange = true ∧ s.power.leaving = false ∧ s.nvr.busy .fault = false ∧
      s.nvr.writing = none) :=
  ⟨⟨act, by decide +kernel⟩,
   ⟨act, by decide +kernel⟩,
   ⟨act, by decide +kernel⟩⟩

theorem witness_InputRange :
    (∃ (s : State), ∃ (mv : Nat), s.mode ≠ .off ∧ s.power.leaving = false ∧ s.power.mateHigh = false ∧ 48000 ≤ mv ∧
      mv ≤ 61000) ∧
    (∃ (s : State), ∃ (mv : Nat), s.mode ≠ .off ∧ s.power.leaving = false ∧ s.power.mateHigh = false ∧ 44000 ≤ mv ∧
      mv < 48000 ∧ s.power.lowTicks < 2000) ∧
    (∃ (s : State), ∃ (mv : Nat), s.mode ≠ .off ∧ s.power.leaving = false ∧ s.nvr.writing = none ∧
      (mv < 44000 ∨ 61000 < mv)) ∧
    (∃ (s : State), s.mode ≠ .off ∧ s.power.leaving = false ∧ s.nvr.writing = none ∧ s.power.inputLow = true ∧
      2000 ≤ s.power.lowTicks) ∧
    (∃ (s : State), ∃ ns, s.mode ≠ .off ∧ s.power.leaving = false ∧ s.nvr.writing = none ∧ 10000 ≤ ns) ∧
    (∃ (s : State), s.mode ≠ .off ∧ s.power.leaving = false ∧ s.nvr.writing = none) ∧
    (∃ (s : State), ∃ (w : NvrWrite), s.mode ≠ .off ∧ s.power.leaving = false ∧ s.nvr.writing = some w) ∧
    (∃ (s : State), ∃ (w : NvrWrite), s.power.leaving = true ∧ s.nvr.writing = some w) :=
  ⟨⟨act, 61000, by decide +kernel⟩,
   ⟨{ act with power := { act.power with lowTicks := 1999 } }, 47999, by decide +kernel⟩,
   ⟨act, 61001, by decide +kernel⟩,
   ⟨{ act with power := { act.power with inputLow := true, lowTicks := 2000 } }, by decide +kernel⟩,
   ⟨act, 10000, by decide +kernel⟩,
   ⟨act, by decide +kernel⟩,
   ⟨{ act with nvr := { act.nvr with writing := some ⟨.floors, 1, 5⟩ } }, ⟨.floors, 1, 5⟩, by decide +kernel⟩,
   ⟨{ act with power := { act.power with leaving := true }, nvr := { act.nvr with writing := some ⟨.floors, 1, 5⟩ } },
     ⟨.floors, 1, 5⟩, by decide +kernel⟩⟩

theorem witness_NvrRecords :
    (∃ (s : State), ∃ (w : NvrWrite), s.up = true ∧ s.power.leaving = false ∧ s.nvr.writing = some w ∧
      w.kind = .floors) ∧
    (∃ (s : State), ∃ (h : ReqHead), ∃ (r : Nat), s.admits h 0xB013 4 136 r) ∧
    (∃ (s : State), ∃ (h : ReqHead), ∃ (r : Nat), bytesAt r 4 1 = 1 ∧ s.admits h 0xB011 0 144 r) ∧
    (∃ (s : State), ∃ (h : ReqHead), ∃ (r : Nat), bytesAt r 4 1 ≠ 1 ∧ s.admits h 0xB011 0 144 r) :=
  ⟨⟨{ act with nvr := { act.nvr with writing := some ⟨.floors, 1, 5⟩ } }, ⟨.floors, 1, 5⟩, by decide +kernel⟩,
   ⟨keyed act, hostHead, floorRec, admits_floor⟩,
   ⟨keyed act, hostHead, enrolRec, by decide +kernel, admits_enrol⟩,
   ⟨{ keyed act with nvr := { (keyed act).nvr with images := [] } }, hostHead, removeRec, by decide +kernel,
     admits_remove⟩⟩

theorem witness_ImageTransfer :
    (∃ (s : State), ∃ (h : ReqHead), ∃ (header : Nat), s.admits h 0xB070 0 256 header) ∧
    (∃ (s : State), ∃ (h : ReqHead), ∃ (offset : Nat), ∃ (reserved : Nat), ∃ (body : Nat),
      s.admits h 0xB071 0 32776 (packBytes [(4, offset), (4, reserved), (32768, body)])) ∧
    (∃ (s : State), ∃ (h : ReqHead), ∃ (arg : Nat), s.admits h 0xB072 0 1 arg ∧ bitAt arg 7 = false ∧
      (s.arrival h 0xB072 0 1 arg).imageGood = true) ∧
    (∃ (s : State), ∃ (h : ReqHead), ∃ (arg : Nat), ∃ (c : State), s.admits h 0xB072 0 1 arg ∧ bitAt arg 7 = true ∧
      (s.arrival h 0xB072 0 1 arg).imageGood = true ∧
      c = done 0xB072 0 (fun s => s.imageMark) (s.arrival h 0xB072 0 1 arg)) ∧
    (∃ (s : State), ∃ (h : ReqHead), ∃ (arg : Nat), s.admits h 0xB072 0 1 arg ∧
      (s.arrival h 0xB072 0 1 arg).imageGood = false) ∧
    (∃ (header : Nat), ∃ stage, stage = bytesAt header 6 1) ∧
    (∃ (s : State), s.services = true ∧ s.power.imageStage ≠ 0) ∧
    (∃ (s : State), s.services = true ∧ s.power.imageStage = 0) :=
  ⟨⟨keyed cold, hostHead, imageHead, admits_image⟩,
   ⟨transferring 0, hostHead, 0, 0, imageBody, by unfold State.admits; decide +kernel⟩,
   ⟨transferring 4, hostHead, 3, by unfold State.admits; decide +kernel, by decide +kernel, by decide +kernel⟩,
   ⟨transferring 4, hostHead, 0x83, _, by unfold State.admits; decide +kernel, by decide +kernel, by decide +kernel,
     rfl⟩,
   ⟨{ transferring 4 with nvr := { (transferring 4).nvr with images := [(7, { header := imageHead, body := 5, unmarked := true })] } },
     hostHead, 3, by unfold State.admits; decide +kernel, by decide +kernel⟩,
   ⟨imageHead, _, rfl⟩,
   ⟨transferring 2, by decide +kernel⟩,
   ⟨cold, by decide +kernel⟩⟩

theorem witness_BundlesAndRegions :
    (∃ (s : State), ∃ (h : ReqHead), ∃ (b : Nat), s.admits h 0xB080 0 65535 b) ∧
    (∃ (s : State), ∃ (b : Nat), s.services = true ∧ s.power.bundleWaiting = some b ∧ s.power.bundleStored = true) ∧
    (∃ (s : State), s.services = true) :=
  ⟨⟨keyed act, hostHead, bundle, admits_bundle⟩,
   ⟨{ act with power := { act.power with bundleWaiting := some 0, bundleStored := true } }, 0, by decide +kernel⟩,
   ⟨act, by decide +kernel⟩⟩

theorem witness_Clocks :
    (∃ (s : State), s.up = true ∧ s.cd.running = true) ∧
    (∃ (s : State), s.services = true) ∧
    (∃ (s : State), s.services = true) ∧
    (∃ (s : State), s.up = true) ∧
    (∃ (s : State), s.up = true) ∧
    (∃ (s : State), s.up = true) ∧
    (∃ (s : State), ∃ (p : Nat), s.up = true ∧ s.cd.running = true ∧ s.mayRun p = true ∧ s.clk.target = none ∧
      p ≠ s.clk.point) ∧
    (∃ (s : State), ∃ (t : Nat), s.up = true ∧ s.clk.target = some t ∧ s.clk.divider + 1 < pointSteps t) ∧
    (∃ (s : State), ∃ (t : Nat), s.up = true ∧ s.clk.target = some t ∧ pointSteps t + 1 < s.clk.divider) ∧
    (∃ (s : State), ∃ (t : Nat), s.up = true ∧ s.clk.target = some t ∧ s.clk.nextTarget = none ∧
      (s.clk.divider + 1 = pointSteps t ∨ s.clk.divider = pointSteps t + 1)) ∧
    (∃ (s : State), ∃ (h : ReqHead), ∃ (p : Nat), s.admits h 0xB062 0 1 p) :=
  ⟨⟨act, by decide +kernel⟩,
   ⟨act, by decide +kernel⟩,
   ⟨act, by decide +kernel⟩,
   ⟨act, by decide +kernel⟩,
   ⟨act, by decide +kernel⟩,
   ⟨act, by decide +kernel⟩,
   ⟨od act 0xB062 0 5, 5, by decide +kernel⟩,
   ⟨{ act with clk := { act.clk with target := some 7, divider := pointSteps 7 - 2 } }, 7, by decide +kernel⟩,
   ⟨{ act with clk := { act.clk with target := some 5, divider := pointSteps 5 + 2 } }, 5, by decide +kernel⟩,
   ⟨{ act with clk := { act.clk with target := some 5, divider := pointSteps 5 + 1 } }, 5, by decide +kernel⟩,
   ⟨act, hostHead, 0, by unfold State.admits; decide +kernel⟩⟩

theorem witness_CdStartAndStop :
    (∃ (s : State), ∃ (inp : CdStartInputs), s.up = true ∧ s.cdMayStart = true ∧ inp.highSideShort = none ∧
      (s.runStage 3).1 = true) ∧
    (∃ (s : State), ∃ (inp : CdStartInputs), s.up = true ∧ s.cdMayStart = true ∧ inp.highSideShort = none ∧
      (s.runStage 3).1 = false) ∧
    (∃ (s : State), ∃ (h : ReqHead), s.admits h 0x3104 0 1 1) ∧
    (∃ (s : State), ∃ (h : ReqHead), s.admits h 0x3104 0 1 2) ∧
    (∃ (s : State), s.up = true ∧ s.power.flowLost = false) ∧
    (∃ (s : State), s.up = true ∧ s.power.flowOk = false) :=
  ⟨⟨startable, ⟨none, [], []⟩, by decide +kernel, by decide +kernel, by decide +kernel, stage3_good⟩,
   ⟨{ act with cd := { due := true }, intake := 20000000 }, ⟨none, [], []⟩, by decide +kernel⟩,
   ⟨act, hostHead, by unfold State.admits; decide +kernel⟩,
   ⟨{ act with cd := { act.cd with running := false, hostStop := true } }, hostHead,
     by unfold State.admits; decide +kernel⟩,
   ⟨act, by decide +kernel⟩,
   ⟨{ act with power := { act.power with flowOk := false } }, by decide +kernel⟩⟩

theorem witness_GangwayFrames :
    (∃ (s : State), s.up = true) ∧
    (∃ (s : State), s.mode = .standbyCold ∧ s.power.restart = none) ∧
    (∃ (s : State), ∃ (a : Nat), ∃ (bits : Nat), ∃ (word0 : Nat), ∃ (status : Nat), ∃ (u : State),
      s.services = true ∧ s.replyDue a = true ∧ parseReply a bits = some (word0, status) ∧
      u = State.setNode { s with out := [] } a (fun n => { n with missRun := 0, fresh := true, lastStatus := status, words := putWord n.words 0 word0, power := s.powerSignal a word0 }) ∧
      ((s.node a).inService = true → (bitAt status 0 && !bitAt status 1) = true) ∧ ((s.node a).inService = false →
      (bitAt status 0 && !bitAt status 1) = false ∨ (s.node a).enabled = false ∨ (s.node a).differs = true)) ∧
    (∃ (s : State), ∃ (a : Nat), ∃ (bits : Nat), ∃ (word0 : Nat), ∃ (status : Nat), ∃ (u : State),
      s.services = true ∧ s.replyDue a = true ∧ parseReply a bits = some (word0, status) ∧
      u = State.setNode { s with out := [] } a (fun n => { n with missRun := 0, fresh := true, lastStatus := status, words := putWord n.words 0 word0, power := s.powerSignal a word0 }) ∧
      (s.node a).inService = true ∧ (bitAt status 0 && !bitAt status 1) = false) ∧
    (∃ (s : State), ∃ (a : Nat), ∃ (bits : Nat), ∃ (word0 : Nat), ∃ (status : Nat), ∃ (u : State),
      s.services = true ∧ s.replyDue a = true ∧ parseReply a bits = some (word0, status) ∧
      u = State.setNode { s with out := [] } a (fun n => { n with missRun := 0, fresh := true, lastStatus := status, words := putWord n.words 0 word0, power := s.powerSignal a word0 }) ∧
      (s.node a).inService = false ∧ (bitAt status 0 && !bitAt status 1) = true ∧ (s.node a).enabled = true ∧
      (s.node a).differs = false) ∧
    (∃ (s : State), ∃ (a : Nat), ∃ (b : Option Nat), s.services = true ∧ s.replyDue a = true ∧
      b.bind (parseReply a) = none) ∧
    (∃ (s : State), ∃ (a : Nat), s.services = true ∧ s.replyDue a = false) :=
  ⟨⟨act, by decide +kernel⟩,
   ⟨cold, by decide +kernel⟩,
   ⟨withNode { inService := true, enabled := true, lastStatus := 1 }, 0, (replyBits 0 0x1234 1), 0x1234, 1, _,
     by decide +kernel, by decide +kernel, by decide +kernel, rfl, by decide +kernel, by decide +kernel⟩,
   ⟨withNode { inService := true, enabled := true }, 0, (replyBits 0 0x1234 2), 0x1234, 2, _, by decide +kernel,
     by decide +kernel, by decide +kernel, rfl, by decide +kernel, by decide +kernel⟩,
   ⟨withNode { enabled := true }, 0, (replyBits 0 0x1234 1), 0x1234, 1, _, by decide +kernel, by decide +kernel,
     by decide +kernel, rfl, by decide +kernel, by decide +kernel, by decide +kernel, by decide +kernel⟩,
   ⟨withNode { inService := true, missRun := 2 }, 0, none, by decide +kernel⟩,
   ⟨act, 0, by decide +kernel⟩⟩

theorem witness_NodeManagement :
    (∃ (s : State), ∃ (a : Nat), ∃ (bits : Nat), ∃ (vs : List Nat), s.services = true ∧ s.gw.mgmtNode = some a ∧
      s.gw.mgmtOp.op = 0 ∧ s.gw.mgmtIndex ≠ 2 ∧ parseMgmt bits = some (a, 0, s.gw.mgmtIndex, vs)) ∧
    (∃ (s : State), ∃ (a : Nat), ∃ (bits : Nat), ∃ (index : Nat), ∃ (data : Nat), ∃ (vs : List Nat),
      s.services = true ∧ s.gw.mgmtNode = some a ∧ s.gw.mgmtOp = ⟨4, data⟩ ∧ parseMgmt bits = some (a, 0, index, vs)) ∧
    (∃ (node : Nat), node < 32) ∧
    (∃ (s : State), ∃ (h : ReqHead), ∃ (node : Nat), node < 32 ∧ s.admits h 0x1320 0 2 (nodeArg node 0)) ∧
    (∃ (s : State), ∃ (h : ReqHead), ∃ (node : Nat), node < 32 ∧ s.admits h 0x1320 0 2 (nodeArg node 1)) ∧
    (∃ (s : State), ∃ (h : ReqHead), ∃ (node : Nat), node < 32 ∧ s.admits h 0x1320 0 2 (nodeArg node 2)) :=
  ⟨⟨{ act with gw := { act.gw with mgmtNode := some 0, mgmtIndex := 3 } }, 0, (mgmtBits 0 0 3 [1, 2, 3, 4]), [1, 2,
    3, 4], by decide +kernel⟩,
   ⟨{ act with gw := { act.gw with mgmtNode := some 0, mgmtOp := ⟨4, 1⟩, nodes := [(0, { ops := [⟨4, 1⟩] })] } }, 0,
     (mgmtBits 0 0 0 [1, 2, 3, 4]), 0, 1, [1, 2, 3, 4], by decide +kernel⟩,
   ⟨0, by decide +kernel⟩,
   ⟨{ act with eff := [(okey 0x1300 1, 2 ^ 24 - 1)] }, hostHead, 23, by decide +kernel,
     by unfold State.admits; decide +kernel⟩,
   ⟨{ act with eff := [(okey 0x1300 1, 2 ^ 24 - 1)] }, hostHead, 23, by decide +kernel,
     by unfold State.admits; decide +kernel⟩,
   ⟨{ act with eff := [(okey 0x1300 1, 2 ^ 24 - 1)] }, hostHead, 23, by decide +kernel,
     by unfold State.admits; decide +kernel⟩⟩

theorem witness_SafeHold :
    (∃ (s : State), s.mode = .safeHold ∧ s.hold.limit = false ∧ s.hold.conflict = false ∧ s.hold.release = true ∧
      s.power.leaving = false ∧ s.red.lost = false) ∧
    (∃ (s : State), s.mode = .active ∧ s.red.closeDue = false ∧ s.hold.hostDue = true ∧ s.power.leaving = false ∧
      s.red.lost = false) ∧
    (∃ (s : State), ∃ (h : ReqHead), s.admits h 0xC002 0 1 1) ∧
    (∃ (s : State), ∃ (h : ReqHead), s.admits h 0xC002 0 1 2) ∧
    (∃ (s : State), s.mode = .safeHold ∧ s.hold.limit = false ∧ s.lastTransition + 37500 ≤ s.frame) :=
  ⟨⟨{ holding with hold := { holding.hold with release := true } }, by decide +kernel⟩,
   ⟨{ act with hold := { act.hold with hostDue := true } }, by decide +kernel⟩,
   ⟨act, hostHead, by unfold State.admits; decide +kernel⟩,
   ⟨holding, hostHead, by unfold State.admits; decide +kernel⟩,
   ⟨holding, by decide +kernel⟩⟩

theorem witness_IntakeBanks :
    (∃ (s : State), s.up = true) ∧
    (∃ (s : State), s.up = true ∧ s.cd.running = true ∧ s.intake ≠ 0) :=
  ⟨⟨act, by decide +kernel⟩,
   ⟨act, by decide +kernel⟩⟩

theorem witness_BankReuse :
    (∃ (s : State), ∃ (c : Nat), ∃ (ended : List Nat), s.up = true ∧
      ended = (s.streamsOn c).filter (fun n => (s.stream n).run.any (fun r => decide (r.frame + 7 < s.intake)))) :=
  ⟨onCore [], 0, _, by decide +kernel, rfl⟩

theorem witness_ScalarCommands :
    (∃ (s : State), ∃ (p : ProgRef), ∃ (u : State), ∃ (c : Nat), ∃ (r : Machine.Run), ∃ (cmd : Blob),
      State.issue { s with out := [] } p = (u, some (c, r, cmd)) ∧ cmdOp cmd = 0x00) ∧
    (∃ (s : State), ∃ (p : ProgRef), ∃ (u : State), ∃ (c : Nat), ∃ (r : Machine.Run), ∃ (cmd : Blob),
      ∃ (taken : Bool), State.issue { s with out := [] } p = (u, some (c, r, cmd)) ∧ cmdOp cmd = 0x06 ∧
      taken = (match cmdSub cmd with
        | 0 => decide (r.reg (fld (cmdWord cmd 1) 0 4) = cmdWord cmd 2)
        | 1 => decide (r.reg (fld (cmdWord cmd 1) 0 4) ≠ cmdWord cmd 2)
        | 2 => decide (r.reg (fld (cmdWord cmd 1) 0 4) < cmdWord cmd 2)
        | _ => decide (cmdWord cmd 2 ≤ r.reg (fld (cmdWord cmd 1) 0 4)))) ∧
    (∃ (s : State), ∃ (p : ProgRef), ∃ (u : State), ∃ (c : Nat), ∃ (r : Machine.Run), ∃ (cmd : Blob),
      State.issue { s with out := [] } p = (u, some (c, r, cmd)) ∧ cmdOp cmd = 0x05 ∧
      State.waitsForSeal { s with out := [] } r cmd = false ∧ r.inBounds cmd = true ∧ cmdSub cmd = 0) ∧
    (∃ (s : State), ∃ (p : ProgRef), ∃ (u : State), ∃ (c : Nat), ∃ (r : Machine.Run), ∃ (cmd : Blob),
      State.issue { s with out := [] } p = (u, some (c, r, cmd)) ∧ cmdOp cmd = 0x05 ∧
      State.waitsForSeal { s with out := [] } r cmd = false ∧ r.inBounds cmd = true ∧ cmdSub cmd = 1) ∧
    (∃ (s : State), ∃ (p : ProgRef), ∃ (u : State), ∃ (c : Nat), ∃ (r : Machine.Run), ∃ (cmd : Blob),
      State.issue { s with out := [] } p = (u, some (c, r, cmd)) ∧ cmdOp cmd = 0x05 ∧
      State.waitsForSeal { s with out := [] } r cmd = false ∧ r.inBounds cmd = true ∧ cmdSub cmd = 3) ∧
    (∃ (s : State), ∃ (p : ProgRef), ∃ (u : State), ∃ (c : Nat), ∃ (r : Machine.Run), ∃ (cmd : Blob), ∃ (g : Got),
      State.issue { s with out := [] } p = (u, some (c, r, cmd)) ∧ cmdOp cmd = 0x05 ∧
      State.waitsForSeal { s with out := [] } r cmd = false ∧ r.inBounds cmd = true ∧ cmdSub cmd = 2 ∧
      g = u.operand p c r cmd 1 4 ∧ g.ok = true ∧ g.s.coreRunning c = true) :=
  ⟨⟨onCore [0], (.stream 0), (State.issue { (onCore [0]) with out := [] } (.stream 0)).1, 0, (runOf [0]),
    ((runOf [0]).image.cmd 0), by decide +kernel⟩,
   ⟨onCore [0x06, 0, 0, 3], (.stream 0), (State.issue { (onCore [0x06, 0, 0, 3]) with out := [] } (.stream 0)).1, 0,
     (runOf [0x06, 0, 0, 3]), ((runOf [0x06, 0, 0, 3]).image.cmd 0), _, by decide +kernel, by decide +kernel, rfl⟩,
   ⟨onCore [0x05, 2, 9], (.stream 0), (State.issue { (onCore [0x05, 2, 9]) with out := [] } (.stream 0)).1, 0,
     (runOf [0x05, 2, 9]), ((runOf [0x05, 2, 9]).image.cmd 0), by decide +kernel⟩,
   ⟨onCore [0x100005, 2, 9], (.stream 0), (State.issue { (onCore [0x100005, 2, 9]) with out := [] } (.stream 0)).1,
     0, (runOf [0x100005, 2, 9]), ((runOf [0x100005, 2, 9]).image.cmd 0), by decide +kernel⟩,
   ⟨onCore [0x300005, 2, 9], (.stream 0), (State.issue { (onCore [0x300005, 2, 9]) with out := [] } (.stream 0)).1,
     0, (runOf [0x300005, 2, 9]), ((runOf [0x300005, 2, 9]).image.cmd 0), by decide +kernel⟩,
   ⟨onCore [0x200005, 0, 0, 0, 0], (.stream 0),
     (State.issue { (onCore [0x200005, 0, 0, 0, 0]) with out := [] } (.stream 0)).1, 0, (runOf [0x200005, 0, 0, 0,
     0]), ((runOf [0x200005, 0, 0, 0, 0]).image.cmd 0), _, by decide +kernel, by decide +kernel, by decide +kernel,
     by decide +kernel, by decide +kernel, rfl, by decide +kernel, by decide +kernel⟩⟩

theorem witness_ArrayCommands :
    (∃ (s : State), ∃ (p : ProgRef), ∃ (u : State), ∃ (c : Nat), ∃ (r : Machine.Run), ∃ (cmd : Blob), ∃ got,
      State.issue { s with out := [] } p = (u, some (c, r, cmd)) ∧
      State.waitsForSeal { s with out := [] } r cmd = false ∧ r.inBounds cmd = true ∧ (cmdOp cmd ≤ 2 →
      State.held { s with out := [] } r = false) ∧ cmdOp cmd = 0x03 ∧ got = readAll u p c r cmd [(1,
      (countOf r.reg (cmdWord cmd 5)))]) ∧
    (∃ (s : State), ∃ (p : ProgRef), ∃ (u : State), ∃ (c : Nat), ∃ (r : Machine.Run), ∃ (cmd : Blob),
      ∃ (v : Bool × Bool × Bool), ∃ got, State.issue { s with out := [] } p = (u, some (c, r, cmd)) ∧
      State.waitsForSeal { s with out := [] } r cmd = false ∧ r.inBounds cmd = true ∧ (cmdOp cmd ≤ 2 →
      State.held { s with out := [] } r = false) ∧ cmdOp cmd = 0x02 ∧ v = vecUses (cmdSub cmd) ∧
      got = readAll u p c r cmd [(1, rowBytes (cmdFa cmd) (countOf r.reg (cmdWord cmd 5))), (2,
      if v.2.1 then rowBytes (cmdFb cmd) (countOf r.reg (cmdWord cmd 5)) else 0), (4,
      if v.2.2 then rowBytes (cmdFo cmd) (countOf r.reg (cmdWord cmd 5)) else 0)]) ∧
    (∃ (s : State), ∃ (p : ProgRef), ∃ (u : State), ∃ (c : Nat), ∃ (r : Machine.Run), ∃ (cmd : Blob), ∃ got,
      State.issue { s with out := [] } p = (u, some (c, r, cmd)) ∧
      State.waitsForSeal { s with out := [] } r cmd = false ∧ r.inBounds cmd = true ∧ (cmdOp cmd ≤ 2 →
      State.held { s with out := [] } r = false) ∧ cmdOp cmd = 0x01 ∧ (countOf r.reg (cmdWord cmd 6)) ≠ 0 ∧
      (countOf r.reg (cmdWord cmd 7)) ≠ 0 ∧ (cmdFa cmd ≠ 6 ∨ (countOf r.reg (cmdWord cmd 5)) % 16 = 0) ∧
      got = readAll u p c r cmd (((usesAt cmd r.reg).filter (fun x => !x.write)).map (fun x => (x.word, x.len)))) ∧
    (∃ (s : State), ∃ (p : ProgRef), ∃ (u : State), ∃ (c : Nat), ∃ (r : Machine.Run), ∃ (cmd : Blob), ∃ got,
      State.issue { s with out := [] } p = (u, some (c, r, cmd)) ∧
      State.waitsForSeal { s with out := [] } r cmd = false ∧ r.inBounds cmd = true ∧ (cmdOp cmd ≤ 2 →
      State.held { s with out := [] } r = false) ∧ cmdOp cmd = 0x01 ∧
      ((countOf r.reg (cmdWord cmd 6)) = 0 ∨ (countOf r.reg (cmdWord cmd 7)) = 0) ∧
      (cmdFa cmd ≠ 6 ∨ (countOf r.reg (cmdWord cmd 5)) % 16 = 0) ∧
      got = readAll u p c r cmd (((usesAt cmd r.reg).filter (fun x => !x.write)).map (fun x => (x.word, x.len))) ∧
      got.2.2 = true ∧ got.1.coreRunning c = true) ∧
    (∃ (m : TeMode), ∃ (k : Nat), ∃ (h : Nat), ∃ (w : Nat), ∃ (i : Nat), ∃ (j : Nat), m.stochastic = false ∧
      k < 2 ^ 32 ∧ i < h ∧ j < w) :=
  ⟨⟨onCore [0x03, 0x08000000, 0, 16, 0, 8], (.stream 0),
    (State.issue { (onCore [0x03, 0x08000000, 0, 16, 0, 8]) with out := [] } (.stream 0)).1, 0, (runOf [0x03,
    0x08000000, 0, 16, 0, 8]), ((runOf [0x03, 0x08000000, 0, 16, 0, 8]).image.cmd 0), _, by decide +kernel,
    by decide +kernel, by decide +kernel, by decide +kernel, by decide +kernel, rfl⟩,
   ⟨onCore [0x02, 0x08000000, 0x08000010, 64, 0, 4, 0, 0], (.stream 0),
     (State.issue { (onCore [0x02, 0x08000000, 0x08000010, 64, 0, 4, 0, 0]) with out := [] } (.stream 0)).1, 0,
     (runOf [0x02, 0x08000000, 0x08000010, 64, 0, 4, 0, 0]), ((runOf [0x02, 0x08000000, 0x08000010, 64, 0, 4, 0,
     0]).image.cmd 0), _, _, by decide +kernel, by decide +kernel, by decide +kernel, by decide +kernel,
     by decide +kernel, rfl, rfl⟩,
   ⟨onCore [0x01, 0x08000000, 0x08000010, 64, 0, 4, 1, 1], (.stream 0),
     (State.issue { (onCore [0x01, 0x08000000, 0x08000010, 64, 0, 4, 1, 1]) with out := [] } (.stream 0)).1, 0,
     (runOf [0x01, 0x08000000, 0x08000010, 64, 0, 4, 1, 1]), ((runOf [0x01, 0x08000000, 0x08000010, 64, 0, 4, 1,
     1]).image.cmd 0), _, by decide +kernel, by decide +kernel, by decide +kernel, by decide +kernel,
     by decide +kernel, by decide +kernel, by decide +kernel, by decide +kernel, rfl⟩,
   ⟨onCore [0x01, 0x08000000, 0x08000010, 64, 0, 4, 0, 1], (.stream 0),
     (State.issue { (onCore [0x01, 0x08000000, 0x08000010, 64, 0, 4, 0, 1]) with out := [] } (.stream 0)).1, 0,
     (runOf [0x01, 0x08000000, 0x08000010, 64, 0, 4, 0, 1]), ((runOf [0x01, 0x08000000, 0x08000010, 64, 0, 4, 0,
     1]).image.cmd 0), _, by decide +kernel, by decide +kernel, by decide +kernel, by decide +kernel,
     by decide +kernel, by decide +kernel, by decide +kernel, rfl, by decide +kernel, by decide +kernel⟩,
   ⟨{}, 3, 2, 2, 1, 0, by decide +kernel⟩⟩

theorem witness_GatherCommand :
    (∃ (s : State), ∃ (p : ProgRef), ∃ (u : State), ∃ (c : Nat), ∃ (r : Machine.Run), ∃ (cmd : Blob), ∃ (b : Buf),
      ∃ (ix : Got), State.issue { s with out := [] } p = (u, some (c, r, cmd)) ∧ cmdOp cmd = 0x04 ∧
      State.waitsForSeal { s with out := [] } r cmd = false ∧ r.inBounds cmd = true ∧
      State.hbmFull { s with out := [] } c = false ∧ r.image.bufs[opBuf (cmdWord cmd 1)]? = some b ∧
      ix = u.operand p c r cmd 2 (4 * (countOf r.reg (cmdWord cmd 5))) ∧ ix.ok = true ∧ ix.s.coreRunning c = true ∧
      (countOf r.reg (cmdWord cmd 6)) ≠ 0 ∧ (∃ i,
      i ∈ ((upTo (countOf r.reg (cmdWord cmd 5))).map (fun i => bytesAt ix.data (4 * i) 4)) ∧
      r.tableLen cmd / (countOf r.reg (cmdWord cmd 6)) ≤ i)) ∧
    (∃ (s : State), ∃ (p : ProgRef), ∃ (u : State), ∃ (c : Nat), ∃ (r : Machine.Run), ∃ (cmd : Blob), ∃ (b : Buf),
      ∃ (ix : Got), ∃ (got : State × List Blob × Bool), ∃ (x : Got × Machine.Run),
      State.issue { s with out := [] } p = (u, some (c, r, cmd)) ∧ cmdOp cmd = 0x04 ∧
      State.waitsForSeal { s with out := [] } r cmd = false ∧ r.inBounds cmd = true ∧
      State.hbmFull { s with out := [] } c = false ∧ r.image.bufs[opBuf (cmdWord cmd 1)]? = some b ∧
      ix = u.operand p c r cmd 2 (4 * (countOf r.reg (cmdWord cmd 5))) ∧ ix.ok = true ∧ ix.s.coreRunning c = true ∧
      (countOf r.reg (cmdWord cmd 6)) ≠ 0 ∧ (∀ i,
      i ∈ ((upTo (countOf r.reg (cmdWord cmd 5))).map (fun i => bytesAt ix.data (4 * i) 4)) →
      i < r.tableLen cmd / (countOf r.reg (cmdWord cmd 6))) ∧
      got = ((upTo (countOf r.reg (cmdWord cmd 5))).map (fun i => bytesAt ix.data (4 * i) 4)).foldl (fun (a : State × List Blob × Bool) i =>
          let g : Got := a.1.readArea p c r b.kind (b.offset + opOff r.reg (cmdWord cmd 1) + i * (countOf r.reg (cmdWord cmd 6))) (countOf r.reg (cmdWord cmd 6))
          (g.s, a.2.1 ++ [g.data], a.2.2 && g.ok)) (ix.s, [], true) ∧ got.2.2 = true ∧ got.1.coreRunning c = true ∧
            x = got.1.result p c r cmd 3 ((countOf r.reg (cmdWord cmd 5)) * (countOf r.reg (cmdWord cmd 6))) (packBytes (got.2.1.map (fun d => ((countOf r.reg (cmdWord cmd 6)),
            d)))) ∧ x.1.ok = true ∧ x.1.s.coreRunning c = true) :=
  ⟨⟨onCore [0x04, 0x08000000, 64, 128, 0, 1, 65], (.stream 0),
    (State.issue { (onCore [0x04, 0x08000000, 64, 128, 0, 1, 65]) with out := [] } (.stream 0)).1, 0, (runOf [0x04,
    0x08000000, 64, 128, 0, 1, 65]), ((runOf [0x04, 0x08000000, 64, 128, 0, 1, 65]).image.cmd 0), ⟨0, false, 0, 64⟩,
    _, by decide +kernel, by decide +kernel, by decide +kernel, by decide +kernel, by decide +kernel,
    by decide +kernel, rfl, by decide +kernel, by decide +kernel, by decide +kernel, by decide +kernel⟩,
   ⟨onCore [0x04, 0x08000000, 64, 128, 0, 1, 32], (.stream 0),
     (State.issue { (onCore [0x04, 0x08000000, 64, 128, 0, 1, 32]) with out := [] } (.stream 0)).1, 0, (runOf [0x04,
     0x08000000, 64, 128, 0, 1, 32]), ((runOf [0x04, 0x08000000, 64, 128, 0, 1, 32]).image.cmd 0), ⟨0, false, 0, 64⟩,
     _, _, _, by decide +kernel, by decide +kernel, by decide +kernel, by decide +kernel, by decide +kernel,
     by decide +kernel, rfl, by decide +kernel, by decide +kernel, by decide +kernel, by decide +kernel, rfl,
     by decide +kernel, by decide +kernel, rfl, by decide +kernel, by decide +kernel⟩⟩

theorem witness_OrderingCommands :
    (∃ (s : State), ∃ (p : ProgRef), ∃ (u : State), ∃ (c : Nat), ∃ (r : Machine.Run), ∃ (cmd : Blob),
      ∃ (msg : HintMsg), ∃ (t : State), State.issue { s with out := [] } p = (u, some (c, r, cmd)) ∧
      cmdOp cmd = 0x08 ∧
      msg = { source := c, level := fld (cmdWord cmd 2) 0 16, lead := fld (cmdWord cmd 1) 0 24, duration := fld (cmdWord cmd 3) 0 24, issued := u.timeNs, owner := some p } ∧
      t = (if u.leads p c r then u.sendHint (c / 8) msg else u)) ∧
    (∃ (s : State), ∃ (p : ProgRef), ∃ (u : State), ∃ (c : Nat), ∃ (r : Machine.Run), ∃ (cmd : Blob),
      State.issue { s with out := [] } p = (u, some (c, r, cmd)) ∧ cmdOp cmd = 0x09) ∧
    (∃ (s : State), ∃ (p : ProgRef), ∃ (u : State), ∃ (c : Nat), ∃ (r : Machine.Run), ∃ (cmd : Blob),
      State.issue { s with out := [] } p = (u, some (c, r, cmd)) ∧ cmdOp cmd = 0x0A ∧
      (u.tollsPending p = true ∨ u.writesPending p = true)) ∧
    (∃ (s : State), ∃ (p : ProgRef), ∃ (u : State), ∃ (c : Nat), ∃ (r : Machine.Run), ∃ (cmd : Blob),
      State.issue { s with out := [] } p = (u, some (c, r, cmd)) ∧ cmdOp cmd = 0x0A ∧ u.tollsPending p = false ∧
      u.writesPending p = false) ∧
    (∃ (s : State), ∃ (p : ProgRef), ∃ (ident : Nat), ∃ (q : Machine.Run),
      State.progRun { s with out := [] } p = some q ∧ q.barrier ≠ some ident) ∧
    (∃ (s : State), ∃ (p : ProgRef), ∃ (ident : Nat), ∃ (q : Machine.Run), ∃ (mark : Machine.Run → Machine.Run),
      State.progRun { s with out := [] } p = some q ∧ q.barrier = some ident ∧
      (mark = (fun x => if 16 ≤ ident ∨ x.core / 8 = q.core / 8 then { x with broken := ordInsert x.broken ident } else x))) :=
  ⟨⟨onCore [0x08, 5, 7, 9], (.stream 0), (State.issue { (onCore [0x08, 5, 7, 9]) with out := [] } (.stream 0)).1, 0,
    (runOf [0x08, 5, 7, 9]), ((runOf [0x08, 5, 7, 9]).image.cmd 0), _, _, by decide +kernel, by decide +kernel, rfl,
    rfl⟩,
   ⟨onCore [0x09, 4], (.stream 0), (State.issue { (onCore [0x09, 4]) with out := [] } (.stream 0)).1, 0,
     (runOf [0x09, 4]), ((runOf [0x09, 4]).image.cmd 0), by decide +kernel⟩,
   ⟨{ onCore [0x0A, 3] with te := { (onCore [0x0A, 3]).te with emitQ := [(0, resultOf 0 3 500000 0 0 false)], credits := [(128, 1)] } },
     (.stream 0),
     (State.issue { ({ onCore [0x0A, 3] with te := { (onCore [0x0A, 3]).te with emitQ := [(0, resultOf 0 3 500000 0 0 false)], credits := [(128, 1)] } }) with out := [] } (.stream 0)).1,
     0, (runOf [0x0A, 3]), ((runOf [0x0A, 3]).image.cmd 0), by decide +kernel⟩,
   ⟨onCore [0x0A, 3], (.stream 0), (State.issue { (onCore [0x0A, 3]) with out := [] } (.stream 0)).1, 0,
     (runOf [0x0A, 3]), ((runOf [0x0A, 3]).image.cmd 0), by decide +kernel⟩,
   ⟨onCore [0], (.stream 0), 0, (runOf [0]), by decide +kernel⟩,
   ⟨{ onCore [0] with te := { (onCore [0]).te with streams := [(0, { loaded := true, slot := some 0, epoch := 3, run := some ({ runOf [0] with barrier := some 3 }) })] } },
     (.stream 0), 3, ({ runOf [0] with barrier := some 3 }), _, by decide +kernel, by decide +kernel, rfl⟩⟩

theorem witness_EmitAndAccept :
    (∃ (s : State), ∃ (n : Nat), ∃ (u : State), ∃ (c : Nat), ∃ (r : Machine.Run), ∃ (cmd : Blob),
      State.issue { s with out := [] } (.stream n) = (u, some (c, r, cmd)) ∧ cmdOp cmd = 0x0B ∧
      State.waitsForSeal { s with out := [] } r cmd = false ∧ r.inBounds cmd = true ∧
      16 ≤ tabGet 0 s.te.credits (128 + c)) ∧
    (∃ (s : State), ∃ (n : Nat), ∃ (u : State), ∃ (c : Nat), ∃ (r : Machine.Run), ∃ (cmd : Blob), ∃ (g : Got),
      State.issue { s with out := [] } (.stream n) = (u, some (c, r, cmd)) ∧ cmdOp cmd = 0x0B ∧
      State.waitsForSeal { s with out := [] } r cmd = false ∧ r.inBounds cmd = true ∧
      tabGet 0 s.te.credits (128 + c) < 16 ∧ g = u.operand (.stream n) c r cmd 1 (countOf r.reg (cmdWord cmd 5)) ∧
      g.ok = true ∧ g.s.coreRunning c = true) ∧
    (∃ (s : State), ∃ (core : Nat), ∃ (e : Nat × Result), s.up = true ∧
      s.te.emitQ.find? (fun e => decide (e.1 = core)) = some e ∧ e.2.epoch = (s.stream e.2.stream).epoch ∧
      e.2.malformed = false ∧ s.te.mergeStarted ≤ e.2.frame) ∧
    (∃ (s : State), ∃ (toll : Toll), ∃ (unit : Nat), ∃ (u : State),
      u = { s with out := [], te := { s.te with credits := tabMod 0 s.te.credits (tollNo toll * 128 + unit) (· - 1) } }) :=
  ⟨⟨{ onCore [] with te := { (onCore []).te with credits := [(128, 16)], models := [(0, imageOf [0x0B, 0x08000000, 0, 0, 0, 8])], streams := [(0, { loaded := true, slot := some 0, epoch := 3, run := some ({ runOf [0x0B, 0x08000000, 0, 0, 0, 8] with tollWait := true }) })] } },
    0, (State.issue { ({ onCore [] with te := { (onCore []).te with credits := [(128, 16)], models := [(0, imageOf [0x0B, 0x08000000, 0, 0, 0, 8])], streams := [(0, { loaded := true, slot := some 0, epoch := 3, run := some ({ runOf [0x0B, 0x08000000, 0, 0, 0, 8] with tollWait := true }) })] } }) with out := [] } (.stream 0)).1,
    0, ({ runOf [0x0B, 0x08000000, 0, 0, 0, 8] with tollWait := true }), ((runOf [0x0B, 0x08000000, 0, 0, 0,
    8]).image.cmd 0), by decide +kernel⟩,
   ⟨onCore [0x0B, 0x08000000, 0, 0, 0, 8], 0,
     (State.issue { (onCore [0x0B, 0x08000000, 0, 0, 0, 8]) with out := [] } (.stream 0)).1, 0, (runOf [0x0B,
     0x08000000, 0, 0, 0, 8]), ((runOf [0x0B, 0x08000000, 0, 0, 0, 8]).image.cmd 0), _, by decide +kernel,
     by decide +kernel, by decide +kernel, by decide +kernel, by decide +kernel, rfl, by decide +kernel,
     by decide +kernel⟩,
   ⟨{ onCore [] with te := { (onCore []).te with emitQ := [(5, { stream := 0, epoch := 3, frame := 500000, bins := [], events := [], whey := ⟨0, 0⟩, malformed := false })] } },
     5, (5,
     { stream := 0, epoch := 3, frame := 500000, bins := [], events := [], whey := ⟨0, 0⟩, malformed := false }),
     by decide +kernel⟩,
   ⟨{ act with te := { act.te with credits := [(0, 1)] } }, .hbmWr, 0, _, rfl⟩⟩

theorem witness_ProgramEnds :
    (∃ (s : State), ∃ (u : State), ∃ (c : Nat), ∃ (r : Machine.Run), ∃ (cmd : Blob), ∃ n, cmdOp cmd = 0x0F ∧
      State.issue { s with out := [] } (.stream n) = (u, some (c, r, cmd))) ∧
    (∃ (s : State), ∃ (u : State), ∃ (c : Nat), ∃ (r : Machine.Run), ∃ (cmd : Blob), ∃ d, cmdOp cmd = 0x0F ∧
      State.issue { s with out := [] } (.host d) = (u, some (c, r, cmd))) ∧
    (∃ (s : State), ∃ (u : State), ∃ (c : Nat), ∃ (r : Machine.Run), ∃ (cmd : Blob), ∃ d, cmdOp cmd = 0x0F ∧
      State.issue { s with out := [] } (.ripen d) = (u, some (c, r, cmd))) ∧
    (∃ (n : Nat), ∃ m, m ≠ n) :=
  ⟨⟨onCore [0x0F], (State.issue { (onCore [0x0F]) with out := [] } (.stream 0)).1, 0, (runOf [0x0F]),
    ((runOf [0x0F]).image.cmd 0), 0, by decide +kernel⟩,
   ⟨onHost [0x0F], (State.issue { (onHost [0x0F]) with out := [] } (.host 0)).1, 0, (runOf [0x0F]),
     ((runOf [0x0F]).image.cmd 0), 0, by decide +kernel⟩,
   ⟨onRipen [0x0F], (State.issue { (onRipen [0x0F]) with out := [] } (.ripen 0)).1, 0, (runOf [0x0F]),
     ((runOf [0x0F]).image.cmd 0), 0, by decide +kernel⟩,
   ⟨0, 1, by decide +kernel⟩⟩

theorem witness_CoresAndFences :
    (∃ (s : State), ∃ (core : Nat), s.coreRunning core = true) ∧
    (∃ (s : State), ∃ (n : Nat), s.cd.running = true ∧ State.clusterIdle { s with out := [] } n = false) ∧
    (∃ (s : State), ∃ (core : Nat), s.cd.running = true ∧ s.coreRunning core = true) ∧
    (∃ (s : State), ∃ (core : Nat), ∃ (cause : Nat), (s.core core).st ≠ 0 ∧ cause ∉ (s.core core).causes) ∧
    (∃ (s : State), ∃ (h : ReqHead), ∃ (core : Nat), core < 256 ∧ s.admits h 0x3102 0 2 (fenceArg core 0)) ∧
    (∃ (s : State), ∃ (h : ReqHead), ∃ (core : Nat), core < 256 ∧ s.admits h 0x3102 0 2 (fenceArg core 1)) ∧
    (∃ (s : State), ∃ (h : ReqHead), ∃ (cluster : Nat), cluster < 256 ∧ s.admits h 0x3102 0 2 (fenceArg cluster 2)) ∧
    (∃ (s : State), ∃ (core : Nat), s.up = true ∧ (s.core core).st = 1) :=
  ⟨⟨onCore [], 0, by decide +kernel⟩,
   ⟨onCore [], 0, by decide +kernel⟩,
   ⟨onCore [], 0, by decide +kernel⟩,
   ⟨onCore [], 0, 4, by decide +kernel⟩,
   ⟨{ act with te := { act.te with cores := [(95, { st := 2 })] } }, hostHead, 95, by decide +kernel,
     by unfold State.admits; decide +kernel⟩,
   ⟨{ act with te := { act.te with cores := [(95, { st := 3, causes := [5] })] } }, hostHead, 95, by decide +kernel,
     by unfold State.admits; decide +kernel⟩,
   ⟨act, hostHead, 11, by decide +kernel, by unfold State.admits; decide +kernel⟩,
   ⟨{ act with te := { act.te with cores := [(0, { st := 1 })] } }, 0, by decide +kernel⟩⟩

theorem witness_Loads :
    (∃ (s : State), ∃ (h : ReqHead), ∃ (n : Nat), ∃ (k : Nat), ∃ (v : Nat), n < 768 ∧ 1 ≤ k ∧ k ≤ 3 ∧
      s.admits h (0x3400 + n) k (entryLen (0x3400 + n) k) v) ∧
    (∃ (s : State), ∃ (h : ReqHead), ∃ (addr : Nat), ∃ (first : Nat), ∃ (count : Nat),
      s.admits h 0x3200 0 16 (loadArg addr first count 1)) ∧
    (∃ (s : State), ∃ (h : ReqHead), ∃ (addr : Nat), ∃ (first : Nat), ∃ (count : Nat),
      s.admits h 0x3200 0 16 (loadArg addr first count 2)) ∧
    (∃ (s : State), ∃ (d : Blob), ∃ (secure : Bool), ∃ (l : Load), ∃ (m : Model), ∃ (t : State),
      t = (if s.loadBusy (s.loadIdents d secure) || !(loadReq d).ok then s else s.imageRead .forecast secure (loadReq d).addr) ∧
      (t.checkLoad d secure).2 = some (l, m)) ∧
    (∃ (s : State), ∃ (l : Load), s.up = true ∧ s.te.load = some l ∧ s.copyWaits (fun x => x.load) = true) ∧
    (∃ (s : State), ∃ (l : Load), s.up = true ∧ s.te.load = some l ∧ s.copyWaits (fun x => x.load) = false ∧
      State.replan { s with out := [] } l = none) ∧
    (∃ (s : State), ∃ (l : Load), ∃ (m : Load), s.up = true ∧ s.te.load = some l ∧
      s.copyWaits (fun x => x.load) = false ∧ State.replan { s with out := [] } l = some m ∧ m.ripens = none ∧
      m.replay = false) ∧
    (∃ (s : State), s.up = true ∧ (s.cd.running = false ∨ s.power.gate = false)) ∧
    (∃ (s : State), s.up = true ∧ s.cd.running = true ∧ s.power.gate = true) :=
  ⟨⟨act, hostHead, 767, 3, 1, by decide +kernel, by decide +kernel, by decide +kernel,
    by unfold State.admits; decide +kernel⟩,
   ⟨loadable, hostHead, 0, 0, 1, by unfold State.admits; decide +kernel⟩,
   ⟨loadable, hostHead, 0, 0, 1, by unfold State.admits; decide +kernel⟩,
   ⟨loadable, (loadArg 0 0 1 1), false, aPair.1, aPair.2, _, rfl, by decide +kernel⟩,
   ⟨{ act with te := { act.te with load := some aLoad, copyQ := [{ core := 0, load := true, waits := 1, sent := 0 }] } },
     aLoad, by decide +kernel⟩,
   ⟨{ act with te := { act.te with models := [(0, { imageOf [0] with deadline := 1 })], load := some aLoad } },
     aLoad, by decide +kernel⟩,
   ⟨{ act with te := { act.te with cores := [(0, { st := 2 })], models := [(0, imageOf [0])], load := some aLoad } },
     aLoad, aLoad, by decide +kernel⟩,
   ⟨cold, by decide +kernel⟩,
   ⟨act, by decide +kernel⟩⟩

theorem witness_OtherWork :
    (∃ (s : State), ∃ (h : ReqHead), ∃ (first : Nat), ∃ (count : Nat), s.admits h 0x3202 0 4 (unloadArg first count)) ∧
    (∃ (s : State), ∃ (h : ReqHead), ∃ (d : Blob), s.admits h 0x3203 0 32 d) ∧
    (∃ (s : State), ∃ (h : ReqHead), ∃ (ident : Nat), ∃ (addr : Nat), s.admits h 0x3022 0 16 (ripenArg ident addr)) ∧
    (∃ (s : State), ∃ (h : ReqHead), ∃ (ident : Nat), s.admits h 0x3022 0 16 (ripenArg ident u64Max)) ∧
    (∃ (s : State), ∃ (ident : Nat), ∃ (key : Nat), ident < 2 ^ 32 ∧ s.modelKey ident = some key) ∧
    (∃ (first : Nat), ∃ (count : Nat), ∃ (n : Nat), first < 1024 ∧ count < 1024 ∧ first ≤ n ∧ n < first + count) ∧
    (∃ (s : State), ∃ (ident : Nat), ∃ (key : Nat), ∃ (m : Model), s.up = true ∧
      tabFind s.te.ripening ident = some m ∧ s.modelKey ident = some key ∧ s.odv 0x3020 1 ≠ 0 ∧
      tabFind s.te.lastJob ident = none ∧ tabFind s.te.jobs ident = none ∧ s.te.load = none ∧ (∃ c, c < 96 ∧
      s.coreRunning c = true ∧ s.copied c key = true)) ∧
    (∃ (s : State), ∃ (ident : Nat), ∃ (j : Job), s.up = true ∧ tabFind s.te.jobs ident = some j ∧
      j.accepted = false ∧ j.began + 1000000 * s.odv 0x3020 2 ≤ s.intake) ∧
    (∃ (s : State), ∃ (ident : Nat), ∃ (key : Nat), ∃ (us : List Upset), ∃ (u : State), s.up = true ∧
      s.modelKey ident = some key ∧ (s.model key).badMasters ≠ [] ∧ s.copyPermitted = true ∧
      u = ((State.hbmUpsets { s with out := [] } us).readMaster key).1 ∧ (u.model key).lost = false) ∧
    (∃ (s : State), ∃ (ident : Nat), ∃ (key : Nat), ∃ (us : List Upset), ∃ (u : State), s.up = true ∧
      s.modelKey ident = some key ∧ (s.model key).badMasters ≠ [] ∧ s.copyPermitted = true ∧
      u = ((State.hbmUpsets { s with out := [] } us).readMaster key).1 ∧ (u.model key).lost = true) ∧
    (∃ (s : State), ∃ (c : Nat), ∃ (rest : List Nat), s.up = true ∧ s.te.suspended = c :: rest ∧ 100 ≤ s.te.calm ∧
      s.bm.capUnmet = false) :=
  ⟨⟨onCore [], hostHead, 0, 1, by unfold State.admits; decide +kernel⟩,
   ⟨act, hostHead, 0, by unfold State.admits; decide +kernel⟩,
   ⟨act, hostHead, 0, 0, by unfold State.admits; decide +kernel⟩,
   ⟨act, hostHead, 0, by unfold State.admits; decide +kernel⟩,
   ⟨onCore [], 7, 0, by decide +kernel⟩,
   ⟨767, 1, 767, by decide +kernel⟩,
   ⟨{ od (onCore []) 0x3020 1 1 with te := { (onCore []).te with ripening := [(7, imageOf [0x0F])], streams := [(0, { loaded := true, slot := some 0 })] } },
     7, 0, (imageOf [0x0F]), by decide +kernel, by decide +kernel, by decide +kernel, by decide +kernel,
     by decide +kernel, by decide +kernel, by decide +kernel, ⟨0, by decide +kernel⟩⟩,
   ⟨{ onCore [] with intake := 4000000000, te := { (onCore []).te with jobs := [(7, { model := 0, began := 0, participants := [0], candidate := {}, failed := false, ended := [], errors := none, accepted := false })] } },
     7, ({ model := 0, began := 0, participants := [0], candidate := {}, failed := false, ended := [], errors := none, accepted := false }),
     by decide +kernel⟩,
   ⟨{ onCore [] with te := { (onCore []).te with models := [(0, { imageOf [] with masters := [0, 1], badMasters := [1] })] } },
     7, 0, [], _, by decide +kernel, by decide +kernel, by decide +kernel, by decide +kernel, rfl, by decide +kernel⟩,
   ⟨{ onCore [] with te := { (onCore []).te with models := [(0, { imageOf [] with masters := [0], badMasters := [0], masterErrs := [(0, 3)] })] } },
     7, 0, [], _, by decide +kernel, by decide +kernel, by decide +kernel, by decide +kernel, rfl, by decide +kernel⟩,
   ⟨{ act with te := { act.te with suspended := [0], calm := 100 } }, 0, [], by decide +kernel⟩⟩

theorem witness_MemoryReadsBack :
    (∃ (m : Mem), ∃ (a : Nat), ∃ (n : Nat), ∃ b, m.errs = [] ∧ (b < a ∨ a + n ≤ b)) ∧
    (∃ (m : Mem), m.errs = []) :=
  ⟨⟨({} : Mem), 3, 5, 8, by decide +kernel⟩,
   ⟨({} : Mem), by decide +kernel⟩⟩

theorem witness_HbmWindow :
    (∃ (s : State), ∃ (off : Nat), ∃ (n : Nat), s.services = true ∧ s.host.d3hot = false ∧ n ≠ 0 ∧
      off % regionBytes + n ≤ regionBytes ∧ s.bar2Map off = none) ∧
    (∃ (s : State), ∃ (off : Nat), ∃ (n : Nat), ∃ pa, s.services = true ∧ s.host.d3hot = false ∧ n ≠ 0 ∧
      off % regionBytes + n ≤ regionBytes ∧ s.bar2Map off = some pa ∧ s.hbmSecure pa = true) ∧
    (∃ (s : State), ∃ (off : Nat), ∃ (n : Nat), ∃ pa, s.services = true ∧ s.host.d3hot = false ∧ n ≠ 0 ∧
      off % regionBytes + n ≤ regionBytes ∧ s.bar2Map off = some pa ∧ s.hbmSecure pa = false ∧ s.cd.running = false) ∧
    (∃ (s : State), ∃ (off : Nat), ∃ (n : Nat), ∃ pa, s.services = true ∧ s.host.d3hot = false ∧ n ≠ 0 ∧
      off % regionBytes + n ≤ regionBytes ∧ s.bar2Map off = some pa ∧ s.hbmSecure pa = false ∧ s.cd.running = true ∧
      s.stackReachable pa = false) ∧
    (∃ (s : State), ∃ (off : Nat), ∃ (n : Nat), ∃ pa, ∃ (t : State), ∃ (r : Blob × MemFx), s.services = true ∧
      s.host.d3hot = false ∧ n ≠ 0 ∧ off % regionBytes + n ≤ regionBytes ∧ s.bar2Map off = some pa ∧
      s.hbmSecure pa = false ∧ s.cd.running = true ∧ s.stackReachable pa = true ∧
      t = (State.hbmMoved { s with out := [] } 42 pa n).hbmVote pa n ∧ r = t.cd.hbm.read 4096 pa n ∧ r.2.bad = []) ∧
    (∃ (s : State), ∃ (off : Nat), ∃ (n : Nat), ∃ (v : Blob), ∃ pa, ∃ (t : State), ∃ (r : Mem × MemFx),
      s.services = true ∧ s.host.d3hot = false ∧ n ≠ 0 ∧ off % regionBytes + n ≤ regionBytes ∧
      s.bar2Map off = some pa ∧ s.hbmSecure pa = false ∧ s.cd.running = true ∧ s.stackReachable pa = true ∧
      t = (State.hbmMoved { s with out := [] } 43 pa n).hbmVote pa n ∧ r = t.cd.hbm.write 4096 pa n (bytesAt v 0 n) ∧
      r.2.dropped = 0) :=
  ⟨⟨act, (64 * regionBytes), 4, by decide +kernel⟩,
   ⟨{ act with eff := [(okey 0xB030 0, 1)] }, 0, 4, 0, by decide +kernel⟩,
   ⟨{ act with cd := { act.cd with running := false } }, 8, 4, 8, by decide +kernel⟩,
   ⟨act, 8, 4, 8, by decide +kernel⟩,
   ⟨{ act with cd := { act.cd with stackCond := [(0, 1)] } }, 8, 4, 8, _, _, by decide +kernel, by decide +kernel,
     by decide +kernel, by decide +kernel, by decide +kernel, by decide +kernel, by decide +kernel,
     by decide +kernel, rfl, rfl, by decide +kernel⟩,
   ⟨{ act with cd := { act.cd with stackCond := [(0, 1)] } }, 8, 4, 5, 8, _, _, by decide +kernel, by decide +kernel,
     by decide +kernel, by decide +kernel, by decide +kernel, by decide +kernel, by decide +kernel,
     by decide +kernel, rfl, rfl, by decide +kernel⟩⟩

theorem witness_MemoryErrorsAndStacks :
    (∃ (i : Nat), i < 32) ∧
    (∃ (i : Nat), 32 ≤ i ∧ i < 39) ∧
    (∃ (i : Nat), ∃ (j : Nat), i < 39 ∧ j < 39 ∧ i ≠ j) ∧
    (∃ (s : State), ∃ (n : Nat), ∃ (b : Nat), ∃ (c : Nat), s.up = true ∧ s.cd.running = true ∧ n < 12 ∧
      tabGet 0 s.cd.stackCond n ≠ 4 ∧ s.cd.hbm.votes = [] ∧ s.nextBlock n (tabGet 0 s.cd.scrubAt n) = some b ∧
      s.nextBlock n (b + 1) = some c ∧ s.inForecast (4096 * b) = false ∧ s.blockErrs b = []) ∧
    (∃ (s : State), ∃ (a : Nat), s.inForecast a = false ∧ eccDecode (tabGet 0 s.cd.hbm.errs a) = .corrected 0) ∧
    (∃ (s : State), ∃ (m : Nat), ∃ (w : Nat), s.up = true ∧ s.macroOn m = true ∧ s.sramNext m = some w ∧
      s.cd.sram.votes = [] ∧ tabGet 0 s.cd.sram.errs (m * 2 ^ 20 + 4 * w) = 0) ∧
    (∃ (s : State), s.up = true) ∧
    (∃ (s : State), ∃ (n : Nat), s.cd.running = true ∧ tabGet 0 s.cd.stackCond n < 3 ∧ s.clusterFenced n = false) ∧
    (∃ (s : State), ∃ (n : Nat), ∃ (cause : Nat), (tabGet 0 s.cd.stackCond n = 4 ∨ (tabGet 0 s.cd.stackCond n = 3 ∧
      cause ≠ 1 ∧ cause ≠ 4))) ∧
    (∃ (s : State), ∃ (n : Nat), ∃ (t : Int), s.up = true ∧ s.cd.running = true ∧ n < 12 ∧
      tabGet 0 s.cd.refreshMode n = 0 ∧ ((tabFind s.mpc.sensors (80 + n)).isSome = true →
      (t - (s.sensor (80 + n)).used).natAbs ≤ 1200)) ∧
    (∃ (s : State), ∃ (n : Nat), s.up = true ∧ s.cd.running = true ∧ n < 12 ∧ tabFind s.mpc.sensors (80 + n) = none) :=
  ⟨⟨31, by decide +kernel⟩,
   ⟨38, by decide +kernel⟩,
   ⟨0, 38, by decide +kernel⟩,
   ⟨{ act with cd := { act.cd with stackCond := [(0, 1)], hbm := { act.cd.hbm with valid := [0, 1] } } }, 0, 0, 1,
     by decide +kernel⟩,
   ⟨{ act with cd := { act.cd with hbm := { act.cd.hbm with errs := [(0, 1)] } } }, 0, by decide +kernel⟩,
   ⟨{ act with power := { act.power with siodWritten := 2 ^ 10 } }, 778, 0, by decide +kernel⟩,
   ⟨act, by decide +kernel⟩,
   ⟨act, 0, by decide +kernel⟩,
   ⟨{ act with cd := { act.cd with stackCond := [(0, 3)] } }, 0, 2, by decide +kernel⟩,
   ⟨act, 0, 0, by decide +kernel⟩,
   ⟨act, 0, by decide +kernel⟩⟩

theorem witness_MergeRuns :
    (∃ (s : State), ∃ (j : Nat), s.up = true ∧ s.cd.running = true ∧ s.mergeFrame = some j ∧ s.mergeReady j = true ∧
      s.te.mergeMem.errs = [] ∧ s.te.mergeMem.votes = [] ∧ s.te.mergeLost = [] ∧ tabGet 0 s.te.credits (2 * 128) < 4) ∧
    (∃ (s : State), ∃ (j : Nat), s.up = true ∧ s.cd.running = true ∧ s.mergeFrame = some j ∧ s.mergeReady j = true ∧
      s.te.mergeMem.errs = [] ∧ s.te.mergeMem.votes = [] ∧ s.te.mergeLost = [] ∧ 4 ≤ tabGet 0 s.te.credits (2 * 128)) ∧
    (∃ (s : State), ∃ (j : Nat), s.up = true ∧ s.mergeFrame = some j ∧ s.mergeReady j = false) ∧
    (∃ (s : State), ∃ (j : Nat), s.up = true ∧ s.cd.running = true ∧ s.mergeFrame = some j ∧ j + 6 ≤ s.intake) ∧
    (∃ (s : State), ∃ (j : Nat), s.up = true ∧ s.cd.running = true ∧ s.mergeFrame = some j ∧ s.intake < j + 6) ∧
    (∃ (s : State), s.up = true ∧ (s.cd.running = false ∨ s.mergeFrame = none)) :=
  ⟨⟨{ act with te := { act.te with mergeNext := 499996 } }, 499996, by decide +kernel⟩,
   ⟨{ act with te := { act.te with mergeNext := 499996, credits := [(256, 4)] } }, 499996, by decide +kernel⟩,
   ⟨{ onCore [] with te := { (onCore []).te with mergeNext := 499997, streams := [(0, { loaded := true, slot := some 0, run := some { runOf [] with frame := 499997 } })] } },
     499997, by decide +kernel⟩,
   ⟨{ act with te := { act.te with mergeNext := 499995 } }, 499995, by decide +kernel⟩,
   ⟨{ act with te := { act.te with mergeNext := 499996 } }, 499996, by decide +kernel⟩,
   ⟨cold, by decide +kernel⟩⟩

theorem witness_Budget :
    (∃ (s : State), ∃ (h : ReqHead), ∃ (w : Nat), s.admits h 0x4001 1 4 w) ∧
    (∃ (s : State), s.up = true) ∧
    (∃ (s : State), (tabFind s.eff (okey 0x4001 1)).isSome = true) ∧
    (∃ (s : State), s.services = true ∧ s.odv 0x4001 4 ≠ 0) ∧
    (∃ (s : State), s.services = true ∧ s.odv 0x4001 4 = 0) ∧
    (∃ (s : State), s.bm.refreshDue = true ∧ s.odv 0x4001 4 ≠ 0 ∧ tabFind s.eff (okey 0x4001 1) = none) ∧
    (∃ (s : State), ∃ (g : Nat), ∃ (t : Nat × Nat), s.services = true ∧ s.grants = true ∧ g < 64 ∧ s.heldAt g ≠ [] ∧
      State.releaseStart { s with out := [] } g (s.heldAt g) = some t) ∧
    (∃ (s : State), s.services = true ∧ s.grants = false) :=
  ⟨⟨act, hostHead, 2000, by unfold State.admits; decide +kernel⟩,
   ⟨act, by decide +kernel⟩,
   ⟨{ act with eff := [(okey 0x4001 1, 5)] }, by decide +kernel⟩,
   ⟨od act 0x4001 4 10, by decide +kernel⟩,
   ⟨act, by decide +kernel⟩,
   ⟨{ od act 0x4001 4 10 with bm := { act.bm with refreshDue := true } }, by decide +kernel⟩,
   ⟨{ act with eff := [(okey 0x4002 0, 0)], ferry := { act.ferry with landings := [(0, { place := some (0, 0), held := some 5 })] }, bm := { act.bm with groups := [(0, { resumed := true })] } },
     0, (4000 * (500001 / 4), 0), by decide +kernel⟩,
   ⟨cold, by decide +kernel⟩⟩

theorem witness_CeBoundaries :
    (∃ (s : State), s.up = true ∧ s.ceRuns = false) ∧
    (∃ (s : State), s.up = true ∧ s.ceRuns = true) ∧
    (∃ (s : State), ∃ (n : Nat), s.up = true ∧ s.ceRuns = true ∧ n < 64 ∧ s.odv (0x2100 + n) 19 ≠ 0 ∧
      s.odv (0x2100 + n) 19 ≤ (s.ce.kept.loop n).timer ∧ (s.ce.kept.loop n).fired = false ∧
      (s.ce.kept.loop n).mode = 2 ∧ (s.ce.kept.loop n).stale = false) :=
  ⟨⟨cold, by decide +kernel⟩,
   ⟨act, by decide +kernel⟩,
   ⟨{ od act 0x2100 19 5 with ce := { act.ce with kept := { act.ce.kept with loops := [(0, { mode := 2, timer := 5 })] } } },
     0, by decide +kernel⟩⟩

theorem witness_LoopCommands :
    (∃ (n : Nat), ∃ m, n < 64 ∧ m ≠ n) ∧
    (∃ (n : Nat), n < 64) ∧
    (∃ (s : State), ∃ (h : ReqHead), ∃ (n : Nat), n < 64 ∧ s.admits h (0x2200 + n) 1 1 0) ∧
    (∃ (s : State), ∃ (h : ReqHead), ∃ (n : Nat), n < 64 ∧ s.admits h (0x2200 + n) 1 1 1) ∧
    (∃ (s : State), ∃ (h : ReqHead), ∃ (n : Nat), n < 64 ∧ s.admits h (0x2200 + n) 1 1 2) ∧
    (∃ (s : State), ∃ (h : ReqHead), ∃ (r : Nat), ∃ arg, r < 4 ∧ s.admits h (0x2600 + r) 8 2 arg) ∧
    (∃ (s : State), ∃ (h : ReqHead), ∃ (r : Nat), ∃ arg, r < 4 ∧ s.admits h (0x2600 + r) 9 4 arg) ∧
    (∃ (s : State), ∃ (h : ReqHead), ∃ (r : Nat), ∃ (arg : Nat), r < 4 ∧ s.admits h (0x2600 + r) 1 4 arg) ∧
    (∃ (s : State), ∃ (h : ReqHead), ∃ (r : Nat), r < 4 ∧ s.admits h (0x2600 + r) 7 1 1) :=
  ⟨⟨0, 1, by decide +kernel⟩,
   ⟨0, by decide +kernel⟩,
   ⟨act, hostHead, 63, by decide +kernel, by unfold State.admits; decide +kernel⟩,
   ⟨act, hostHead, 63, by decide +kernel, by unfold State.admits; decide +kernel⟩,
   ⟨act, hostHead, 63, by decide +kernel, by unfold State.admits; decide +kernel⟩,
   ⟨act, hostHead, 3, 64, by decide +kernel, by unfold State.admits; decide +kernel⟩,
   ⟨od act 0x2603 1 10, hostHead, 3, 3, by decide +kernel, by unfold State.admits; decide +kernel⟩,
   ⟨act, hostHead, 3, 65, by decide +kernel, by unfold State.admits; decide +kernel⟩,
   ⟨act, hostHead, 3, by decide +kernel, by unfold State.admits; decide +kernel⟩⟩

theorem witness_CeEntersService :
    (∃ (s : State), ∃ (c : Nat), s.up = true ∧ s.ce.restored = true ∧ s.red.lost = false ∧ s.power.leaving = false ∧
      s.mode = .takeover ∧ c = b2n s.cdStoppedNow + 2 * b2n (decide (s.odv 0x3000 0 ≠ 3)) + 4 * b2n s.reducedNow) ∧
    (∃ (s : State), s.up = true ∧ s.ce.restored = true ∧ s.red.lost = false ∧ s.power.leaving = false ∧
      s.mode ≠ .takeover) ∧
    (∃ (s : State), s.up = true ∧ (s.ce.restored = false ∨ s.red.lost = true ∨ s.power.leaving = true)) :=
  ⟨⟨{ taking with ce := { taking.ce with restored := true } }, _, by decide +kernel, by decide +kernel,
    by decide +kernel, by decide +kernel, by decide +kernel, rfl⟩,
   ⟨{ act with ce := { act.ce with restored := true } }, by decide +kernel⟩,
   ⟨act, by decide +kernel⟩⟩

theorem witness_LinkTraining :
    (∃ (s : State), ∃ (l : Nat), s.linkTrains l = true ∧ (s.link l).st = 1) ∧
    (∃ (s : State), ∃ (l : Nat), s.linkTrains l = true ∧ (s.link l).st = 1 ∧ (s.link l).training = true) ∧
    (∃ (s : State), ∃ (l : Nat), s.linkTrains l = true ∧ (s.link l).st = 2) ∧
    (∃ (s : State), ∃ (l : Nat), s.linkTrains l = true ∧ (s.link l).st = 3) ∧
    (∃ (s : State), ∃ (l : Nat), s.linkTrains l = true ∧ ((s.link l).st = 2 ∨ (s.link l).st = 3)) ∧
    (∃ (s : State), ∃ (l : Nat), s.linkTrains l = true ∧ (s.link l).st = 4) :=
  ⟨⟨withLink { st := 1 }, 0, by decide +kernel⟩,
   ⟨withLink { st := 1, training := true }, 0, by decide +kernel⟩,
   ⟨withLink { st := 2 }, 0, by decide +kernel⟩,
   ⟨withLink { st := 3 }, 0, by decide +kernel⟩,
   ⟨withLink { st := 3 }, 0, by decide +kernel⟩,
   ⟨withLink { st := 4 }, 0, by decide +kernel⟩⟩

theorem witness_CrossingsAndPeers :
    (∃ (s : State), ∃ (l : Nat), s.linkTrains l = true ∧ s.peerLink l = false ∧ (s.link l).st ≠ 0 ∧
      s.linkIsUp l = false) ∧
    (∃ (s : State), ∃ (l : Nat), s.services = true ∧ l < 49 ∧ 2 ≤ (s.link l).st ∧ s.linkIsUp l = false) ∧
    (∃ (s : State), ∃ (l : Nat), s.services = true ∧ l < 49 ∧ s.linkIsUp l = true) ∧
    (∃ (s : State), ∃ (l : Nat), s.linkTrains l = true ∧ s.peerLink l = false ∧ s.linkIsUp l = true) ∧
    (∃ (s : State), ∃ (l : Nat), ∃ (b : Nat), ∃ n, s.landingAt l b = some n) ∧
    (∃ (s : State), ∃ (l : Nat), ∃ (b : Nat), s.landingAt l b = none ∧ (s.berth l b).tx = none ∧
      (s.berth l b).acks = [] ∧ (s.berth l b).time = false ∧ (s.berth l b).config = none) ∧
    (∃ (s : State), ∃ (l : Nat), ∃ (b : Nat), (s.berth l b).acks = [] ∧ (s.berth l b).time = true) ∧
    (∃ (s : State), ∃ (n : Nat), (s.landing n).committed = true) ∧
    (∃ (s : State), ∃ (l : Nat), ∃ (corrected : Nat), ∃ (bad : Nat), ∃ (u : State), s.services = true ∧ l < 49 ∧
      s.linkIsUp l = true ∧ u = (State.count { s with out := [] } (0x9100 + l) 5 corrected).count (0x9100 + l) 6 bad) ∧
    (∃ (slot : Blob), bytesAt slot 0 1 = 0) ∧
    (∃ (s : State), ∃ (l : Nat), ∃ (b : Nat), ∃ (slot : Blob), ∃ check, bytesAt slot 0 1 ≠ 0 ∧
      check = s.frameCheck l b 76 (bytesAt slot 0 76) true ∧ check ≠ 0) ∧
    (∃ (s : State), ∃ (l : Nat), ∃ (b : Nat), ∃ (slot : Blob), ∃ check, ∃ (r : Blob), ∃ (k : Nat),
      bytesAt slot 0 1 ≠ 0 ∧ check = s.frameCheck l b 76 (bytesAt slot 0 76) true ∧ check = 0 ∧
      r = bytesAt slot 4 64 ∧ k = bytesAt r 0 2 ∧ ((s.landing k).place ≠ some (l, b) ∨
       bytesAt r 2 2 ≠ (s.landing k).epoch)) ∧
    (∃ (s : State), ∃ (l : Nat), ∃ (b : Nat), ∃ (slot : Blob), ∃ check, ∃ (r : Blob), ∃ (k : Nat),
      bytesAt slot 0 1 ≠ 0 ∧ check = s.frameCheck l b 76 (bytesAt slot 0 76) true ∧ check = 0 ∧
      r = bytesAt slot 4 64 ∧ k = bytesAt r 0 2 ∧ (s.landing k).place = some (l, b) ∧
      bytesAt r 2 2 = (s.landing k).epoch ∧ hintBad (s.timeNs + 500) r = true) ∧
    (∃ (s : State), ∃ (l : Nat), ∃ (b : Nat), ∃ (slot : Blob), ∃ check, ∃ (r : Blob), ∃ (k : Nat), ∃ t, ∃ m,
      bytesAt slot 0 1 ≠ 0 ∧ check = s.frameCheck l b 76 (bytesAt slot 0 76) true ∧ check = 0 ∧
      r = bytesAt slot 4 64 ∧ k = bytesAt r 0 2 ∧ (s.landing k).place = some (l, b) ∧
      bytesAt r 2 2 = (s.landing k).epoch ∧ hintBad (s.timeNs + 500) r = false ∧ t = s.recordSlot l b slot false ∧
      m ≠ k) ∧
    (∃ (s : State), ∃ (l : Nat), ∃ (b : Nat), ∃ (slot : Blob), ∃ check, ∃ (r : Blob), ∃ (k : Nat), ∃ t,
      bytesAt slot 0 1 ≠ 0 ∧ check = s.frameCheck l b 76 (bytesAt slot 0 76) true ∧ check = 0 ∧
      r = bytesAt slot 4 64 ∧ k = bytesAt r 0 2 ∧ (s.landing k).place = some (l, b) ∧
      bytesAt r 2 2 = (s.landing k).epoch ∧ hintBad (s.timeNs + 500) r = false ∧ t = s.recordSlot l b slot false ∧
      s.cd.running = false) ∧
    (∃ (s : State), ∃ (l : Nat), ∃ (b : Nat), ∃ (slot : Blob), ∃ check, ∃ (r : Blob), ∃ (k : Nat), ∃ t,
      bytesAt slot 0 1 ≠ 0 ∧ check = s.frameCheck l b 76 (bytesAt slot 0 76) true ∧ check = 0 ∧
      r = bytesAt slot 4 64 ∧ k = bytesAt r 0 2 ∧ (s.landing k).place = some (l, b) ∧
      bytesAt r 2 2 = (s.landing k).epoch ∧ hintBad (s.timeNs + 500) r = false ∧ t = s.recordSlot l b slot false) ∧
    (∃ (s : State), ∃ (l : Nat), s.services = true ∧ s.linkIsUp l = true ∧ s.peerLink l = true) ∧
    (∃ (s : State), ∃ (l : Nat), s.peerLink l = false) :=
  ⟨⟨withLink { st := 3 }, 0, by decide +kernel⟩,
   ⟨withLink { st := 3 }, 0, by decide +kernel⟩,
   ⟨withLink { st := 4 }, 0, by decide +kernel⟩,
   ⟨berthed, 0, by decide +kernel⟩,
   ⟨berthed, 0, 5, 3, by decide +kernel⟩,
   ⟨berthed, 0, 6, by decide +kernel⟩,
   ⟨(State.setBerth berthed 0 5 (fun x => { x with time := true })),
     0, 5, by decide +kernel⟩,
   ⟨berthed, 3, by decide +kernel⟩,
   ⟨berthed, 0, 2, 1, _, by decide +kernel, by decide +kernel, by decide +kernel, rfl⟩,
   ⟨0, by decide +kernel⟩,
   ⟨berthed, 0, 5, 5, _, by decide +kernel, rfl, by decide +kernel⟩,
   ⟨berthed, 0, 5, hintSlot 8 1, 0, _, 3, by decide +kernel, by decide +kernel, rfl, rfl, by decide +kernel,
     by decide +kernel⟩,
   ⟨berthed, 0, 5, hintSlot 9 2, 0, _, 3, by decide +kernel, by decide +kernel, rfl, rfl, by decide +kernel,
     by decide +kernel, by decide +kernel, by decide +kernel⟩,
   ⟨berthed, 0, 5, hintSlot 9 1, 0, _, 3, _, 4,
     by decide +kernel, by decide +kernel, rfl, rfl, by decide +kernel, by decide +kernel, by decide +kernel, by decide +kernel,
     rfl, by decide +kernel⟩,
   ⟨{ berthed with cd := {} }, 0, 5, hintSlot 9 1, 0, _, 3, _, by decide +kernel, by decide +kernel,
     rfl, rfl, by decide +kernel, by decide +kernel, by decide +kernel, by decide +kernel, rfl, by decide +kernel⟩,
   ⟨berthed, 0, 5, hintSlot 9 1, 0, _, 3, _, by decide +kernel, by decide +kernel,
     rfl, rfl, by decide +kernel, by decide +kernel, by decide +kernel, by decide +kernel, rfl⟩,
   ⟨{ act with ferry := { act.ferry with links := [(48, { st := 4 })] } }, 48, by decide +kernel⟩,
   ⟨act, 0, by decide +kernel⟩⟩

theorem witness_Attachment :
    (∃ (s : State), ∃ (l : Nat), ∃ (b : Nat), ∃ (p : Nat), s.takesAttach l b = true ∧ s.attachStatus l b p = stOk) ∧
    (∃ (s : State), ∃ (l : Nat), ∃ (b : Nat), ∃ (p : Nat), s.takesAttach l b = true ∧ s.attachStatus l b p ≠ stOk) ∧
    (∃ (s : State), ∃ (l : Nat), ∃ (b : Nat), ∃ (p : Nat), s.takesAttach l b = true ∧
      (s.landing (bytesAt p 0 2)).place = some (l, b)) ∧
    (∃ (s : State), ∃ (l : Nat), ∃ (b : Nat), ∃ (p : Nat), s.takesAttach l b = true ∧
      (s.landing (bytesAt p 0 2)).place ≠ some (l, b)) ∧
    (∃ (s : State), ∃ (k : Nat), ∃ (l : Nat), ∃ (b : Nat), s.services = true ∧
      s.ferry.changes = [{ attach := true, landing := k, link := l, berth := b }] ∧ (s.landing k).place = none) :=
  ⟨⟨od (withLink { st := 4 }) 0x9010 0 1, 0, 0, 0, by decide +kernel⟩,
   ⟨withLink { st := 4 }, 0, 127, 6144, by decide +kernel⟩,
   ⟨{ withLink { st := 4 } with ferry := { (withLink { st := 4 }).ferry with landings := [(0, { place := some (0, 0) })] } },
     0, 0, 0, by decide +kernel⟩,
   ⟨withLink { st := 4 }, 0, 0, 0, by decide +kernel⟩,
   ⟨{ act with ferry := { act.ferry with changes := [{ attach := true, landing := 3, link := 0, berth := 5 }] } }, 3,
     0, 5, by decide +kernel⟩⟩

theorem witness_DictionaryReads :
    (∃ (s : State), ∃ (r : Req), ∃ (a : Ask), ∃ (u : State), ∃ e, r.via = .host ∧ r.signed = false ∧
      s.hostReaches = true ∧ r.index < 65536 ∧ r.sub < 256 ∧
      u = State.count { s with out := [], host := s.host.mailboxSet 1 r } 0x1001 6 ∧
      a = { index := r.index, sub := r.sub, write := false, len := 0, value := 0, signed := none, source := 0 } ∧
      entryOf r.index r.sub = some e ∧ u.readStatus a = stOk) ∧
    (∃ (s : State), ∃ (r : Req), ∃ (a : Ask), ∃ (u : State), r.via = .host ∧ r.signed = false ∧
      s.hostReaches = true ∧ r.index < 65536 ∧ r.sub < 256 ∧
      u = State.count { s with out := [], host := s.host.mailboxSet 1 r } 0x1001 6 ∧
      a = { index := r.index, sub := r.sub, write := false, len := 0, value := 0, signed := none, source := 0 } ∧
      u.readStatus a ≠ stOk) :=
  ⟨⟨act, (⟨.host, false, 0x4001, 1, 0, 0, 0⟩ : Req), _, _, ((entryOf 0x4001 1).getD (roE .u8)), by decide +kernel,
    by decide +kernel, by decide +kernel, by decide +kernel, by decide +kernel, rfl, rfl, by decide +kernel,
    by decide +kernel⟩,
   ⟨act, (⟨.host, false, 0x4000, 1, 0, 0, 0⟩ : Req), _, _, by decide +kernel, by decide +kernel, by decide +kernel,
     by decide +kernel, by decide +kernel, rfl, rfl, by decide +kernel⟩⟩

theorem witness_DictionaryWrites :
    (∃ (s : State), ∃ (h : ReqHead), ∃ (i : Nat), ∃ (k : Nat), ∃ (n : Nat), ∃ (v : Nat), s.admits h i k n v ∧
      (i = 0xB072 → bitAt v 7 = false)) ∧
    (∃ (s : State), ∃ (h : ReqHead), ∃ (v : Nat), ∃ (c : State), s.admits h 0xB072 0 1 v ∧ bitAt v 7 = true ∧
      c = (s.arrival h 0xB072 0 1 v).commit (headAsk h 0xB072 0 1 v)) ∧
    (∃ (a : Ask), ∃ (e : Entry), entryOf a.index a.sub = some e) ∧
    (∃ (i : Nat), ∃ (k : Nat), ∃ j, ∃ m, i ≠ 0x3020 ∧ i ≠ 0x9001 ∧ okey j m ≠ okey i k) ∧
    (∃ (config : Bool), config = true) ∧
    (∃ (config : Bool), config = false) ∧
    (∃ (s : State), ∃ (h : ReqHead), ∃ (i : Nat), ∃ (k : Nat), ∃ (n : Nat), ∃ (v : Nat), h.wf = true ∧ i < 65536 ∧
      k < 256 ∧ n < 65536 ∧ v < 2 ^ (8 * n) ∧ s.takesFrom h = true ∧
      (s.arrival h i k n v).writeStatus (headAsk h i k n v) ≠ stOk) :=
  ⟨⟨act, hostHead, 0x4001, 1, 4, 2000, by unfold State.admits; decide +kernel, by decide +kernel⟩,
   ⟨transferring 4, hostHead, 0x83, _, by unfold State.admits; decide +kernel, by decide +kernel, rfl⟩,
   ⟨(headAsk hostHead 0x4001 1 4 2000), ((entryOf 0x4001 1).getD (roE .u8)), by decide +kernel⟩,
   ⟨0x4001, 1, 0x4001, 2, by decide +kernel⟩,
   ⟨true, by decide +kernel⟩,
   ⟨false, by decide +kernel⟩,
   ⟨act, hostHead, 0x4001, 200, 4, 2000, by decide +kernel⟩⟩

theorem witness_MailboxAndDap :
    (∃ (s : State), s.hostReaches = true) ∧
    (∃ (s : State), ∃ (p : Nat), ∃ (m : Nat), ∃ (g : Nat), s.answers = true ∧ s.transferOf p m g = none) ∧
    (∃ (s : State), ∃ (p : Nat), ∃ (m : Nat), ∃ (g : Nat), ∃ (x : Transfer), ∃ (d : Nat), ∃ (n : Nat),
      ∃ (u : Transfer), s.answers = true ∧ s.transferOf p m g = some x ∧ x.got + n < streamLen x.len x.signed ∧
      u = { x with data := x.data + bytesAt d 0 n <<< (8 * x.got), got := x.got + n }) ∧
    (∃ (s : State), ∃ (p : Nat), ∃ (m : Nat), ∃ (g : Nat), ∃ (x : Transfer), ∃ (o : Nat), s.answers = true ∧
      s.transferOf p m g = some x ∧ o ≠ x.got) ∧
    (∃ (s : State), ∃ (p : Nat), ∃ (m : Nat), ∃ (g : Nat), ∃ (x : Transfer), s.answers = true ∧
      s.transferOf p m g = some x) ∧
    (∃ (s : State), s.answers = true) :=
  ⟨⟨act, by decide +kernel⟩,
   ⟨act, 0, 0, 0, by decide +kernel⟩,
   ⟨{ act with net := { act.net with open_ := [⟨0, 5, 6, false, 0x2100, 1, 16, 0, 4⟩] } }, 0, 5, 6, ⟨0, 5, 6, false,
     0x2100, 1, 16, 0, 4⟩, 0, 11, _, by decide +kernel, by decide +kernel, by decide +kernel, rfl⟩,
   ⟨{ act with net := { act.net with open_ := [⟨0, 5, 6, false, 0x2100, 1, 16, 0, 4⟩] } }, 0, 5, 6, ⟨0, 5, 6, false,
     0x2100, 1, 16, 0, 4⟩, 5, by decide +kernel⟩,
   ⟨{ act with net := { act.net with open_ := [⟨0, 5, 6, false, 0x2100, 1, 16, 0, 4⟩] } }, 0, 5, 6, ⟨0, 5, 6, false,
     0x2100, 1, 16, 0, 4⟩, by decide +kernel⟩,
   ⟨{ act with net := { act.net with open_ := [⟨0, 5, 6, false, 0x2100, 1, 16, 0, 4⟩] } }, by decide +kernel⟩⟩

theorem witness_HostPort :
    (∃ (s : State), ∃ (o : Nat), ∃ (w : Nat), s.hostReaches = true ∧ irregular o w false = true) ∧
    (∃ (s : State), ∃ (o : Nat), ∃ (w : Nat), s.hostReaches = true ∧ irregular o w true = true) ∧
    (∃ (s : State), ∃ (o : Nat), ∃ (w : Nat), s.hostReaches = true ∧ irregular o w false = false) ∧
    (∃ (s : State), s.hostReaches = true) ∧
    (∃ (s : State), ∃ (f : Nat), s.host.latchFrame = some f) ∧
    (∃ (s : State), s.hostReaches = true) ∧
    (∃ (s : State), s.hostReaches = true) ∧
    (∃ (s : State), ∃ (o : Nat), s.hostReaches = true ∧ irregular o 4 true = false ∧ s.heldWord o = false) ∧
    (∃ (s : State), ∃ (o : Nat), s.hostReaches = true ∧ irregular o 4 true = false ∧ s.heldWord o = true) ∧
    (∃ (s : State), ∃ (o : Nat), s.hostReaches = true ∧ irregular o 8 true = false ∧ s.heldWord o = false ∧
      s.heldWord (o + 4) = false) ∧
    (∃ (s : State), s.hostReaches = true) ∧
    (∃ (s : State), s.answers = true) ∧
    (∃ (s : State), s.answers = true) ∧
    (∃ (s : State), s.answers = true) :=
  ⟨⟨act, 2, 4, by decide +kernel⟩,
   ⟨act, 2, 4, by decide +kernel⟩,
   ⟨act, 0, 4, by decide +kernel⟩,
   ⟨act, by decide +kernel⟩,
   ⟨{ act with host := { act.host with latchFrame := some 9 } }, 9, by decide +kernel⟩,
   ⟨act, by decide +kernel⟩,
   ⟨act, by decide +kernel⟩,
   ⟨act, 0x40, by decide +kernel⟩,
   ⟨{ act with host := { act.host with busy := true } }, 0x10000, by decide +kernel⟩,
   ⟨act, 0x40, by decide +kernel⟩,
   ⟨act, by decide +kernel⟩,
   ⟨act, by decide +kernel⟩,
   ⟨act, by decide +kernel⟩,
   ⟨act, by decide +kernel⟩⟩

theorem witness_FieldNetwork :
    (∃ (s : State), ∃ (up : Bool), s.services = true ∧ s.net.linkA ≠ up) ∧
    (∃ (s : State), ∃ (up : Bool), s.services = true ∧ s.net.linkA = up) ∧
    (∃ (s : State), s.services = true ∧ s.mode ≠ .boot ∧ s.intake % 1000000 = 0) ∧
    (∃ (s : State), s.services = true ∧ s.mode ≠ .boot ∧ s.intake % 1000000 ≠ 0) ∧
    (∃ (s : State), s.services = true ∧ s.mode ≠ .boot ∧
      (s.net.pubDigest ≠ s.digest ∨ s.net.pubGeneration ≠ s.generation ∨ s.net.pubDue = true) ∧
      (s.net.pubTime = 0 ∨ s.net.pubTime + 100000 ≤ s.intake)) ∧
    (∃ (s : State), ∃ (h : ReqHead), ∃ (arg : Nat), s.admits h 0xC020 0 4 arg) ∧
    (∃ (s : State), ∃ (h : ReqHead), ∃ (c : Nat), ∃ (v : Nat), c < 3 ∧ s.admits h 0xC102 (c + 1) 8 v) :=
  ⟨⟨act, true, by decide +kernel⟩,
   ⟨act, false, by decide +kernel⟩,
   ⟨{ act with intake := 1000000 }, by decide +kernel⟩,
   ⟨act, by decide +kernel⟩,
   ⟨{ act with generation := 5 }, by decide +kernel⟩,
   ⟨act, hostHead, 0, by unfold State.admits; decide +kernel⟩,
   ⟨act, hostHead, 2, 9, by decide +kernel, by unfold State.admits; decide +kernel⟩⟩

theorem witness_CellLink :
    (∃ (s : State), ∃ (p : Nat), s.sweeping = true ∧ (s.port p).waiting = none) ∧
    (∃ (s : State), ∃ (p : Nat), ∃ typ, ∃ n, s.sweeping = true ∧ (s.port p).waiting = some (typ, n) ∧ typ ≠ 1) ∧
    (∃ (s : State), ∃ (p : Nat), ∃ typ, ∃ n, s.sweeping = true ∧ (s.port p).waiting = some (typ, n) ∧ typ ≠ 2) ∧
    (∃ (s : State), ∃ (p : Nat), ∃ typ, ∃ n, s.sweeping = true ∧ (s.port p).waiting = some (typ, n) ∧ typ ≠ 4) ∧
    (∃ (s : State), ∃ (p : Nat), ∃ typ, ∃ n, s.sweeping = true ∧ (s.port p).waiting = some (typ, n)) ∧
    (∃ (s : State), ∃ (p : Nat), ∃ (f : CellFrame), ∃ n, s.sweeping = true ∧ (s.port p).waiting = some (1, n) ∧
      s.answerGood p 0x81 8 f = true ∧ (s.port p).st = 1 ∧ bytesAt f.payload 0 1 = s.odv (0x5100 + p) 7 ∧
      bytesAt f.payload 1 1 = s.odv (0x5100 + p) 6 ∧ bytesAt f.payload 2 1 = s.odv (0x5100 + p) 8) ∧
    (∃ (s : State), ∃ (p : Nat), ∃ (f : CellFrame), ∃ n, s.sweeping = true ∧ (s.port p).waiting = some (2, n) ∧
      s.answerGood p 0x82 2 f = true ∧ f.payload % 65536 = 0) ∧
    (∃ (s : State), ∃ (p : Nat), ∃ (f : CellFrame), ∃ n, s.sweeping = true ∧ (s.port p).waiting = some (4, n) ∧
      s.answerGood p 0x84 (8 + 2 * (s.port p).cfg.n + 2 * (s.port p).cfg.t) f = true) ∧
    (∃ (s : State), ∃ (p : Nat), s.sweeping = true ∧ s.populated p = true ∧ ((s.port p).st = 3 ∨ (s.port p).st = 4)) ∧
    (∃ (s : State), s.sweeping = true) ∧
    (∃ (s : State), ∃ (u : State), s.sweeping = true ∧
      u = { s with out := [], cells := { s.cells with ports := tabMap {} (fun o => { o with sampleDue := false }) s.cells.ports } } ∧
      s.populatedPorts = []) ∧
    (∃ (s : State), ∃ (u : State), ∃ p, s.sweeping = true ∧
      u = { s with out := [], cells := { s.cells with ports := tabMap {} (fun o => { o with sampleDue := false }) s.cells.ports } } ∧
      s.populatedPorts = [p] ∧ (u.port p).st = 2 ∧ (u.port p).sample ≠ none) ∧
    (∃ (s : State), s.sweeping = true ∧ s.cells.inSweep = true) ∧
    (∃ (s : State), s.sweeping = false) :=
  ⟨⟨act, 0, by decide +kernel⟩,
   ⟨withPort { st := 2, waiting := some (4, 9) }, 0, 4, 9, by decide +kernel⟩,
   ⟨withPort { st := 2, waiting := some (4, 9) }, 0, 4, 9, by decide +kernel⟩,
   ⟨withPort { st := 2, waiting := some (1, 9) }, 0, 1, 9, by decide +kernel⟩,
   ⟨withPort { st := 2, waiting := some (3, 9) }, 0, 3, 9, by decide +kernel⟩,
   ⟨withPort { st := 1, waiting := some (1, 9) }, 0, (cellFrame 0x81 9 8 (packBytes [(1, (withPort {}).odv 0x5100 7),
     (1, (withPort {}).odv 0x5100 6), (1, (withPort {}).odv 0x5100 8), (1, 0), (2, 3), (2, 0)])), 9, by decide +kernel⟩,
   ⟨withPort { st := 1, waiting := some (2, 9) }, 0, (cellFrame 0x82 9 2 0), 9, by decide +kernel⟩,
   ⟨withPort { st := 2, waiting := some (4, 9) }, 0, (cellFrame 0x84 9 56 7), 9, by decide +kernel⟩,
   ⟨withPort { st := 4 }, 0, by decide +kernel⟩,
   ⟨act, by decide +kernel⟩,
   ⟨od act 0x5002 0 0, _, by decide +kernel, rfl, by decide +kernel⟩,
   ⟨withPort { st := 2, sample := some (9, 0) }, _, 0, by decide +kernel, rfl, by decide +kernel, by decide +kernel,
     by decide +kernel⟩,
   ⟨{ act with cells := { act.cells with inSweep := true } }, by decide +kernel⟩,
   ⟨cold, by decide +kernel⟩⟩

theorem witness_StoredEnergy :
    (∃ (s : State), ∃ (ch : Nat), ∃ (bit : Bool), ∃ (d : Int), s.up = true ∧ ch < 8 ∧ (s.chan ch).csLost = false ∧
      d = (if bit then (s.odv (0x6100 + ch) 5 : Int) else -(s.odv (0x6100 + ch) 5 : Int))) ∧
    (∃ (s : State), ∃ (ch : Nat), s.up = true ∧ (s.chan ch).csLost = true) ∧
    (∃ (s : State), ∃ (ch : Nat), s.up = true ∧ ch < 8 ∧ (s.chan ch).csLost = false) ∧
    (∃ (s : State), ∃ (ch : Nat), s.up = true ∧ ch < 8 ∧ (s.chan ch).csLost = true) ∧
    (∃ (s : State), s.up = true) ∧
    (∃ (s : State), ∃ (ch : Nat), s.up = true ∧ ch < 8 ∧ s.fullNow ch = true ∧ s.taperDone ch = true ∧
      (s.chan ch).full = false) ∧
    (∃ (s : State), s.up = true) ∧
    (∃ (s : State), ∃ (h : ReqHead), ∃ (mask : Nat), s.admits h 0x6002 0 1 mask) ∧
    (∃ (mask : Nat), ∃ (ch : Nat), ch < 8 ∧ bitAt mask ch = true) ∧
    (∃ (s : State), s.services = true ∧ s.se.lastWrite = none ∧ s.se.pending = true ∧ s.power.inRange = true ∧
      s.power.leaving = false ∧ s.nvr.writing = none) ∧
    (∃ (s : State), s.services = true ∧ s.se.lastWrite = none ∧ s.se.pending = false ∧ s.intake < 600000000) :=
  ⟨⟨act, 0, true, _, by decide +kernel, by decide +kernel, by decide +kernel, rfl⟩,
   ⟨withChan { csLost := true }, 0, by decide +kernel⟩,
   ⟨act, 0, by decide +kernel⟩,
   ⟨withChan { csLost := true, lossTime := 8 }, 0, by decide +kernel⟩,
   ⟨act, by decide +kernel⟩,
   ⟨od (od (od (withChan { cls := 1, current := -1 / 10, vHigh := some 100, fullSince := some 0 }) 0x6100 1 1) 0x6100 0x0A 90) 0x6100 0x0B 5,
     0, by decide +kernel⟩,
   ⟨act, by decide +kernel⟩,
   ⟨act, hostHead, 255, by unfold State.admits; decide +kernel⟩,
   ⟨128, 7, by decide +kernel⟩,
   ⟨{ act with se := { act.se with pending := true } }, by decide +kernel⟩,
   ⟨act, by decide +kernel⟩⟩

theorem witness_Rails :
    (∃ (s : State), ∃ (j : Nat), ∃ (u : State), s.up = true ∧ u = State.rampReach { s with out := [] } j ∧
      u.railOn j = true) ∧
    (∃ (s : State), ∃ (j : Nat), ∃ (u : State), s.up = true ∧ u = State.rampReach { s with out := [] } j ∧
      u.railOn j = false) ∧
    (∃ (s : State), ∃ (j : Nat), (∀ g, g ∈ s.mpc.rising → j ∉ g)) ∧
    (∃ (s : State), ∃ (j : Nat), s.up = true ∧ j < 5) ∧
    (∃ (j : Nat), 5 ≤ j ∧ j < 13) ∧
    (∃ (s : State), ∃ (j : Nat), ∃ (u : State), s.up = true ∧ 5 ≤ j ∧ j < 13 ∧
      u = State.rampReach { s with out := [] } j ∧ (u.rail j).st = 1 ∧ (u.rail j).retried = false) ∧
    (∃ (s : State), ∃ (j : Nat), ∃ (u : State), s.up = true ∧ 5 ≤ j ∧ j < 13 ∧
      u = State.rampReach { s with out := [] } j ∧ (u.rail j).st = 1 ∧ (u.rail j).retried = true) ∧
    (∃ (s : State), ∃ (j : Nat), s.up = true ∧ (s.rail j).st ≠ 3) ∧
    (∃ (s : State), ∃ (j : Nat), ∃ (u : State), s.up = true ∧ (s.rail j).st = 3 ∧ 5 ≤ j ∧
      u = State.cdDue { s with out := [], cd := { s.cd with retry := false }, mpc := { s.mpc with rails := tabMod {} s.mpc.rails j (fun r => { r with st := 0 }) } }) ∧
    (∃ (s : State), ∃ (j : Nat), ∃ (inp : CdStartInputs), ∃ (u : State), s.up = true ∧ (s.rail j).st = 3 ∧ j < 5 ∧
      s.mode = .boot ∧ inp.highSideShort = none ∧
      u = State.raiseRails { s with out := [] } (((upTo 5).filter (j ≤ ·)).map (fun k => [k]))) ∧
    (∃ (s : State), ∃ (h : ReqHead), s.admits h 0x7041 0 1 1) ∧
    (∃ (s : State), ∃ j, 5 ≤ j ∧ j < 13 ∧ (s.rail j).st = 4) :=
  ⟨⟨withRail 12 { st := 2 }, 12, _, by decide +kernel, rfl, by decide +kernel⟩,
   ⟨act, 12, _, by decide +kernel, rfl, by decide +kernel⟩,
   ⟨act, 12, by decide +kernel⟩,
   ⟨act, 4, by decide +kernel⟩,
   ⟨5, by decide +kernel⟩,
   ⟨withRail 5 { st := 1 }, 5, _, by decide +kernel, by decide +kernel, by decide +kernel, rfl, by decide +kernel,
     by decide +kernel⟩,
   ⟨withRail 5 { st := 1, retried := true }, 5, _, by decide +kernel, by decide +kernel, by decide +kernel, rfl,
     by decide +kernel, by decide +kernel⟩,
   ⟨act, 5, by decide +kernel⟩,
   ⟨withRail 5 { st := 3 }, 5, _, by decide +kernel, by decide +kernel, by decide +kernel, rfl⟩,
   ⟨{ withRail 4 { st := 3 } with mode := .boot }, 4, ⟨none, [], []⟩, _, by decide +kernel, by decide +kernel,
     by decide +kernel, by decide +kernel, by decide +kernel, rfl⟩,
   ⟨withRail 5 { st := 4 }, hostHead, by unfold State.admits; decide +kernel⟩,
   ⟨withRail 5 { st := 4 }, 5, by decide +kernel⟩⟩

theorem witness_PhasesAndHints :
    (∃ (s : State), ∃ (p : Nat), ∃ (n : Nat), s.up = true ∧ p = s.mpc.phases - b2n s.mpc.shedding ∧ n = s.phaseTarget) ∧
    (∃ (s : State), s.up = true ∧ s.shedEnabled = true ∧ (s.mpc.shedding = true ∨ s.mpc.phases < 32)) ∧
    (∃ (s : State), s.up = true ∧ s.shedEnabled = false) ∧
    (∃ (s : State), s.up = true) ∧
    (∃ (s : State), ∃ (j : Nat), s.up = true ∧ j < 13 ∧ (s.rail j).st = 2 ∧ s.railPhases j ≠ 0) ∧
    (∃ (s : State), ∃ (j : Nat), s.up = true ∧ (s.rail j).st ≠ 2) ∧
    (∃ (s : State), ∃ (unit : Nat), s.up = true ∧ s.te.hintQ.find? (fun h => decide (h.1 = unit)) = none) ∧
    (∃ (s : State), ∃ (unit : Nat), ∃ (h : Nat × HintMsg), s.up = true ∧
      s.te.hintQ.find? (fun h => decide (h.1 = unit)) = some h ∧ h.2.source < 0x80 ∧ (∀ x, x ∈ s.mpc.windows →
      x.1.source < 0x80)) ∧
    (∃ (s : State), ∃ (w : HintMsg), s.up = true ∧ s.mpc.windows = [(w, false)]) ∧
    (∃ (s : State), s.up = true ∧ s.mpc.ahead = []) :=
  ⟨⟨act, _, _, by decide +kernel, rfl, rfl⟩,
   ⟨{ act with mpc := { act.mpc with phases := 31 } }, by decide +kernel⟩,
   ⟨od act 0x7031 1 0, by decide +kernel⟩,
   ⟨act, by decide +kernel⟩,
   ⟨withRail 6 { st := 2 }, 6, by decide +kernel⟩,
   ⟨act, 0, by decide +kernel⟩,
   ⟨act, 0, by decide +kernel⟩,
   ⟨{ act with te := { act.te with hintQ := [(5, aHint)] } }, 5, (5, aHint), by decide +kernel⟩,
   ⟨{ act with mpc := { act.mpc with windows := [(aHint, false)] } }, aHint, by decide +kernel⟩,
   ⟨act, by decide +kernel⟩⟩

theorem witness_PowerMeasurement :
    (∃ (s : State), s.up = true) ∧
    (∃ (s : State), s.up = true ∧ s.cd.running = true ∧ s.mpc.estEnergy ≠ 0) ∧
    (∃ (s : State), s.up = true ∧ s.cd.running = false) ∧
    (∃ (s : State), s.up = true) :=
  ⟨⟨act, by decide +kernel⟩,
   ⟨{ act with mpc := { act.mpc with estEnergy := 5 } }, by decide +kernel⟩,
   ⟨cold, by decide +kernel⟩,
   ⟨act, by decide +kernel⟩⟩

theorem witness_Temperatures :
    (∃ (s : State), ∃ (hot : Bool), ∃ (cool : Bool), s.up = true ∧
      hot = (decide (signed 32 (s.odv 0x7030 1) ≤ s.hotCd) || decide (signed 32 (s.odv 0x7030 2) ≤ s.hotHbm)) ∧
      cool = (decide (s.hotCd ≤ signed 32 (s.odv 0x7030 1) - 500) && decide (s.hotHbm ≤ signed 32 (s.odv 0x7030 2) - 500))) ∧
    (∃ (s : State), s.up = true ∧ s.cd.running = true ∧ s.headroomHolds = true ∧ s.clk.target = none ∧
      s.clk.point < 7) ∧
    (∃ (s : State), s.up = true ∧ s.headroomHolds = false ∧ s.mayRun s.clk.heading = true) ∧
    (∃ (s : State), s.up = true ∧ (∀ i, (s.sensor i).trip = false)) ∧
    (∃ (s : State), ∃ (i : Nat), ∃ (rs : List Int), s.up = true ∧ 64 ≤ i ∧ i < 80 ∧ (s.sensor i).trip = true ∧
      tripAt i (Sensor.read s.mpc.sensors rs i).1.used = true) ∧
    (∃ (s : State), s.cd.thermalLatch = false) ∧
    (∃ (i : Nat), ∃ (old : Tab Sensor), (tabGet {} old i).st = 0 ∧ (tabGet {} old i).away < 999) :=
  ⟨⟨act, _, _, by decide +kernel, rfl, rfl⟩,
   ⟨{ od (od act 0xB061 0 1) 0xB062 0 5 with mpc := { act.mpc with headroom := 5000 } }, by decide +kernel⟩,
   ⟨od act 0xB062 0 6, by decide +kernel⟩,
   ⟨act, by decide +kernel, fun _ => rfl⟩,
   ⟨{ act with mpc := { act.mpc with sensors := [(64, { used := 11500, trip := true })] } }, 64,
     (List.replicate 95 11500), by decide +kernel⟩,
   ⟨act, by decide +kernel⟩,
   ⟨3, ([] : Tab Sensor), by decide +kernel⟩⟩

theorem witness_LeaseRenewals :
    (∃ (s : State), s.up = true ∧ s.red.held = true ∧ s.red.armed = true ∧ s.power.gate = true ∧
      s.red.claimFrame < s.frame ∧ (s.frame - s.red.claimFrame) % 12500 = 0 ∧ s.red.unacked < 3) ∧
    (∃ (s : State), s.up = true ∧
      (s.red.armed = false ∨ s.power.gate = false ∨ (s.frame - s.red.claimFrame) % 12500 ≠ 0)) ∧
    (∃ (s : State), ∃ (us : Nat), s.services = true ∧ (us < 500 ∨ 2000 < us)) ∧
    (∃ (s : State), ∃ (us : Nat), s.services = true ∧ s.red.held = false ∧ 500 ≤ us ∧ us ≤ 2000) ∧
    (∃ (s : State), ∃ (us : Nat), s.services = true ∧ s.red.held = true ∧ 500 ≤ us ∧ us ≤ 2000 ∧
      (s.mode = .takeover ∨ s.mode = .active ∨ s.mode = .degraded)) ∧
    (∃ (s : State), ∃ (us : Nat), s.services = true ∧ s.red.held = true ∧ 500 ≤ us ∧ us ≤ 2000 ∧ s.mode = .safeHold) :=
  ⟨⟨act, by decide +kernel⟩,
   ⟨{ act with frame := 100001 }, by decide +kernel⟩,
   ⟨act, 499, by decide +kernel⟩,
   ⟨cold, 500, by decide +kernel⟩,
   ⟨act, 500, by decide +kernel⟩,
   ⟨holding, 500, by decide +kernel⟩⟩

theorem witness_RenewalAnswers :
    (∃ (s : State), s.services = true ∧ s.red.ackDue = none) ∧
    (∃ (s : State), ∃ (a : AckDue), ∃ (line : Bool), s.services = true ∧ s.mode = .standbyCold ∧
      s.red.ackDue = some a ∧ line = (a.line && decide (a.lineAt ≤ s.intake)) ∧ ((line = true ∧
      a.lane = true) ∨ a.at_ + 3000 ≤ s.intake)) ∧
    (∃ (s : State), ∃ (a : AckDue), ∃ (line : Bool), s.services = true ∧ s.mode = .standbyCold ∧
      s.red.ackDue = some a ∧ line = (a.line && decide (a.lineAt ≤ s.intake)) ∧ (line = false ∨ a.lane = false) ∧
      s.intake < a.at_ + 3000) ∧
    (∃ (s : State), ∃ (number : Nat), s.services = true ∧
      (s.red.held = false ∨ number ≠ s.red.sentNo ∨ s.red.unacked = 0)) ∧
    (∃ (s : State), ∃ (number : Nat), s.services = true ∧ s.red.held = true ∧ number = s.red.sentNo ∧
      s.red.unacked ≠ 0) :=
  ⟨⟨act, by decide +kernel⟩,
   ⟨{ cold with red := { cold.red with ackDue := some ⟨9, true, false, 400000, 400200⟩ }, ferry := { cold.ferry with links := [(48, { st := 4 })] } },
     ⟨9, true, false, 400000, 400200⟩, _, by decide +kernel, by decide +kernel, by decide +kernel, rfl,
     by decide +kernel⟩,
   ⟨{ cold with red := { cold.red with ackDue := some ⟨9, true, false, 500000, 500200⟩ } }, ⟨9, true, false, 500000,
     500200⟩, _, by decide +kernel, by decide +kernel, by decide +kernel, rfl, by decide +kernel, by decide +kernel⟩,
   ⟨act, 4, by decide +kernel⟩,
   ⟨{ act with red := { act.red with unacked := 2 } }, 0, by decide +kernel⟩⟩

theorem witness_LeaseClaims :
    (∃ (s : State), s.services = true ∧ s.claimAllowed = true) ∧
    (∃ (s : State), s.services = true ∧ s.claimAllowed = false) ∧
    (∃ (s : State), s.claimAllowed = true ∧ s.red.handover = false) ∧
    (∃ (s : State), s.claimAllowed = true) :=
  ⟨⟨{ od cold 0x8002 0 1 with eff := [(okey 0x1300 1, 1)] }, by decide +kernel⟩,
   ⟨act, by decide +kernel⟩,
   ⟨{ od cold 0x8002 0 1 with eff := [(okey 0x1300 1, 1)] }, by decide +kernel⟩,
   ⟨{ od cold 0x8002 0 1 with eff := [(okey 0x1300 1, 1)] }, by decide +kernel⟩⟩

theorem witness_LeaseEnds :
    (∃ (s : State), s.up = true ∧ (s.red.timer = false ∨ s.intake < s.red.renewedAt + 200000)) ∧
    (∃ (s : State), s.up = true ∧ s.red.timer = true ∧ s.red.renewedAt + 200000 ≤ s.intake ∧
      (s.mode = .takeover ∨ s.mode = .active ∨ s.mode = .degraded) ∧ s.red.held = true) ∧
    (∃ (s : State), s.power.leaving = false ∧ s.red.lost = true ∧
      (s.mode = .takeover ∨ s.mode = .active ∨ s.mode = .degraded)) ∧
    (∃ (s : State), s.up = true ∧ s.red.timer = true ∧ s.red.renewedAt + 200000 ≤ s.intake ∧
      s.power.leaving = false ∧ s.mode = .safeHold) ∧
    (∃ (s : State), s.mode = .takeover ∧ s.power.leaving = false ∧ s.red.claimFrame + 10000 ≤ s.frame) ∧
    (∃ (s : State), s.up = true ∧ s.mode ≠ .takeover) :=
  ⟨⟨cold, by decide +kernel⟩,
   ⟨act, by decide +kernel⟩,
   ⟨{ act with red := { act.red with lost := true } }, by decide +kernel⟩,
   ⟨holding, by decide +kernel⟩,
   ⟨taking, by decide +kernel⟩,
   ⟨act, by decide +kernel⟩⟩

theorem witness_TakeoverRestores :
    (∃ (s : State), s.mode = .takeover ∧ s.red.step = 1) ∧
    (∃ (s : State), s.mode = .takeover ∧ s.red.step = 1 ∧ s.red.claimFrame + 7500 ≤ s.frame) ∧
    (∃ (s : State), s.mode = .takeover ∧ s.red.step = 1 ∧ s.frame < s.red.claimFrame + 7500) ∧
    (∃ (s : State), ∃ (r : Nat), s.up = true ∧ s.red.held = true ∧ s.ce.inService = true ∧
      bitAt s.red.tables r = true ∧ (s.ce.kept.rc r).mask = 0xFF) ∧
    (∃ (s : State), ∃ (r : Nat), s.up = true ∧ bitAt s.red.tables r = false) :=
  ⟨⟨taking, by decide +kernel⟩,
   ⟨taking, by decide +kernel⟩,
   ⟨{ taking with frame := 57499 }, by decide +kernel⟩,
   ⟨{ act with red := { act.red with tables := 8 }, ce := { act.ce with kept := { act.ce.kept with rcs := [(3, { mask := 0xFF })] } } },
     3, by decide +kernel⟩,
   ⟨act, 0, by decide +kernel⟩⟩

theorem witness_CheckpointWrites :
    (∃ (s : State), s.up = true ∧ s.frame % 2500 ≠ 1250) ∧
    (∃ (s : State), ∃ w, s.up = true ∧ s.writesCheckpoints = true ∧ s.frame % 2500 = 1250 ∧ s.red.writing = some w) ∧
    (∃ (s : State), s.up = true ∧ s.writesCheckpoints = true ∧ s.frame % 2500 = 1250 ∧ s.red.writing = none ∧
      s.red.cpKnown = true) ∧
    (∃ (s : State), ∃ (w : CpWrite), s.up = true ∧ s.red.writing = some w ∧ w.reread = false) ∧
    (∃ (s : State), s.up = true ∧ s.red.writing = none) :=
  ⟨⟨{ act with frame := 100001 }, by decide +kernel⟩,
   ⟨{ act with frame := 101250, red := { act.red with writing := some ⟨9, true, none, 5, false⟩ } }, ⟨9, true, none,
     5, false⟩, by decide +kernel⟩,
   ⟨{ act with frame := 101250, red := { act.red with cpKnown := true } }, by decide +kernel⟩,
   ⟨{ act with red := { act.red with writing := some ⟨9, true, none, 5, false⟩, cpFails := 2 } }, ⟨9, true, none, 5,
     false⟩, by decide +kernel⟩,
   ⟨act, by decide +kernel⟩⟩

theorem witness_SwitchOver :
    (∃ (s : State), ∃ (h : ReqHead), s.admits h 0x8010 0 1 1) ∧
    (∃ (s : State), (s.mode = .active ∨ s.mode = .degraded) ∧ s.red.closeDue = true ∧ s.hold.hostDue = false ∧
      s.power.leaving = false ∧ s.red.lost = false) ∧
    (∃ (s : State), s.services = true ∧ s.mode = .standbyCold) ∧
    (∃ (s : State), s.services = true ∧ s.mode ≠ .standbyCold) ∧
    (∃ (s : State), s.services = true ∧ s.mode ≠ .boot) ∧
    (∃ (s : State), s.mode = .boot) ∧
    (∃ (s : State), s.services = true) :=
  ⟨⟨{ act with power := { act.power with peerOk := true }, peerPubs := [(48, 1)], red := { act.red with peerState := 2, peerAt := 500001, peerFlags := 1 }, ferry := { act.ferry with links := [(48, { st := 4 })] } },
    hostHead, by unfold State.admits; decide +kernel⟩,
   ⟨{ act with red := { act.red with closeDue := true } }, by decide +kernel⟩,
   ⟨cold, by decide +kernel⟩,
   ⟨act, by decide +kernel⟩,
   ⟨act, by decide +kernel⟩,
   ⟨booting, by decide +kernel⟩,
   ⟨act, by decide +kernel⟩⟩

theorem witness_OnlyAClaimOpensTheGate : ∃ (c : Instr) (s t : State), exec c s = .next t ∧ t.power.gate = true ∧
    s.power.gate = false :=
  ⟨.leaseClaim, { od cold 0x8002 0 1 with eff := [(okey 0x1300 1, 1)] }, _, rfl, by decide +kernel⟩

theorem witness_FrameNumberAdvances : ∃ (c : Instr) (s t : State), exec c s = .next t ∧ s.up = true :=
  ⟨.gangwayFrameBoundary false, act, _, rfl, by decide⟩

theorem witness_SubindexZero : ∃ (i k : Nat) (e : Entry), k ≠ 0 ∧ entryOf i k = some e := ⟨0x4001, 4, _, by decide, rfl⟩

/-! ## Commands: one step each -/

/-- The command answers a next state that passes a test. -/
def leaves (c : Instr) (s : State) (f : State → Bool) : Bool :=
  match exec c s with | .next t => f t | .fault _ => false | .refused _ => false

/-- NIST's vector for "abc". -/
theorem test_sha512_abc : sha512 3 0x636261 =
    0x9fa44ca54fc99a2a0ee83c6423444d45bdebfea3233cba36a8c14f272a9992219ad3554be6ee9e0aa27ea9894efae612314120ae497341ccba7a6193a135afdd := by
  decide +kernel

/-- The check value of CRC-32 over "123456789". -/
theorem test_crc32 : crc32 9 0x393837363534333231 = 0xCBF43926 := by decide +kernel

/-- R71: a frame boundary counts one frame. -/
theorem test_frame_counts : leaves (.gangwayFrameBoundary false) act (fun t => t.frame == 100001) = true := by decide +kernel

/-- R222: an intake boundary counts one frame. -/
theorem test_intake_counts : leaves .intakeFrameBoundary act (fun t => t.intake == 500002) = true := by decide +kernel

/-- R44: 43,999 mV is outside the range. -/
theorem test_input_leaves : leaves (.inputSupervisorTick 43999) act (fun t => t.mode == .off && !t.power.gate) = true := by
  decide +kernel

/-- R44: 44,000 mV is inside. -/
theorem test_input_stays : leaves (.inputSupervisorTick 44000) act (fun t => t.mode == .active && t.power.inputLow) = true := by
  decide +kernel

/-- R53, R507: a pulse of 499 µs is discarded and counted; one of 500 µs closes the gate of a holder, which has lost the
lease. -/
theorem test_pulse_lengths : leaves (.leasePulseReceive 499) act (fun t => t.power.pulsesDiscarded == 1 && t.red.held) = true ∧
    leaves (.leasePulseReceive 500) act (fun t => t.red.lost && !t.power.gate && !t.red.held) = true := by decide +kernel

/-- R505: the first renewal after the claim follows the number last received. -/
theorem test_claim_number : leaves .leaseClaim
    { od cold 0x8002 0 1 with eff := [(okey 0x1300 1, 1)], red := { cold.red with recvNo := some 41 } }
    (fun t => t.red.sentNo == 42 && t.mode == .takeover && t.power.gate) = true := by decide +kernel

/-- R29: the hold limit closes the gate and keeps the state. -/
theorem test_hold_limit : leaves .holdLimitExpiry holding (fun t => t.mode == .safeHold && !t.power.gate && t.red.held) = true := by
  decide +kernel

/-- R73: the loss of the root shuts the module down. -/
theorem test_root_lost : leaves (.rootOrIoPllLost true) act (fun t => t.mode == .shutdownLatched && !t.power.gate) = true := by
  decide +kernel

/-- R252: a budget written over the mailbox is stored and answered OK. -/
theorem test_budget_write : leaves (.budgetWrite hostHead 2000) act (fun t => t.odv 0x4001 1 == 2000 && t.host.status == 0) = true := by
  decide +kernel

/-- R16: a read of an object that does not exist is refused with NO_OBJECT. -/
theorem test_no_object : leaves (.dictionaryRead ⟨.host, false, 0x4000, 1, 0, 0,
  0⟩) act (fun t => t.host.status == stNoObject && t.host.done) = true := by
  decide +kernel

/-- R156: SCALAR adds modulo 2^32. -/
theorem test_scalar_wraps : leaves (.scalar (.stream 0) quiet) (onCore [0x100005, 2, 0xFFFFFFFF, 0])
    (fun t => match (t.stream 0).run with | some r => r.reg 0 == 0xFFFFFFFF && r.index == 1 | none => false) = true := by decide +kernel

/-- R156: SKIP on equality passes over the commands it names. -/
theorem test_skip_taken : leaves (.skip (.stream 0)) (onCore [0x06, 0, 0, 3])
    (fun t => match (t.stream 0).run with | some r => r.index == 4 | none => false) = true := by decide +kernel

/-- R162: an EMIT takes one of the 16 credits of its core. -/
theorem test_emit_credit : leaves (.emit (.stream 0) quiet) (onCore [0x0B, 0x08000000, 0, 0, 0, 8])
    (fun t => tabGet 0 t.te.credits 128 == 1 && t.te.emitQ.length == 1) = true := by decide +kernel

/-- R322: a link with crossing lock comes up. -/
theorem test_link_up : leaves (.linkUp 0 77) (withLink { st := 3 }) (fun t => t.linkIsUp 0) = true := by decide +kernel

/-- R477: an over-voltage of a SIOD rail shuts the module down, one of a CD rail only latches it. -/
theorem test_over_voltage :
    leaves (.railOverVoltage 4 ⟨0, 0, 0⟩) (withRail 4 { st := 2 }) (fun t => t.mode == .shutdownLatched) = true ∧
    leaves (.railOverVoltage 5 ⟨0, 0,
      0⟩) (withRail 5 { st := 2 }) (fun t => t.mode == .active && (t.rail 5).st == 4) = true := by
  decide +kernel

/-- R497: the second reading at 115 °C shuts the module down, the first does not. -/
theorem test_siod_trip :
    leaves (.sensorRead (List.replicate 95 11500)) act (fun t => t.mode == .active) = true ∧
    leaves (.sensorRead (List.replicate 95 11500))
      { act with mpc := { act.mpc with sensors := [(64, { used := 11500, trip := true })] } }
      (fun t => t.mode == .shutdownLatched) = true := by decide +kernel

/-- R203: a struck bit is corrected on a read of the window. -/
theorem test_struck_bit : leaves (.bar2Read 8 4 [⟨.hbm, 8, 1⟩]) { act with cd := { act.cd with stackCond := [(0, 1)] } }
    (fun t => t.out.contains (.bar2 false 4 0)) = true := by decide +kernel

/-- The queue: the first command in is the first one taken. -/
theorem test_queue_order : (match step { act with pending := [.serdesPllRelock, .sweepRead] } with
    | .next t => t.pending == [.sweepRead] | .fault _ => false | .refused _ => false) = true := by decide +kernel

end Sys2Proof.Tests
end

/-! ## Subindex 0 of the dictionary objects (R11)

The argument never looks at a table of a home chapter: the entry of a record at a subindex above 0
is the one its list holds, and `topSub` is the greatest subindex of that list. -/

namespace Sys2Proof.Machine

open Sys2Proof

/-! ## Records: the subindices in use and the greatest of them -/

/-- The subindices that a record's list holds. -/
def subsOf (es : List (Nat × Entry)) : List Nat := es.map Prod.fst

theorem findSub_isSome_iff (es : List (Nat × Entry)) (k : Nat) : (findSub es k).isSome = true ↔ k ∈ subsOf es := by
  induction es with
  | nil => simp [findSub, subsOf]
  | cons x es ih =>
    obtain ⟨j, e⟩ := x
    by_cases h : j = k
    · simp [findSub, subsOf, h]
    · simpa [findSub, subsOf, h, Ne.symm h] using ih

/-- `topSub` is the maximum of the subindices and 0: everything below follows from the library's account of `List.max?`. -/
theorem max?_zero_cons_subsOf (es : List (Nat × Entry)) : (0 :: subsOf es).max? = some (topSub es) := by
  rw [List.max?_cons', subsOf, List.foldl_map, topSub]

theorem le_topSub {es : List (Nat × Entry)} {k : Nat} (h : k ∈ subsOf es) : k ≤ topSub es :=
  (List.max?_eq_some_iff.mp (max?_zero_cons_subsOf es)).2 k (List.mem_cons_of_mem 0 h)

theorem topSub_mem {es : List (Nat × Entry)} (h : topSub es ≠ 0) : topSub es ∈ subsOf es :=
  (List.mem_cons.mp (List.max?_eq_some_iff.mp (max?_zero_cons_subsOf es)).1).resolve_left h

/-! ## The entries of an object -/

theorem entryOf_record_zero {i : Nat} {es : List (Nat × Entry)} (h : objectOf i = some (.record es)) :
    entryOf i 0 = some (roE .u8 (topSub es)) := by simp [entryOf, h]

theorem entryOf_record_isSome_iff {i k : Nat} {es : List (Nat × Entry)} (h : objectOf i = some (.record es)) (hk : k ≠ 0) :
    (entryOf i k).isSome = true ↔ k ∈ subsOf es := by
  simp [entryOf, h, hk, ← findSub_isSome_iff]

/-- Only a record has an entry above subindex 0. -/
theorem objectOf_of_entryOf {i k : Nat} {e : Entry} (hk : k ≠ 0) (h : entryOf i k = some e) :
    ∃ es, objectOf i = some (.record es) := by
  cases ho : objectOf i with
  | none => simp [entryOf, ho] at h
  | some o =>
    cases o with
    | single _ => simp [entryOf, ho, hk] at h
    | record es => exact ⟨es, rfl⟩

/-- Subindex 0 of a record reads as its greatest subindex in every state, and no status overrides it. -/
theorem odRead_record_zero {i : Nat} {es : List (Nat × Entry)} (h : objectOf i = some (.record es)) (s : State) :
    s.odRead i 0 (roE .u8 (topSub es)) = topSub es := by
  simp [State.odRead, h, roE]

/-- Every subindex of a record that has an entry, 0 among them, is at most its greatest subindex. -/
theorem le_topSub_of_entryOf {i m : Nat} {es : List (Nat × Entry)} (h : objectOf i = some (.record es))
    (hm : (entryOf i m).isSome = true) : m ≤ topSub es := by
  by_cases hz : m = 0
  · omega
  · exact le_topSub ((entryOf_record_isSome_iff h hz).mp hm)

/-- The greatest subindex of a record has an entry: of the list where it is above 0, and otherwise subindex 0's own. -/
theorem entryOf_topSub_isSome {i : Nat} {es : List (Nat × Entry)} (h : objectOf i = some (.record es)) :
    (entryOf i (topSub es)).isSome = true := by
  by_cases hz : topSub es = 0
  · rw [hz, entryOf_record_zero h, Option.isSome_some]
  · exact (entryOf_record_isSome_iff h hz).mpr (topSub_mem hz)

/-- Settles O42: an entry above subindex 0 makes the object a record, whose subindex 0 reads as the greatest subindex its
list holds. -/
theorem subindexZero : Obligations.SubindexZero := by
  intro i k e hk hke
  obtain ⟨es, hrec⟩ := objectOf_of_entryOf hk hke
  refine ⟨roE .u8 (topSub es), entryOf_record_zero hrec, rfl, rfl, fun s => ?_⟩
  rw [odRead_record_zero hrec s]
  exact ⟨entryOf_topSub_isSome hrec, fun _ hm => le_topSub_of_entryOf hrec hm⟩

end Sys2Proof.Machine

/-! ## Runs that end when their intake bank is reused (R227)

RUN_ENDED_AT_BANK_REUSE ends a list of runs one after another and may then clear the core's record of what it
issues. `State.endRuns` names the first part; each law of it is an induction over that list, and the second part
writes only the table of the cores. -/

namespace Sys2Proof.Machine

open Sys2Proof

/-! ## The runs that end -/

/-- The streams on a core whose run of frame `j` still executes when frame `j + 7` has closed. -/
def State.overdueOn (s : State) (c : Nat) : List Nat :=
  (s.streamsOn c).filter (fun n => (s.stream n).run.any (fun r => decide (r.frame + 7 < s.intake)))

/-- The run of a stream ends and is counted in OD 0x3030.09. -/
def State.endRun (s : State) (n : Nat) : State :=
  (s.setStream n (fun t => { t with run := none })).count 0x3030 9

/-- The runs of the listed streams end. -/
def State.endRuns (s : State) (ns : List Nat) : State := ns.foldl State.endRun s

/-- Ends the overdue runs and, where no run is left on the core, clears what it issues. -/
theorem State.bankReuse_eq (s : State) (c : Nat) :
    s.bankReuse c =
      if (s.endRuns (s.overdueOn c)).coreBusy c then s.endRuns (s.overdueOn c)
      else (s.endRuns (s.overdueOn c)).setCore c (fun k => { k with issuing := none }) := by
  have hoverdue : s.overdueOn c = (s.streamsOn c).filter (fun n => match (s.stream n).run with
      | some r => decide (r.frame + 8 ≤ s.intake) | none => false) := by
    refine List.filter_congr fun n _ => ?_
    cases (s.stream n).run <;> rfl
  rw [hoverdue]
  rfl

/-! ## What ending one run changes -/

theorem State.endRun_stream (s : State) (n j : Nat) :
    (s.endRun n).stream j = if j = n then { s.stream n with run := none } else s.stream j :=
  State.setStream_stream ..

theorem State.endRun_odv (s : State) (n : Nat) : (s.endRun n).odv 0x3030 9 = sat32 (s.odv 0x3030 9) 1 :=
  (State.odPut_odk ..).trans (if_pos rfl)

theorem State.endRun_te (s : State) (n : Nat) :
    (s.endRun n).te = { s.te with streams := tabMod {} s.te.streams n (fun t => { t with run := none }) } := rfl

theorem State.endRun_touches (s : State) (n : Nat) : Touches [.te, .dictionary] s (s.endRun n) :=
  ((Touches.refl _ s).step (touch_te s _) (by simp)).step (touch_od _ _) (by simp)

/-! ## What ending a list of runs changes -/

theorem State.endRuns_stream (s : State) (ns : List Nat) (j : Nat) :
    (s.endRuns ns).stream j = if j ∈ ns then { s.stream j with run := none } else s.stream j := by
  induction ns generalizing s with
  | nil => simp [State.endRuns]
  | cons n ns ih =>
    have hcons : (s.endRuns (n :: ns)).stream j = ((s.endRun n).endRuns ns).stream j := rfl
    rw [hcons, ih, State.endRun_stream]
    by_cases hj : j = n
    · simp [hj]
    · simp [hj]

/-- The counter saturates step by step, and that is the same as saturating once. -/
theorem State.endRuns_odv (s : State) (ns : List Nat) :
    (s.endRuns ns).odv 0x3030 9 =
      if ns = [] then s.odv 0x3030 9 else min (s.odv 0x3030 9 + ns.length) u32Max := by
  induction ns generalizing s with
  | nil => simp [State.endRuns]
  | cons n ns ih =>
    have hcons : (s.endRuns (n :: ns)).odv 0x3030 9 = ((s.endRun n).endRuns ns).odv 0x3030 9 := rfl
    rw [hcons, ih, State.endRun_odv, if_neg (List.cons_ne_nil n ns), List.length_cons, sat32]
    split
    case isTrue hnil => simp [hnil]
    case isFalse => omega

theorem State.endRuns_te (s : State) (ns : List Nat) :
    ∃ streams, (s.endRuns ns).te = { s.te with streams := streams } := by
  induction ns generalizing s with
  | nil => exact ⟨s.te.streams, rfl⟩
  | cons n ns ih =>
    obtain ⟨streams, hte⟩ := ih (s.endRun n)
    exact ⟨streams, hte.trans (by rw [State.endRun_te])⟩

theorem State.endRuns_touches (s : State) (ns : List Nat) : Touches [.te, .dictionary] s (s.endRuns ns) :=
  .foldl _ ns (.refl _ s) State.endRun_touches

/-! ## What the reuse of a bank changes -/

/-- The core's record of what it issues stands apart from the streams. -/
theorem State.bankReuse_stream (s : State) (c j : Nat) :
    (s.bankReuse c).stream j = if j ∈ s.overdueOn c then { s.stream j with run := none } else s.stream j := by
  rw [← State.endRuns_stream, State.bankReuse_eq]
  split <;> rfl

theorem State.bankReuse_odv (s : State) (c : Nat) :
    (s.bankReuse c).odv 0x3030 9 =
      if s.overdueOn c = [] then s.odv 0x3030 9 else min (s.odv 0x3030 9 + (s.overdueOn c).length) u32Max := by
  rw [← State.endRuns_odv, State.bankReuse_eq]
  split <;> rfl

/-- Of the tensor engine only the tables of the streams and of the cores are written. -/
theorem State.bankReuse_te (s : State) (c : Nat) :
    ∃ streams cores, (s.bankReuse c).te = { s.te with streams := streams, cores := cores } := by
  obtain ⟨streams, hte⟩ := s.endRuns_te (s.overdueOn c)
  rw [State.bankReuse_eq]
  split
  case isTrue => exact ⟨streams, s.te.cores, hte⟩
  case isFalse => exact ⟨streams, _, by rw [State.setCore, hte]⟩

theorem State.bankReuse_touches (s : State) (c : Nat) : Touches [.te, .dictionary] s (s.bankReuse c) := by
  have ended := s.endRuns_touches (s.overdueOn c)
  rw [State.bankReuse_eq]
  exact .ite ended (ended.step (touch_te _ _) (by simp))

/-! ## The command -/

theorem exec_runEndedAtBankReuse {s : State} (hup : s.up = true) (c : Nat) :
    exec (.runEndedAtBankReuse c) s = .next (State.bankReuse { s with out := [] } c) :=
  congrArg Host.Outcome.next (if_pos hup)

/-- Settles O21: the overdue runs end one by one and each is counted; the saturating count of all of them, and the frame
over streams, programs and queues, are the laws of `State.bankReuse`. -/
theorem bankReuse : Obligations.BankReuse := by
  intro c s ended hup hended
  have hoverdue : State.overdueOn { s with out := [] } c = ended := hended.symm
  obtain ⟨streams, cores, hte⟩ := State.bankReuse_te { s with out := [] } c
  have htouch := State.bankReuse_touches { s with out := [] } c
  refine ⟨_, exec_runEndedAtBankReuse hup c, fun n hn => ?_, fun n hn => ?_, ?_, ?_, ?_, ?_, ?_, ?_, ?_⟩
  · rw [State.bankReuse_stream, hoverdue, if_pos hn]
    rfl
  · rw [State.bankReuse_stream, hoverdue, if_neg hn]
    rfl
  · rw [State.bankReuse_odv, hoverdue]
    rfl
  · rw [hte]
  · rw [hte]
  · rw [hte]
  · rw [hte]
  · exact htouch.2 .out (by decide)
  · exact ((Touches.refl _ s).step (touch_out s []) (by simp)).step htouch (by simp)

end Sys2Proof.Machine

/-! ## The limit of the module log (R406)

`State.logForce` adds one entry to the ring and counts it; the interrupt of R408 and the counter of lost entries that may
go with it stand outside the log. Both kinds of entry, limited and never suppressed, are then that one addition. -/

namespace Sys2Proof.Machine

open Sys2Proof

/-! ## What an entry does to the log -/

/-- The log of a state with one more entry, written in the state's frame and operating state. -/
def State.logAdded (s : State) (event : Nat) (params : Blob) : Log :=
  { s.log with
    ring := (⟨s.log.next, s.frame, event, modeCode s.mode, params⟩ :: s.log.ring).take 2048
    next := s.log.next + 1
    inPeriod := s.log.inPeriod + 1 }

@[simp] theorem State.sendVector_log (s : State) (v : Nat) : (s.sendVector v).log = s.log := by
  unfold State.sendVector
  dsimp only
  split
  · rfl
  · exact State.emit_log ..

@[simp] theorem State.raise_log (s : State) (cause : Nat) : (s.raise cause).log = s.log := by
  unfold State.raise
  dsimp only
  split
  · exact State.sendVector_log ..
  · rfl

/-- What R408 does on a lost entry and on the threshold leaves the log as the addition made it: both branches of each of
its conditions have that log. -/
theorem State.logForce_log (s : State) (event : Nat) (params : Blob) :
    (s.logForce event params).log = s.logAdded event params := by
  simp only [State.logForce, State.logAdded, apply_ite State.log, State.raise_log, State.count_log, ite_self]

theorem State.logState_log (s : State) (old new : Mode) (trigger causes : Nat) :
    ∃ params, (s.logState old new trigger causes).log = s.logAdded 0xC002 params :=
  ⟨_, s.logForce_log _ _⟩

/-! ## The limit of the period and the limit of a source -/

theorem State.logEvent_of_room {s : State} (h : s.log.inPeriod < 32) (event : Nat) (params : Blob) :
    s.logEvent event params = s.logForce event params := if_pos h

theorem State.logEvent_of_full {s : State} (h : 32 ≤ s.log.inPeriod) (event : Nat) (params : Blob) :
    s.logEvent event params = s.count 0xC100 4 := if_neg (Nat.not_lt.mpr h)

/-- A counter reads what was added more than before, and stops at the greatest U32. -/
theorem State.count_odv_same (s : State) (i sub n : Nat) :
    (s.count i sub n).odv i sub = min (s.odv i sub + n) u32Max :=
  (State.odPut_odk ..).trans (if_pos rfl)

/-- In the second that the counts stand for, a source that has used its limit writes nothing, and another one counts its
entry and is then under the limit of the period (R531). -/
theorem State.logLimited_of_second {s : State} (h : s.log.second = s.second) (n source event : Nat) (params : Blob) :
    s.logLimited n source event params =
      if tabGet 0 s.log.perSecond (event * 4096 + source) < n then
        State.logEvent { s with log := { s.log with
          perSecond := tabMod 0 s.log.perSecond (event * 4096 + source) (· + 1) } } event params
      else s := by
  simp only [State.logLimited, if_pos h]

/-! ## The boundary of a budget period -/

/-- The boundary sets the count to 0 before anything of the period is written. -/
theorem State.periodBoundary_inPeriod (s : State) (n : Nat) :
    State.periodBoundary { s with log := { s.log with inPeriod := n } } = s.periodBoundary := by
  simp only [State.periodBoundary]

theorem exec_budgetPeriodBoundary {s : State} (hup : s.up = true) :
    exec .budgetPeriodBoundary s = .next (State.periodBoundary { s with out := [] }) :=
  congrArg Host.Outcome.next (if_pos hup)

/-- Settles O7: every entry is the one addition of `State.logForce_log`; the limits decide only whether it is made. -/
theorem logLimit : Obligations.LogLimit := by
  refine ⟨fun event params s => ⟨fun hroom => ?_, fun hfull => ?_⟩, fun old new trigger causes s => ?_,
    fun n source event params s hsec => ⟨fun hused => ?_, fun hleft => ?_⟩, fun n s hup => ?_⟩
  · rw [State.logEvent_of_room hroom]
    exact s.logForce_log event params
  · rw [State.logEvent_of_full hfull]
    exact ⟨State.count_log .., s.count_odv_same ..⟩
  · exact s.logState_log old new trigger causes
  · rw [State.logLimited_of_second hsec]
    exact if_neg (Nat.not_lt.mpr hused)
  · rw [State.logLimited_of_second hsec]
    exact if_pos hleft
  · rw [exec_budgetPeriodBoundary hup, exec_budgetPeriodBoundary (s := { s with log := { s.log with inPeriod := n } }) hup]
    exact congrArg Host.Outcome.next (State.periodBoundary_inPeriod { s with out := [] } n)

end Sys2Proof.Machine

section

-- One proof after the other: the default `by decide` of a side condition waits for the check of every earlier proof, and
-- proofs that wait side by side take a thread each.
set_option Elab.async false

/-! ## What every command does to the queue, the frame number and the gate (R49, R62, R71, R508)

`State.Follows` says it of the queue, of the frame number and of the gate invariant. That no operation but the claim opens
a closed gate stands beside it as `State.OpensNoGate`; `State.Leads` is both. One case analysis over the commands
(`exec_leads`) then serves every statement about the whole machine. -/

namespace Sys2Proof.Machine

open Sys2Proof

/-- A gate that is open after was open before. -/
structure State.OpensNoGate (s t : State) : Prop where
  gate : t.power.gate = true → s.power.gate = true

section OpensNoGate

variable {s t u : State}

theorem State.OpensNoGate.of_gv (h : t.gv = s.gv) : s.OpensNoGate t := by
  refine ⟨fun k => ?_⟩
  have hgate : t.power.gate = s.power.gate := congrArg (fun g => g.2.2.1) h
  rwa [← hgate]

theorem State.OpensNoGate.refl : s.OpensNoGate s := ⟨id⟩

theorem State.OpensNoGate.trans (h : s.OpensNoGate t) (k : t.OpensNoGate u) : s.OpensNoGate u :=
  ⟨fun g => h.gate (k.gate g)⟩

theorem State.OpensNoGate.gv_left (h : t.gv = s.gv) (k : t.OpensNoGate u) : s.OpensNoGate u := (of_gv h).trans k

theorem State.OpensNoGate.gv_right (k : s.OpensNoGate t) (h : u.gv = t.gv) : s.OpensNoGate u := k.trans (of_gv h)

/-- The gate of the view stays as it was. -/
theorem State.OpensNoGate.of_gvx {q m d} (h : t.gv = (q, (m, s.gv.2.2.1, d))) : s.OpensNoGate t := by
  refine ⟨fun k => ?_⟩
  have hgate : t.power.gate = s.power.gate := congrArg (fun g => g.2.2.1) h
  rwa [← hgate]

/-- The gate of the view is closed. -/
theorem State.OpensNoGate.of_closed {q m d} (h : t.gv = (q, (m, false, d))) : s.OpensNoGate t := by
  refine ⟨fun k => ?_⟩
  have hgate : t.power.gate = false := congrArg (fun g => g.2.2.1) h
  rw [hgate] at k
  exact Bool.noConfusion k

theorem ite_opensNoGate {c : Prop} [Decidable c] (ht : s.OpensNoGate t) (hu : s.OpensNoGate u) :
    s.OpensNoGate (if c then t else u) := by split <;> assumption

end OpensNoGate

/-! ### The ways into OFF, SHUTDOWN_LATCHED, BOOT and STANDBY_COLD -/

theorem State.closeGate_opensNoGate {s t : State} (h : t.gv = s.closeGate.gv) : s.OpensNoGate t :=
  .of_closed (h.trans (State.closeGate_gvx s))

theorem State.enterOff_opensNoGate (s : State) : s.OpensNoGate s.enterOff := ⟨fun h => Bool.noConfusion h⟩

theorem State.enterShutdown_opensNoGate (s : State) (c p) : s.OpensNoGate (s.enterShutdown c p) := by
  unfold State.enterShutdown
  split
  · exact .refl
  · exact ⟨fun h => Bool.noConfusion h⟩

theorem State.moveTo_opensNoGate (s : State) (m : Mode) (c t : Nat) : s.OpensNoGate (s.moveTo m c t) := by
  by_cases hm : m = .standbyCold
  · subst hm; exact .of_closed (State.moveTo_standby_gv s c t)
  · exact .of_gvx (State.moveTo_other_gv s m c t hm)

theorem State.move_opensNoGate (s : State) (m : Mode) (c t : Nat) : s.OpensNoGate (s.move m c t) :=
  ite_opensNoGate .refl (s.moveTo_opensNoGate m c t)

theorem State.moduleRestart_opensNoGate (s : State) (t : Nat) (straps) : s.OpensNoGate (s.moduleRestart t straps) := by
  have h := s.moduleRestart_gv t straps
  split at h
  · exact .of_gv h
  · exact .of_closed h

theorem State.leaveRange_opensNoGate (s : State) : s.OpensNoGate s.leaveRange := by
  unfold State.leaveRange
  refine ite_opensNoGate s.enterOff_opensNoGate ?_
  extract_lets s1 p s2
  have h2 : s2.gv = s.closeGate.gv := by
    refine (State.power_gv s1 p rfl).trans ?_
    simp only [s1, State.dropWaiting_gv, State.cdStop_gv]
  refine .trans (t := s2) (State.closeGate_opensNoGate h2) ?_
  split
  · exact .refl
  · exact s2.enterOff_opensNoGate

/-! ### Faults of rails and sensors, and starts of the CD -/

theorem State.latchRail_opensNoGate (s : State) (j c m) : s.OpensNoGate (s.latchRail j c m) := by
  unfold State.latchRail
  extract_lets p q s1 s2 s3 d s4
  split
  · exact s.enterShutdown_opensNoGate ..
  · refine .of_gv ?_
    have h1 : s1.gv = s.gv := by unfold s1; simp
    have h3 : s3.gv = s.gv := by simp only [s3, s2, State.count_gv, State.cdStop_gv, State.faultRecord_gv, h1]
    have h4 : s4.gv = s3.gv := by unfold s4; simp
    rw [State.mpcLog_gv, h4, h3]

theorem State.cdStart_opensNoGate (s : State) (i) : s.OpensNoGate (s.cdStart i) := by
  unfold State.cdStart
  extract_lets c s1 three s2
  have h1 : s1.gv = s.gv := by unfold s1; simp
  have h3 : three.2.gv = s.gv := by simp only [three, State.runStage_gv, State.cdPower_gv, h1]
  clear_value three
  split
  · exact ite_opensNoGate (.gv_left h1 (State.latchRail_opensNoGate ..)) (.of_gv h1)
  · refine ite_opensNoGate (.of_gv (by simp only [State.reaim_gv, State.cdRun_gv, h3])) (.of_gv ?_)
    exact h3

theorem State.cdStartDue_opensNoGate (s : State) (i) : s.OpensNoGate (s.cdStartDue i) :=
  ite_opensNoGate (s.cdStart_opensNoGate i) .refl

theorem State.railFault_opensNoGate (s : State) (j c m) : s.OpensNoGate (s.railFault j c m) :=
  .gv_left (State.rampReach_gv ..) (ite_opensNoGate (State.latchRail_opensNoGate ..) .refl)

theorem State.sensorRead_opensNoGate (s : State) (rs) : s.OpensNoGate (s.sensorRead rs) := by
  unfold State.sensorRead
  extract_lets old res trips new m s1 s2 fresh cd hbm s3 s4
  have h1 : s1.gv = s.gv := by unfold s1; simp
  have h2 : s2.gv = s1.gv := by
    refine foldl_gv _ _ _ (fun s x => ?_)
    split <;> simp only [State.mpcLog_gv]
  have h3 : s3.gv = s.gv := by unfold s3; cases cd <;> simp only [State.cdTrip_gv, h2, h1]
  have h4 : s4.gv = s.gv := by
    unfold s4
    cases hbm
    · exact h3
    · simp only [State.cdTrip_gv, h3]
  split
  · exact .gv_left (h2.trans h1) (State.enterShutdown_opensNoGate ..)
  · exact .of_gv (by rw [State.siodWarm_gv, h4])

theorem State.softStartShort_opensNoGate (s : State) (j m) : s.OpensNoGate (s.softStartShort j m) := by
  unfold State.softStartShort
  extract_lets s0 pl af p s1 s2 p1 s3 c s4
  have h0 : s0.gv = s.gv := State.rampReach_gv ..
  have h1 : s1.gv = s0.gv := by unfold s1; simp
  have h2 : s2.gv = s0.gv := by simp only [s2, State.count_gv, State.faultRecord_gv, h1]
  refine .gv_left h0 ?_
  split
  · exact .refl
  split
  · exact State.latchRail_opensNoGate ..
  · refine .of_gv ((State.mpcLog_gv ..).trans ?_)
    unfold s4
    split
    · exact (State.power_gv s2 _ rfl).trans h2
    · exact (State.cd_gv s3 _).trans ((State.cdStop_gv ..).trans h2)

theorem State.softStartRetry_opensNoGate (s : State) (j m) : s.OpensNoGate (s.softStartRetry j m) := by
  unfold State.softStartRetry
  extract_lets s1 p c m s2 s3
  split
  · exact .refl
  split
  · refine ite_opensNoGate .refl ?_
    split
    · exact ite_opensNoGate (State.latchRail_opensNoGate ..) .refl
    · exact .of_gv ((State.power_gv s1 _ rfl).trans (State.raiseRails_gv ..))
  · have h3 : s3.gv = s.gv := (State.cdDue_gv _).trans (State.cd_mpc_gv s _ _)
    exact .gv_left h3 (ite_opensNoGate (State.cdStart_opensNoGate ..) .refl)

/-! ### Boot and input power -/

theorem State.mpWatchdog_opensNoGate (s : State) : s.OpensNoGate s.mpWatchdog :=
  ite_opensNoGate (s.enterShutdown_opensNoGate ..) .refl

theorem State.bootDone_opensNoGate (s : State) : s.OpensNoGate s.bootDone := by
  unfold State.bootDone
  extract_lets s1 s2 p
  have h1 : s1.gv = s.gv := by unfold s1; split <;> simp only [State.rampAll_gv]
  exact .gv_left h1 (ite_opensNoGate ((s1.move_opensNoGate ..).gv_right (State.power_gv _ _ rfl)) .refl)

theorem State.bootWatchdog_opensNoGate (s : State) (straps) : s.OpensNoGate (s.bootWatchdog straps) := by
  unfold State.bootWatchdog
  split
  · exact .refl
  next h =>
    have hm : s.mode = .boot := Classical.byContradiction fun k => h (Or.inl k)
    extract_lets n p s1
    have h1 : s1.gv = s.gv := State.power_gv s _ rfl
    refine .gv_left h1 (ite_opensNoGate (.of_gv (State.bootStop_gv _ _ _ hm)) ?_)
    exact (State.OpensNoGate.of_gvx (State.servicesReset_gvx s1)).gv_right (State.bootRun_gv _ _ hm)

theorem State.powerOn_opensNoGate (s : State) (b) : s.OpensNoGate (s.powerOn b) := by
  unfold State.powerOn
  split
  · exact .refl
  · extract_lets before fault p m s1 s2 s3 c p2 s4
    have h1 : s1.gv = s.gv := State.mpc_power_gv s _ _ rfl
    have h2 : s2.gv = (s1.gv.1, (.boot, s1.gv.2.2)) := State.moveTo_other_gv _ _ _ _ (by decide)
    have f2 : s.OpensNoGate s2 := .gv_left h1 (.of_gvx h2)
    split
    · exact f2.trans (ite_opensNoGate (State.latchRail_opensNoGate ..) .refl)
    · have h4 : s4.gv = s2.gv := (State.clk_power_gv s3 _ _ rfl).trans (State.raiseRails_gv ..)
      have hb : s4.mode = .boot := by rw [State.mode_gv, h4, h2]
      exact f2.gv_right ((State.bootRun_gv _ _ hb).trans h4)

theorem State.mateOpen_opensNoGate (s : State) (n : Nat) : s.OpensNoGate (s.mateOpen n) := by
  unfold State.mateOpen
  refine ite_opensNoGate .refl ?_
  extract_lets p s1
  exact .gv_left (t := s1) (State.power_gv s _ rfl) (ite_opensNoGate .refl s1.leaveRange_opensNoGate)

theorem State.supervise_opensNoGate (s : State) (mv : Nat) : s.OpensNoGate (s.supervise mv) := by
  unfold State.supervise
  refine ite_opensNoGate .refl ?_
  extract_lets p s1 p1 n s2
  refine .gv_left (t := s1) (State.power_gv s _ rfl)
    (ite_opensNoGate (ite_opensNoGate (.of_gv (State.power_gv s1 _ rfl)) .refl) ?_)
  refine ite_opensNoGate ?_ (ite_opensNoGate (ite_opensNoGate ?_ (.of_gv (State.power_gv s1 _ rfl)))
    (.of_gv (State.power_gv s1 _ rfl)))
  · refine .trans ?_ (State.leaveRange_opensNoGate _)
    exact ite_opensNoGate (.of_gv (State.power_gv s1 _ rfl)) .refl
  · exact .gv_left (t := s2) (State.power_gv s1 _ rfl) s2.leaveRange_opensNoGate

theorem State.vaonLost_opensNoGate (s : State) : s.OpensNoGate s.vaonLost :=
  ite_opensNoGate .refl s.leaveRange_opensNoGate

theorem State.rideThroughEnd_opensNoGate (s : State) : s.OpensNoGate s.rideThroughEnd :=
  ite_opensNoGate s.leaveRange_opensNoGate .refl

theorem State.nvrDone_opensNoGate (s : State) : s.OpensNoGate s.nvrDone := by
  unfold State.nvrDone
  split
  · exact .refl
  next w hw =>
    extract_lets n s1 s2
    have h1 : s1.gv = s.gv := State.nvr_gv s _
    refine .gv_left h1 (ite_opensNoGate (.gv_left (State.nvr_gv s1 _) (State.enterOff_opensNoGate _)) ?_)
    have h2 : s2.gv = s1.gv := by
      unfold s2
      split
      · exact State.recordTaken_gv ..
      · exact State.nvr_gv s1 _
    split
    · exact .of_gv h2
    · exact .of_gv ((State.nvr_gv s2 _).trans h2)

/-! ### The frame boundary -/

theorem State.leaveHold_opensNoGate (s : State) (t : Nat) : s.OpensNoGate (s.leaveHold t) :=
  .gv_left ((State.ceRestart_gv _).trans (State.hold_gv ..)) (State.move_opensNoGate ..)

theorem State.holdFrame_opensNoGate (s : State) : s.OpensNoGate s.holdFrame := by
  unfold State.holdFrame
  refine ite_opensNoGate .refl (ite_opensNoGate (s.leaveHold_opensNoGate _) ?_)
  extract_lets s1
  have h1 : s1.gv = s.gv := by unfold s1; simp
  exact .gv_left h1 (ite_opensNoGate .refl (s1.leaveHold_opensNoGate _))

theorem State.enterHold_opensNoGate (s : State) : s.OpensNoGate s.enterHold :=
  .gv_left (State.holdCauses_gv s) (State.move_opensNoGate ..)

theorem State.causesFrame_opensNoGate (s : State) : s.OpensNoGate s.causesFrame :=
  ite_opensNoGate .refl (ite_opensNoGate (State.move_opensNoGate ..) (State.move_opensNoGate ..))

theorem State.switchFrame_opensNoGate (s : State) : s.OpensNoGate s.switchFrame := by
  unfold State.switchFrame
  refine ite_opensNoGate .refl (ite_opensNoGate ?_ (ite_opensNoGate (.of_gv (State.startCheckpoint_gv ..)) .refl))
  extract_lets last seq s1 s2 s3 s4
  refine (State.closeGate_opensNoGate (t := s1) rfl).trans ((s1.move_opensNoGate .standbyCold 0 0x0F).gv_right ?_)
  simp only [State.peerSend_gv, s4, State.setRed_gv, s3, State.count_gv, State.redLog_gv, s2]

theorem State.restartFrame_opensNoGate (s : State) : s.OpensNoGate s.restartFrame := by
  unfold State.restartFrame
  split
  · exact .gv_left (State.draw_gv _) (State.moduleRestart_opensNoGate ..)
  · exact .refl

theorem State.judge_opensNoGate (s : State) : s.OpensNoGate s.judge := by
  unfold State.judge
  extract_lets s1 s2
  have h1 : s1.gv = s.gv := by unfold s1; simp only [State.gv_mk]; rfl
  refine .gv_left h1 (ite_opensNoGate .refl (ite_opensNoGate (s1.move_opensNoGate ..)
    (ite_opensNoGate s1.restartFrame_opensNoGate (ite_opensNoGate s1.holdFrame_opensNoGate (ite_opensNoGate ?_ .refl)))))
  exact s1.switchFrame_opensNoGate.trans (ite_opensNoGate .refl
    (ite_opensNoGate s2.enterHold_opensNoGate s2.causesFrame_opensNoGate))

/-- A frame of the Gangway changes nothing of the gate: it only drives through an open one. -/
theorem State.gangwayFrame_gate (s : State) (d : Bool) : (s.gangwayFrame d).power.gate = s.power.gate := by
  unfold State.gangwayFrame
  extract_lets g s1 pos hold ratios g1 x s2 s3 s4 y s5 z s6
  split
  · have h3 : s3.gv = s2.gv := by simp only [s3, State.count64_gv, State.emit_gv]
    have h5 : s5.gv = s2.gv := ((State.gw_gv s4 _ rfl).trans (State.count_gv s3 0x1300 4 1)).trans h3
    have h6 : s6.gv = s2.gv := by
      unfold s6
      split
      · split
        · rw [State.raise_gv, State.logEvent_gv, h5]
        · exact h5
      · exact (State.gw_gv s3 _ rfl).trans h3
    exact congrArg (fun v => v.2.2.1) ((State.sendMgmt_gv _).trans h6)
  · rfl

theorem State.frameBoundary_opensNoGate (s : State) (d : Bool) : s.OpensNoGate (s.frameBoundary d) := by
  unfold State.frameBoundary
  refine ite_opensNoGate .refl ?_
  extract_lets s1 t s2 s3 g s4
  have h1 : s.OpensNoGate s1 :=
    .of_gvx (show s1.gv = ((s.pending, s.frame + 1), s.gv.2) from State.latchConvs_gv _)
  have h2 : s1.OpensNoGate s2 :=
    .gv_left (State.takeRecords_gv s1) (t.1.judge_opensNoGate.gv_right (State.ceFrame_gv ..))
  have h3 : s2.OpensNoGate s3 :=
    ite_opensNoGate (.of_gv (by simp only [State.digestFrame_gv, State.frameEffects_gv])) .refl
  clear_value s3
  have h4 : s3.OpensNoGate (s4.siodRead 784 801) := .of_gv ((State.siodRead_gv ..).trans (State.gw_gv s3 g rfl))
  refine ((h1.trans h2).trans (h3.trans h4)).trans (State.OpensNoGate.gv_right (t := (s4.siodRead 784 801).gangwayFrame d)
    ⟨fun h => (State.gangwayFrame_gate ..).symm.trans h⟩ ?_)
  simp only [State.lostCharge_gv, State.commitGrants_gv]

/-! ### The lease -/

theorem State.ceEnter_opensNoGate (s : State) : s.OpensNoGate s.ceEnter := by
  unfold State.ceEnter
  refine ite_opensNoGate .refl ?_
  extract_lets c s1 s2 us heard quiet passive causes s3 s4 s5 s6
  clear_value us heard quiet passive causes
  have h2 : s2.gv = s.gv := by unfold s2 s1; simp
  refine ite_opensNoGate ?_ (.of_gv h2)
  have h4 : s4.gv = s.gv := by
    rw [← (State.setRed_gv s2 _).trans h2]
    unfold s4
    simp only [State.gv_mk]
    rfl
  have h6 : s.OpensNoGate s6 := (State.OpensNoGate.gv_left h4 (s4.move_opensNoGate ..)).gv_right (State.redLog_gv ..)
  have h7 : s.OpensNoGate (if s6.gw.driving then s6 else s6.gangwayFrame s6.gw.readBack) :=
    ite_opensNoGate h6 (h6.trans ⟨fun h => (State.gangwayFrame_gate ..).symm.trans h⟩)
  exact h7.gv_right (State.commitGrants_gv ..)

theorem State.conflict_opensNoGate (s : State) (p : Nat) : s.OpensNoGate (s.conflict p) := by
  unfold State.conflict
  extract_lets s1 s2 s3
  have h3 : s3.gv = s.closeGate.gv := by simp only [s3, State.setRed_gv, s2, State.redLog_gv, s1, State.count_gv]
  exact ite_opensNoGate (State.closeGate_opensNoGate ((State.hold_gv ..).trans h3))
    (State.closeGate_opensNoGate ((State.setRed_gv ..).trans h3))

theorem State.pulseIn_opensNoGate (s : State) (us : Nat) : s.OpensNoGate (s.pulseIn us) := by
  unfold State.pulseIn
  refine ite_opensNoGate (.of_gv (State.power_gv s _ rfl))
    (ite_opensNoGate (.gv_left (State.renewalIn_gv _) (State.conflict_opensNoGate ..)) (.of_gv ?_))
  extract_lets s1 valid
  have h1 : s1.gv = s.gv := by simp only [s1, State.renewalIn_gv, State.fileLate_gv]
  split
  · exact h1
  · split
    · split <;> exact (State.setRed_gv ..).trans h1
    · exact (State.setRed_gv ..).trans h1

theorem State.renewIn_opensNoGate (s : State) (n : Nat) : s.OpensNoGate (s.renewIn n) := by
  unfold State.renewIn
  refine ite_opensNoGate (.gv_left ((State.setRed_gv ..).trans (State.renewalIn_gv _)) (State.conflict_opensNoGate ..))
    (.of_gv ?_)
  extract_lets s1 v a
  have h1 : s1.gv = s.gv := by simp only [s1, State.setRed_gv, State.renewalIn_gv, State.fileLate_gv]
  split
  · exact h1
  · exact (State.setRed_gv ..).trans h1

theorem State.leaseLost_opensNoGate (s : State) (c : Nat) : s.OpensNoGate (s.leaseLost c) :=
  State.closeGate_opensNoGate (by unfold State.leaseLost; simp only [State.setRed_gv, State.redLog_gv])

theorem State.leaseExpires_opensNoGate (s : State) (straps) : s.OpensNoGate (s.leaseExpires straps) := by
  unfold State.leaseExpires
  refine ite_opensNoGate .refl ?_
  extract_lets s1
  refine .gv_left (t := s1) (State.setRed_gv ..) (ite_opensNoGate (ite_opensNoGate (s1.moduleRestart_opensNoGate ..) ?_)
    (ite_opensNoGate (s1.leaseLost_opensNoGate _) .refl))
  exact (s1.leaseLost_opensNoGate 1).trans (State.moduleRestart_opensNoGate ..)

theorem State.takeoverFails_opensNoGate (s : State) (straps) : s.OpensNoGate (s.takeoverFails straps) := by
  unfold State.takeoverFails
  refine ite_opensNoGate ?_ .refl
  extract_lets s1 s2 c s3
  have h3 : s3.gv = s.closeGate.gv := by
    refine (State.cd_gv s2 _).trans ?_
    simp only [s2, State.setRed_gv, s1, State.redLog_gv]
  exact (State.closeGate_opensNoGate h3).trans (State.moduleRestart_opensNoGate ..)

theorem State.holdLimit_opensNoGate (s : State) : s.OpensNoGate s.holdLimit :=
  ite_opensNoGate (State.closeGate_opensNoGate (by simp only [State.gv_mk]; rfl)) .refl

end Sys2Proof.Machine

/-! ## What the requests keep -/

namespace Sys2Proof.Machine

open Sys2Proof

/-! ### Operations that act under a condition -/

section Guards

variable {s : State} {f : State → State}

@[simp] theorem State.ifUp_gv (h : ∀ u, (f u).gv = u.gv) : (s.ifUp f).gv = s.gv := by
  unfold State.ifUp; split <;> simp [h]

@[simp] theorem State.ifServed_gv (h : ∀ u, (f u).gv = u.gv) : (s.ifServed f).gv = s.gv := by
  unfold State.ifServed; split <;> simp [h]

@[simp] theorem State.ifHost_gv (h : ∀ u, (f u).gv = u.gv) : (s.ifHost f).gv = s.gv := by
  unfold State.ifHost; split <;> simp [h]

@[simp] theorem State.ifAnswers_gv (h : ∀ u, (f u).gv = u.gv) : (s.ifAnswers f).gv = s.gv := by
  unfold State.ifAnswers; split <;> simp [h]

@[simp] theorem State.ifSweeping_gv (h : ∀ u, (f u).gv = u.gv) : (s.ifSweeping f).gv = s.gv := by
  unfold State.ifSweeping; split <;> simp [h]

@[simp] theorem State.onChannel_gv {ch : Nat} (h : ∀ u, (f u).gv = u.gv) : (s.onChannel ch f).gv = s.gv := by
  unfold State.onChannel; split <;> simp [h]

end Guards

theorem State.plainCommand_gv (s : State) (p : ProgRef) (op : Nat) {f : State → Nat → Run → Blob → State}
    (h : ∀ u c r x, (f u c r x).gv = u.gv) : (s.plainCommand p op f).gv = s.gv := by
  have hissue := s.issue_gv p
  unfold State.plainCommand
  split
  next t e => rw [e] at hissue; exact hissue
  next t c r cmd e =>
    rw [e] at hissue
    rw [gv_ite, h, hissue, ite_self]

/-! ### Requests of the dictionary -/

@[simp] theorem State.mailboxGo_gv (s : State) (straps) : (s.mailboxGo straps).gv = s.gv := by
  unfold State.mailboxGo
  extract_lets s1 h tr src a d
  have h1 : s1.gv = s.gv := State.count_gv ..
  split
  · rw [State.mailboxDone_gv', State.doRead_gv, h1]
  · split
    · rw [State.restartAfter_gv, State.mailboxDone_gv', State.doWrite_gv, h1]
    · rw [State.mailboxDone_gv', State.refuse_gv, h1]

@[simp] theorem State.badOp_gv (s : State) : s.badOp.gv = s.gv := (State.mailboxGo_gv ..).trans (State.host_gv ..)

@[simp] theorem State.hostRequest_gv (s : State) (op r straps) : (s.hostRequest op r straps).gv = s.gv := by
  unfold State.hostRequest
  split
  · exact (State.mailboxGo_gv ..).trans (State.host_gv ..)
  · rfl

@[simp] theorem State.dapWrite_gv (s : State) (p m t r straps n) : (s.dapWrite p m t r straps n).gv = s.gv := by
  unfold State.dapWrite
  split
  · simp only [State.sendAnswer_gv, State.count_gv]
  · extract_lets s1 t' tot a st ech s2 d out
    have h1 : s1.gv = s.gv := by
      unfold s1
      split
      · exact State.abandon_gv ..
      · rfl
    have h2 : s2.gv = s.gv := (State.count_gv ..).trans h1
    split
    · rw [State.dapAnswer_gv', State.refuse_gv, State.count_gv, h1]
    split
    · rw [State.restartAfter_gv, State.dapAnswer_gv']
      exact (State.outs_gv ..).trans ((State.doWrite_gv ..).trans h2)
    · split
      · rw [State.abandon_gv, State.ackFrames_gv, h2]
      · rw [State.sendAck_gv]
        exact (State.net_gv ..).trans ((State.ackFrames_gv ..).trans h2)

@[simp] theorem State.requestWrite_gv (s : State) (r straps n) : (s.requestWrite r straps n).gv = s.gv := by
  unfold State.requestWrite
  split
  · exact State.hostRequest_gv ..
  · rw [gv_ite, State.dapWrite_gv, ite_self]

@[simp] theorem State.requestRead_gv (s : State) (r) : (s.requestRead r).gv = s.gv := by
  unfold State.requestRead
  split
  · exact State.hostRequest_gv ..
  · rw [gv_ite, State.dapRead_gvy, ite_self]

@[simp] theorem State.command_gv (s : State) (h i k n v straps) : (s.command h i k n v straps).gv = s.gv :=
  State.requestWrite_gv ..

@[simp] theorem State.commandTo_gv (s : State) (h i k v) : (s.commandTo h i k v).gv = s.gv := State.command_gv ..

@[simp] theorem State.finishTransfer_gv (s : State) (t straps) : (s.finishTransfer t straps).gv = s.gv := by
  unfold State.finishTransfer
  extract_lets s1 a d
  rw [State.restartAfter_gv, State.dapAnswer_gv', State.conclude_gv, State.closeTransfer_gv]

@[simp] theorem State.dapSegment_gv (s : State) (p m t o d n straps) : (s.dapSegment p m t o d n straps).gv = s.gv := by
  unfold State.dapSegment
  split
  · exact State.dapDrop_gv ..
  · extract_lets s1 tot u net s2
    have h1 : s1.gv = s.gv := State.count_gv ..
    split
    · rw [State.abandon_gv, h1]
    · split
      · rw [State.finishTransfer_gv, h1]
      · rw [State.sendAck_gv]
        exact (State.net_gv ..).trans h1

@[simp] theorem State.dapAbort_gv' (s : State) (p m t) : (s.dapAbort p m t).gv = s.gv := State.dapAbort_gv s p m t

@[simp] theorem State.dapTimeout_gv' (s : State) (p m t) : (s.dapTimeout p m t).gv = s.gv := State.dapTimeout_gv s p m t

/-! ### Writes of BAR0 -/

@[simp] theorem State.writeMbxCtrl_gv (s : State) (v : Nat) : (s.writeMbxCtrl v).gv = s.gv := by
  unfold State.writeMbxCtrl
  extract_lets h s1
  have h1 : s1.gv = s.gv := by unfold s1; split <;> simp
  rw [gv_ite, State.mailboxGo_gv, ite_self, h1]

/-- No register of BAR0 holds anything of the view. -/
@[simp] theorem State.write32_gv (s : State) (o v : Nat) : (s.write32 o v).gv = s.gv := by
  have hgw (g : Gangway) (hg : g.driving = s.gw.driving) : State.gv { s with gw := g } = s.gv := State.gw_gv s g hg
  unfold State.write32
  simp only [gv_ite, State.host_gv, State.clearCauses_gv, State.writeEnables_gv, State.writeMbxCtrl_gv, State.msixWrite_gv,
    State.setCore_gv, State.ce_gv, State.setLink_gv, hgw, ite_self]

@[simp] theorem State.writeWord_gv (s : State) (o v : Nat) : (s.writeWord o v).gv = s.gv := by
  unfold State.writeWord
  rw [gv_ite, State.write32_gv, ite_self]

@[simp] theorem State.hostWrite_gv (s : State) (o w v : Nat) : (s.hostWrite o w v).gv = s.gv := by
  unfold State.hostWrite
  split
  · rfl
  · extract_lets s1
    have h1 : s1.gv = s.gv := by unfold s1; split <;> simp
    simp only [gv_ite, State.writeWord_gv, ite_self, h1]

end Sys2Proof.Machine

/-! ## One case analysis over the commands -/

namespace Sys2Proof.Machine

open Sys2Proof

/-- What every command but the claim and the frame boundary does to the queue, the frame number and the gate. -/
structure State.Leads (s t : State) : Prop where
  follows : s.Follows t
  opensNoGate : s.OpensNoGate t

theorem State.Leads.of_gv {s t : State} (h : t.gv = s.gv) : s.Leads t := ⟨.of_gv h, .of_gv h⟩

theorem State.Leads.ifUp {s : State} {f : State → State} (h : s.Leads (f s)) : s.Leads (s.ifUp f) :=
  ⟨State.ifUp_follows h.follows, ite_opensNoGate h.opensNoGate .refl⟩

theorem State.Leads.ifServed {s : State} {f : State → State} (h : s.Leads (f s)) : s.Leads (s.ifServed f) :=
  ⟨State.ifServed_follows h.follows, ite_opensNoGate h.opensNoGate .refl⟩

/-- A command first empties the record of what was sent. -/
theorem State.Leads.sent {s t : State} (h : State.Leads { s with out := [] } t) : s.Leads t :=
  ⟨.gv_left (State.outs_gv s []) h.follows, .gv_left (State.outs_gv s []) h.opensNoGate⟩

theorem State.Leads.keeps {s t : State} (h : t.gv = State.gv { s with out := [] }) : s.Leads t := .sent (.of_gv h)

/-! ### The commands of a program -/

theorem gather_keeps (p : ProgRef) (fx : ExecFx) (s : State) : Runs (.gather p fx) s s.Leads := by
  refine ⟨_, rfl, .keeps ?_⟩
  generalize ({ s with out := [] } : State) = u
  dsimp -zeta only
  have hissue := (u.upsets fx.upsets).issue_gv p
  rw [State.upsets_gv] at hissue
  split
  next t e => rw [e] at hissue; exact hissue
  next t c r cmd e =>
    rw [e] at hissue
    simp only [gv_ite, State.upsets_gv, State.settled_gv, State.boundsFault_gv, State.awaitCredit_gv, State.gather_gv,
      show t.gv = u.gv from hissue, ite_self]

theorem scalar_keeps (p : ProgRef) (fx : ExecFx) (s : State) : Runs (.scalar p fx) s s.Leads := by
  refine ⟨_, rfl, .keeps ?_⟩
  generalize ({ s with out := [] } : State) = u
  dsimp -zeta only
  have hissue := (u.upsets fx.upsets).issue_gv p
  rw [State.upsets_gv] at hissue
  split
  next t e => rw [e] at hissue; exact hissue
  next t c r cmd e =>
    rw [e] at hissue
    have ht : t.gv = u.gv := hissue
    extract_lets d imm put
    have hput (v : State) (x : Nat) : (put v x).gv = v.gv := State.goOn_gv ..
    simp only [gv_ite, State.upsets_gv, State.settled_gv, State.boundsFault_gv, ht]
    split
    · rfl
    · split
      · rfl
      · split
        · exact (hput ..).trans ht
        · exact (hput ..).trans ht
        · have hg : (t.operand p c r cmd 1 4).s.gv = u.gv := (State.operand_gv ..).trans ht
          simp only [gv_ite, State.settled_gv, State.failed_gv, hput]
          exact (ite_self _).trans hg
        · exact (hput ..).trans ht

theorem emit_keeps (p : ProgRef) (fx : ExecFx) (s : State) : Runs (.emit p fx) s s.Leads := by
  refine ⟨_, rfl, .keeps ?_⟩
  generalize ({ s with out := [] } : State) = u
  dsimp -zeta only
  have hissue := (u.upsets fx.upsets).issue_gv p
  rw [State.upsets_gv] at hissue
  split
  next t c r cmd n e =>
    rw [e] at hissue
    have ht : t.gv = u.gv := hissue
    extract_lets len key g rec_ v te w
    have hg : g.s.gv = u.gv := (State.operand_gv ..).trans ht
    have hw : w.gv = u.gv := (State.te_gv v _).trans hg
    simp only [gv_ite, State.upsets_gv, State.settled_gv, State.boundsFault_gv, State.awaitCredit_gv, State.failed_gv,
      State.goOn_gv, ht, hg, hw, ite_self]
  next t r e => rw [e] at hissue; exact hissue

theorem barrierTimeout_keeps (p : ProgRef) (ident : Nat) (s : State) : Runs (.barrierTimeout p ident) s s.Leads := by
  refine ⟨_, rfl, .keeps ?_⟩
  generalize ({ s with out := [] } : State) = u
  dsimp -zeta only
  split
  · rfl
  · simp only [gv_ite, State.settled_gv, State.setRun_gv, State.fixGroup_gv, ite_self]

theorem tollCreditReturn_keeps (toll : Toll) (unit : Nat) (s : State) : Runs (.tollCreditReturn toll unit) s s.Leads := by
  refine ⟨_, rfl, .keeps ?_⟩
  generalize ({ s with out := [] } : State) = u
  dsimp -zeta only
  extract_lets key te free
  have hfree : free.gv = u.gv := State.te_gv u te
  cases toll with
  | hbmWr => simp only [gv_ite, State.settled_gv, State.sendBeat_gv, State.endTollWait_gv, hfree, ite_self]
  | emitM => simp only [State.endTollWait_gv, hfree]
  | intake => simp only [State.takeIntake_gv, hfree]
  | load => exact State.returnCopy_gv ..
  | mergeCe | hint => exact hfree

theorem progEnd_keeps (p : ProgRef) (cycles : Nat) (s : State) : Runs (.progEnd p cycles) s s.Leads := by
  refine ⟨_, rfl, .keeps (State.plainCommand_gv _ _ _ fun v c r _ => ?_)⟩
  cases p with
  | stream n => exact State.endStream_gv ..
  | host d => simp only [State.settled_gv, State.endHost_gv, State.setRun_gv, State.setCore_gv]
  | ripen d => simp only [State.settled_gv, State.endRipen_gv]

theorem hint_keeps (p : ProgRef) (s : State) : Runs (.hint p) s s.Leads :=
  ⟨_, rfl, .keeps (State.plainCommand_gv _ _ _ fun v c r cmd => by
    simp only [State.goOn_gv, gv_ite, State.sendHint_gv, ite_self])⟩

theorem barrier_keeps (p : ProgRef) (s : State) : Runs (.barrier p) s s.Leads :=
  ⟨_, rfl, .keeps (State.plainCommand_gv _ _ _ fun v c r cmd => by
    simp only [gv_ite, State.setRun_gv, State.settled_gv, State.releaseBarrier_gv, ite_self])⟩

/-! ### All commands -/

@[simp] theorem State.crossingRelease_gv (s : State) (l corrected bad : Nat) (ws : List Window) :
    (s.crossingRelease l corrected bad ws).gv = s.gv := by
  unfold State.crossingRelease
  split
  · rfl
  · extract_lets s1 s2
    have h2 : s2.gv = s.gv := by unfold s2 s1; simp
    rw [gv_ite, foldl_gv _ _ _ (fun u b => ?_), ite_self, h2]
    split <;> simp

/-- Every command but the two that stand apart answers a next state that `Leads` describes. -/
theorem exec_leads (c : Instr) (s : State) (hclaim : c ≠ .leaseClaim) (hframe : ∀ b, c ≠ .gangwayFrameBoundary b) :
    Runs c s s.Leads := by
  cases c with
  | leaseClaim => exact absurd rfl hclaim
  | gangwayFrameBoundary b => exact absurd rfl (hframe b)
  -- boot and input power
  | inputEntersRange b => exact ⟨_, rfl, .sent ⟨State.powerOn_follows _ b, State.powerOn_opensNoGate _ b⟩⟩
  | bootComplete => exact ⟨_, rfl, .sent ⟨State.bootDone_follows _, State.bootDone_opensNoGate _⟩⟩
  | bootWatchdogExpiry b => exact ⟨_, rfl, .sent ⟨State.bootWatchdog_follows _ _, State.bootWatchdog_opensNoGate _ _⟩⟩
  | mpWatchdogKick => exact ⟨_, rfl, .keeps (State.ifUp_gv fun _ => rfl)⟩
  | mpWatchdogExpiry => exact ⟨_, rfl, .sent ⟨State.mpWatchdog_follows _, State.mpWatchdog_opensNoGate _⟩⟩
  | inputSupervisorTick mv => exact ⟨_, rfl, .sent ⟨State.supervise_follows _ mv, State.supervise_opensNoGate _ mv⟩⟩
  | rideThroughTimeout => exact ⟨_, rfl, .sent ⟨State.rideThroughEnd_follows _, State.rideThroughEnd_opensNoGate _⟩⟩
  | mateNHigh n => exact ⟨_, rfl, .sent ⟨State.mateOpen_follows _ n, State.mateOpen_opensNoGate _ n⟩⟩
  | vaonPowerGoodLost => exact ⟨_, rfl, .sent ⟨State.vaonLost_follows _, State.vaonLost_opensNoGate _⟩⟩
  | nvrWriteComplete => exact ⟨_, rfl, .sent ⟨State.nvrDone_follows _, State.nvrDone_opensNoGate _⟩⟩
  | rootOrIoPllLost b => exact ⟨_, rfl, .sent ⟨State.clockLost_follows _ b, State.enterShutdown_opensNoGate ..⟩⟩
  -- rails, sensors and the start of the CD
  | cdStart i => exact ⟨_, rfl, .sent (.ifUp ⟨State.cdStartDue_follows _ i, State.cdStartDue_opensNoGate _ i⟩)⟩
  | railOverVoltage j m | railOvercurrent j m | railUnderVoltage j m =>
    exact ⟨_, rfl, .sent (.ifUp ⟨State.railFault_follows .., State.railFault_opensNoGate ..⟩)⟩
  | softStartShort j m => exact ⟨_, rfl, .sent (.ifUp ⟨State.softStartShort_follows _ j m, State.softStartShort_opensNoGate _ j m⟩)⟩
  | softStartRetry j i => exact ⟨_, rfl, .sent (.ifUp ⟨State.softStartRetry_follows _ j i, State.softStartRetry_opensNoGate _ j i⟩)⟩
  | sensorRead rs => exact ⟨_, rfl, .sent (.ifUp ⟨State.sensorRead_follows _ rs, State.sensorRead_opensNoGate _ rs⟩)⟩
  -- the lease and SAFE_HOLD
  | holdLimitExpiry => exact ⟨_, rfl, .sent (.ifUp ⟨State.holdLimit_follows _, State.holdLimit_opensNoGate _⟩)⟩
  | ceEntersService => exact ⟨_, rfl, .sent (.ifUp ⟨State.ceEnter_follows _, State.ceEnter_opensNoGate _⟩)⟩
  | leasePulseReceive us => exact ⟨_, rfl, .sent (.ifServed ⟨State.pulseIn_follows _ us, State.pulseIn_opensNoGate _ us⟩)⟩
  | leaseRenewReceive n _ _ _ => exact ⟨_, rfl, .sent (.ifServed ⟨State.renewIn_follows _ n, State.renewIn_opensNoGate _ n⟩)⟩
  | leaseExpiry b => exact ⟨_, rfl, .sent (.ifUp ⟨State.leaseExpires_follows _ _, State.leaseExpires_opensNoGate _ _⟩)⟩
  | takeoverLimitExpiry b => exact ⟨_, rfl, .sent (.ifUp ⟨State.takeoverFails_follows _ _, State.takeoverFails_opensNoGate _ _⟩)⟩
  -- the commands of programs
  | gather p fx => exact gather_keeps p fx s
  | scalar p fx => exact scalar_keeps p fx s
  | emit p fx => exact emit_keeps p fx s
  | barrierTimeout p i => exact barrierTimeout_keeps p i s
  | tollCreditReturn t u => exact tollCreditReturn_keeps t u s
  | progEnd p n => exact progEnd_keeps p n s
  | hint p => exact hint_keeps p s
  | barrier p => exact barrier_keeps p s
  | nop p | skip p => exact ⟨_, rfl, .keeps (State.plainCommand_gv _ _ _ fun v c r cmd => State.goOn_gv ..)⟩
  | fence p => exact ⟨_, rfl, .keeps (State.plainCommand_gv _ _ _ fun v c r cmd => by
      simp only [gv_ite, State.setRun_gv, State.goOn_gv, ite_self])⟩
  | matmul p fx | vector p fx | copy p fx => exact ⟨_, rfl, .keeps (State.runCommand_gv ..)⟩
  | tileYield c => exact ⟨_, rfl, .keeps (by simp)⟩
  | clusterWake c => exact ⟨_, rfl, .keeps (by simp)⟩
  | sequencerWatchdogExpiry c => exact ⟨_, rfl, .keeps (by simp)⟩
  -- requests of the host and of the field network
  | fixedOpWrite h p => exact ⟨_, rfl, .keeps (State.commandTo_gv ..)⟩
  | cdStop h | clearHostStop h | hold h | release h => exact ⟨_, rfl, .keeps (State.commandTo_gv ..)⟩
  | imageOpen h x => exact ⟨_, rfl, .keeps (State.commandTo_gv ..)⟩
  | imageSegment h o r b => exact ⟨_, rfl, .keeps (State.commandTo_gv ..)⟩
  | imageActivate h a b => exact ⟨_, rfl, .keeps (State.command_gv ..)⟩
  | floorCommand h x | keyEnrol h x | keyRemove h x | configurationBundle h x | hostWork h x =>
    exact ⟨_, rfl, .keeps (State.commandTo_gv ..)⟩
  | nodeDisable h a | nodeEnable h a | nodeClearFault h a | fenceCore h a | releaseCore h a | fenceCluster h a =>
    exact ⟨_, rfl, .keeps (State.commandTo_gv ..)⟩
  | streamSettingsWrite h n k v => exact ⟨_, rfl, .keeps (State.commandTo_gv ..)⟩
  | loadNewStreams h a f n | replaceModel h a f n => exact ⟨_, rfl, .keeps (State.commandTo_gv ..)⟩
  | unload h f n => exact ⟨_, rfl, .keeps (State.commandTo_gv ..)⟩
  | ripeningImageRegister h i a => exact ⟨_, rfl, .keeps (State.commandTo_gv ..)⟩
  | ripeningImageDeregister h i => exact ⟨_, rfl, .keeps (State.commandTo_gv ..)⟩
  | budgetWrite h w => exact ⟨_, rfl, .keeps (State.commandTo_gv ..)⟩
  | loopModeOff h n | loopModeOpen h n | loopModeClosed h n | rcClear h n =>
    exact ⟨_, rfl, .keeps (State.commandTo_gv ..)⟩
  | rcPhaseNudge h r a | rcSetIndex h r a | rcPeriodWrite h r a | logCursorWrite h r a =>
    exact ⟨_, rfl, .keeps (State.commandTo_gv ..)⟩
  | describe h a | resetLearnedValues h a | latchRelease h a | manualSwitchOver h a =>
    exact ⟨_, rfl, .keeps (State.commandTo_gv ..)⟩
  | dictionaryRead r => exact ⟨_, rfl, .keeps (State.requestRead_gv ..)⟩
  | dictionaryWrite r => exact ⟨_, rfl, .keeps (State.requestWrite_gv ..)⟩
  | registerWrite o w v => exact ⟨_, rfl, .keeps (State.hostWrite_gv ..)⟩
  | bar2Read o n us => exact ⟨_, rfl, .keeps (by simp)⟩
  | bar2Write o n v us => exact ⟨_, rfl, .keeps (by simp)⟩
  -- every other command is one operation that keeps the view, in the states in which it acts
  | _ => exact ⟨_, rfl, .keeps (by simp)⟩

theorem exec_leaseClaim_follows (s : State) : Runs .leaseClaim s s.Follows :=
  ⟨_, rfl, .gv_left (State.outs_gv s []) (State.ifServed_follows (State.claim_follows _))⟩

end Sys2Proof.Machine

/-! ## The statements about the whole machine -/

namespace Sys2Proof.Machine

open Sys2Proof

/-! ### The frame number at a frame boundary -/

theorem State.moduleRestart_gv1 (s : State) (t : Nat) (straps) : (s.moduleRestart t straps).gv.1 = s.gv.1 := by
  rw [State.moduleRestart_gv]; split <;> rfl

theorem State.ceRestart_gv1 (s : State) : s.ceRestart.gv.1 = s.gv.1 := by rw [State.ceRestart_gv]

theorem State.leaveHold_gv1 (s : State) (t : Nat) : (s.leaveHold t).gv.1 = s.gv.1 :=
  (State.move_gv1 ..).trans (State.ceRestart_gv1 _)

theorem ite_gv1 {c : Prop} [Decidable c] {s a b : State} (ha : a.gv.1 = s.gv.1) (hb : b.gv.1 = s.gv.1) :
    (if c then a else b).gv.1 = s.gv.1 := by split <;> assumption

theorem State.holdFrame_gv1 (s : State) : s.holdFrame.gv.1 = s.gv.1 := by
  unfold State.holdFrame
  refine ite_gv1 rfl (ite_gv1 (State.leaveHold_gv1 ..) ?_)
  extract_lets s1
  have h1 : s1.gv.1 = s.gv.1 := by unfold s1; simp
  exact ite_gv1 h1 ((State.leaveHold_gv1 ..).trans h1)

theorem State.restartFrame_gv1 (s : State) : s.restartFrame.gv.1 = s.gv.1 := by
  unfold State.restartFrame
  split
  · rw [State.moduleRestart_gv1, State.draw_gv]
  · rfl

/-- Whatever the evaluation of the operating state decides, the queue and the frame number stay. -/
theorem State.judge_gv1 (s : State) : s.judge.gv.1 = s.gv.1 := by
  unfold State.judge
  extract_lets s1 s2
  have h1 : s1.gv.1 = s.gv.1 := rfl
  have h2 : s2.gv.1 = s1.gv.1 := State.switchFrame_gv1 s1
  rw [← h1]
  exact ite_gv1 rfl (ite_gv1 (State.move_gv1 ..) (ite_gv1 s1.restartFrame_gv1 (ite_gv1 s1.holdFrame_gv1
    (ite_gv1 (ite_gv1 h2 (ite_gv1 ((State.enterHold_gv1 s2).trans h2) ((State.causesFrame_gv1 s2).trans h2))) rfl))))

theorem State.frameBoundary_gv1 (s : State) (d : Bool) (h : s.up = true) :
    (s.frameBoundary d).gv.1 = (s.pending, s.frame + 1) := by
  unfold State.frameBoundary
  rw [if_neg (by simp [h])]
  extract_lets s1 t s2 s3 g s4
  have h1 : s1.gv.1 = (s.pending, s.frame + 1) := congrArg Prod.fst (State.latchConvs_gv _)
  have ht : t.1.gv = s1.gv := State.takeRecords_gv s1
  have h2 : s2.gv.1 = s1.gv.1 := by rw [State.ceFrame_gv, State.judge_gv1, ht]
  have h3 : s3.gv = s2.gv := by unfold s3; rw [gv_ite, State.digestFrame_gv, State.frameEffects_gv, ite_self]
  clear_value s3
  have h4 : s4.gv.1 = s3.gv.1 := rfl
  rw [State.lostCharge_gv, State.commitGrants_gv, State.gangwayFrame_gv1, State.siodRead_gv, h4, h3, h2, h1]

theorem State.frameBoundary_of_down {s : State} (h : s.up = false) (d : Bool) : s.frameBoundary d = s :=
  if_pos (by rw [h]; rfl)

theorem State.claim_of_not_allowed {s : State} (h : s.claimAllowed = false) : s.claim = s :=
  if_pos (by rw [h]; rfl)

/-! ### The obligations -/

/-- What the two commands that stand apart share with the others: the queue and the gate invariant. -/
theorem exec_keepsQueueAndInv (c : Instr) (s : State) :
    Runs c s (fun t => t.pending = s.pending ∧ (s.GateInv → t.GateInv)) := by
  by_cases hclaim : c = .leaseClaim
  · subst hclaim
    obtain ⟨t, e, hpending, -, hinv⟩ := exec_leaseClaim_follows s
    exact ⟨t, e, hpending, hinv⟩
  by_cases hframe : ∃ b, c = .gangwayFrameBoundary b
  · obtain ⟨b, rfl⟩ := hframe
    exact ⟨_, rfl, State.frameBoundary_inv { s with out := [] } b⟩
  · obtain ⟨t, e, ⟨hpending, -, hinv⟩, -⟩ := exec_leads c s hclaim (fun b e => hframe ⟨b, e⟩)
    exact ⟨t, e, hpending, hinv⟩

/-- A command answers one next state. -/
theorem exec_of_runs {c : Instr} {s t : State} {P : State → Prop} (h : Runs c s P) (e : exec c s = .next t) : P t := by
  obtain ⟨u, hu, hp⟩ := h
  cases hu.symm.trans e
  exact hp

/-- Settles O1: both clauses are the two arms of `step`. -/
theorem stepAndIdle : Obligations.StepAndIdle :=
  ⟨fun _ _ _ => rfl, fun s h => by unfold step; rw [h]⟩

/-- Settles O2, by the case analysis of `exec_leads`. -/
theorem everyCommandAnswers : Obligations.EveryCommandAnswers := fun c s => by
  obtain ⟨t, e, hpending, -⟩ := exec_keepsQueueAndInv c s
  exact ⟨t, e, hpending⟩

/-- Settles O3: a step is a command on the queue's rest, which is no part of the invariant. -/
theorem gateInvariant : Obligations.GateInvariant := fun s t hinv h => by
  unfold step at h
  split at h
  · cases h; exact hinv
  next c rest _ =>
    have hrest : State.GateInv { s with pending := rest } := hinv
    exact (exec_of_runs (exec_keepsQueueAndInv c _) h).2 hrest

/-- Settles O4: every command but the claim leads to no opened gate, and the claim acts where it is allowed. -/
theorem onlyAClaimOpensTheGate : Obligations.OnlyAClaimOpensTheGate := fun c s t e hopen => by
  by_cases hclaim : c = .leaseClaim
  · subst hclaim
    by_cases hserved : s.services = true
    · by_cases hallowed : s.claimAllowed = true
      · exact .inr ⟨rfl, hserved, hallowed⟩
      · have hstay : exec .leaseClaim s = .next { s with out := [] } :=
          congrArg Host.Outcome.next ((if_pos hserved).trans (State.claim_of_not_allowed (Bool.eq_false_iff.mpr hallowed)))
        cases hstay.symm.trans e
        exact .inl hopen
    · have hstay : exec .leaseClaim s = .next { s with out := [] } := congrArg Host.Outcome.next (if_neg hserved)
      cases hstay.symm.trans e
      exact .inl hopen
  by_cases hframe : ∃ b, c = .gangwayFrameBoundary b
  · obtain ⟨b, rfl⟩ := hframe
    cases e
    exact .inl ((State.frameBoundary_opensNoGate { s with out := [] } b).gate hopen)
  · exact .inl ((exec_of_runs (exec_leads c s hclaim (fun b e => hframe ⟨b, e⟩)) e).opensNoGate.gate hopen)

/-- Settles O5: the state after reset holds nothing but its OFF. -/
theorem afterReset : Obligations.AfterReset := by
  refine ⟨⟨?_, ?_⟩, rfl, rfl, rfl, rfl, rfl, rfl, rfl, fun _ => rfl, fun _ => Bool.and_false _, fun _ => rfl⟩
  · exact fun h => Bool.noConfusion h
  · exact fun h => Bool.noConfusion h

/-- Settles O6: only the boundary counts a frame, and of the other commands `State.Follows` says that they keep the number
or start it anew. -/
theorem frameNumberAdvances : Obligations.FrameNumberAdvances := by
  have hboundary (b : Bool) (s : State) (hup : s.up = true) :
      (State.frameBoundary { s with out := [] } b).frame = s.frame + 1 :=
    congrArg Prod.snd (State.frameBoundary_gv1 { s with out := [] } b hup)
  refine ⟨fun c s t e => ?_, fun b s hup => ⟨_, rfl, hboundary b s hup⟩⟩
  by_cases hclaim : c = .leaseClaim
  · subst hclaim
    exact (exec_of_runs (exec_leaseClaim_follows s) e).2.1.imp id .inl
  by_cases hframe : ∃ b, c = .gangwayFrameBoundary b
  · obtain ⟨b, rfl⟩ := hframe
    cases e
    by_cases hup : s.up = true
    · exact .inr (.inr ⟨b, rfl, hboundary b s hup⟩)
    · have hstay := State.frameBoundary_of_down (s := { s with out := [] }) (Bool.eq_false_iff.mpr hup) b
      exact .inl (congrArg State.frame hstay :)
  · exact (exec_of_runs (exec_leads c s hclaim (fun b e => hframe ⟨b, e⟩)) e).follows.2.1.imp id .inl

end Sys2Proof.Machine

/-! ## Bytes of numbers, of tables and of memories (R203, R204, R208) -/

namespace Sys2Proof.Machine

open Sys2Proof

/-! ### Bytes of numbers -/

/-- Some bytes of the low part of two pieces joined. -/
theorem bytesAt_joined_within {v n : Nat} (h : v < 2 ^ (8 * n)) (t : Nat) {o m : Nat} (k : o + m ≤ n) :
    bytesAt (v + t <<< (8 * n)) o m = bytesAt v o m := by
  have hv := bytesAt_joined_low h t
  have hle : 8 * n = 8 * o + 8 * m + (8 * n - (8 * o + 8 * m)) := by omega
  unfold bytesAt fld
  refine Nat.eq_of_testBit_eq fun i => ?_
  simp only [Nat.testBit_mod_two_pow, Nat.testBit_shiftRight]
  by_cases hi : i < 8 * m
  · have h1 : (v + t <<< (8 * n)).testBit (8 * o + i) = (bytesAt (v + t <<< (8 * n)) 0 n).testBit (8 * o + i) := by
      rw [bytesAt_zero, Nat.testBit_mod_two_pow, decide_eq_true (show 8 * o + i < 8 * n by omega), Bool.true_and]
    rw [h1, hv]
  · simp [hi]

/-- A number cut after `n` bytes. -/
theorem cut_at (v n : Nat) : v = bytesAt v 0 n + (v >>> (8 * n)) <<< (8 * n) := by
  rw [bytesAt_zero, Nat.shiftLeft_eq, Nat.shiftRight_eq_div_pow]
  exact (Nat.mod_add_div' v _).symm

theorem bytesAt_lt (v o n : Nat) : bytesAt v o n < 2 ^ (8 * n) := fld_lt ..

/-- What is put in replaces its bytes and leaves those below and those above. -/
theorem setBytes_eq (v o n x : Nat) :
    setBytes v o n x = bytesAt v 0 o + (x % 2 ^ (8 * n) + (v >>> (8 * (o + n))) <<< (8 * n)) <<< (8 * o) := by
  have hmid : bytesAt (v >>> (8 * o)) 0 n = bytesAt v o n := by simp [bytesAt, fld]
  have hcut : v = bytesAt v 0 o + (bytesAt v o n + (v >>> (8 * (o + n))) <<< (8 * n)) <<< (8 * o) := by
    conv => lhs; rw [cut_at v o, cut_at (v >>> (8 * o)) n, hmid, ← Nat.shiftRight_add, ← Nat.mul_add]
  have hswap (x y y' z q : Nat) : x + (y + z) * q - y * q + y' * q = x + (y' + z) * q := by
    simp only [Nat.add_mul]; omega
  unfold setBytes
  conv => lhs; arg 1; arg 1; rw [hcut]
  rw [Nat.shiftLeft_eq, Nat.shiftLeft_eq _ (8 * o), Nat.shiftLeft_eq _ (8 * o), Nat.shiftLeft_eq _ (8 * o)]
  exact hswap ..

/-- A byte after a change of some bytes. -/
theorem bytesAt_setBytes_one (v o n x i : Nat) :
    bytesAt (setBytes v o n x) i 1 = if o ≤ i ∧ i < o + n then bytesAt x (i - o) 1 else bytesAt v i 1 := by
  have hx : x % 2 ^ (8 * n) < 2 ^ (8 * n) := Nat.mod_lt _ (Nat.two_pow_pos _)
  rw [setBytes_eq]
  by_cases hlo : i < o
  · rw [if_neg (by omega), bytesAt_joined_within (bytesAt_lt ..) _ (by omega), bytesAt_zero]
    conv => rhs; rw [cut_at v o, bytesAt_joined_within (bytesAt_lt ..) _ (show i + 1 ≤ o by omega), bytesAt_zero]
  · obtain ⟨d, rfl⟩ : ∃ d, i = o + d := ⟨i - o, by omega⟩
    rw [bytesAt_joined_high (bytesAt_lt ..)]
    by_cases hhi : d < n
    · rw [if_pos ⟨by omega, by omega⟩, bytesAt_joined_within hx _ (by omega), Nat.add_sub_cancel_left]
      conv => rhs; rw [cut_at x n, bytesAt_joined_within (bytesAt_lt ..) _ (show d + 1 ≤ n by omega), bytesAt_zero]
    · obtain ⟨e, rfl⟩ : ∃ e, d = n + e := ⟨d - n, by omega⟩
      rw [if_neg (by omega), bytesAt_joined_high hx]
      simp only [bytesAt, fld, Nat.mul_add, Nat.shiftRight_add]

/-- A byte of some bytes. -/
theorem bytesAt_bytesAt_one (v p n i : Nat) (h : i < n) : bytesAt (bytesAt v p n) i 1 = bytesAt v (p + i) 1 := by
  have hcut := cut_at (v >>> (8 * p)) n
  have hlow : bytesAt (v >>> (8 * p)) 0 n = bytesAt v p n := by simp [bytesAt, fld]
  rw [hlow] at hcut
  have hbyte : bytesAt v (p + i) 1 = bytesAt (v >>> (8 * p)) i 1 := by
    simp only [bytesAt, fld, Nat.mul_add, Nat.shiftRight_add]
  rw [hbyte, hcut, bytesAt_joined_within (bytesAt_lt ..) _ (show i + 1 ≤ n by omega)]

/-! ### Bytes of tables -/

theorem toNat_ofNat_byte (v : Nat) : (BitVec.ofNat 8 v).toNat = bytesAt v 0 1 := by
  rw [bytesAt_zero, BitVec.toNat_ofNat]

/-- A byte of a table after a write. -/
theorem tabGet_cellsPut (t : List Host.Cell) (a n v b : Nat) :
    (tabGet 0 (cellsPut memZero t a n v) b).toNat =
      if a ≤ b ∧ b < a + n then bytesAt v (b - a) 1 else (tabGet 0 t b).toNat := by
  induction n generalizing t a v with
  | zero => rw [if_neg (by omega)]; rfl
  | succ n ih =>
    have hput : tabGet 0 (tabPut (memZero a) t a (BitVec.ofNat 8 v)) b =
        if b = a then BitVec.ofNat 8 v else tabGet 0 t b := tabGet_tabPut 0 t a b _
    show (tabGet 0 (cellsPut memZero _ (a + 1) n (v / 256)) b).toNat = _
    rw [ih, hput]
    by_cases hb : b = a
    · subst hb
      rw [if_neg (by omega), if_pos rfl, if_pos (by omega), Nat.sub_self, toNat_ofNat_byte]
    · rw [if_neg hb]
      by_cases hin : a + 1 ≤ b ∧ b < a + 1 + n
      · rw [if_pos hin, if_pos (by omega)]
        obtain ⟨d, rfl⟩ : ∃ d, b = a + 1 + d := ⟨b - (a + 1), by omega⟩
        rw [show a + 1 + d - (a + 1) = d by omega, show a + 1 + d - a = 1 + d by omega]
        simp only [bytesAt, fld, Nat.mul_add, Nat.shiftRight_add]
        rw [Nat.shiftRight_eq_div_pow v]
      · rw [if_neg hin, if_neg (by omega)]

/-- A table whose bytes are those of a number reads as that number. -/
theorem cellsGet_of_bytes (t : List Host.Cell) (a n v : Nat)
    (h : ∀ i, i < n → (tabGet 0 t (a + i)).toNat = bytesAt v i 1) : cellsGet memZero t a n = v % 2 ^ (8 * n) := by
  induction n generalizing a v with
  | zero => rw [Nat.mul_zero, Nat.pow_zero, Nat.mod_one]; rfl
  | succ n ih =>
    have hnext : cellsGet memZero t (a + 1) n = v / 256 % 2 ^ (8 * n) := by
      refine ih (a + 1) (v / 256) fun i hi => ?_
      have hi1 := h (i + 1) (by omega)
      rw [show a + 1 + i = a + (i + 1) by omega, hi1]
      simp only [bytesAt, fld, Nat.mul_add, Nat.add_comm (8 * i), Nat.shiftRight_add, Nat.mul_one]
      rw [Nat.shiftRight_eq_div_pow v]
    have hfirst : (tabGet (memZero a) t a).toNat = v % 256 := (h 0 (by omega)).trans (bytesAt_zero v 1)
    show (tabGet (memZero a) t a).toNat + 256 * cellsGet memZero t (a + 1) n = _
    rw [hnext, hfirst, Nat.mul_add, Nat.add_comm (8 * n), Nat.pow_add]
    exact (Nat.mod_mul ..).symm

theorem cellsGet_lt (t : List Host.Cell) (a n : Nat) : cellsGet memZero t a n < 2 ^ (8 * n) := by
  induction n generalizing a with
  | zero => exact Nat.one_pos
  | succ n ih =>
    have h1 : @LT.lt Nat _ (cellsGet memZero t (a + 1) n) (2 ^ (8 * n)) := ih (a + 1)
    have h2 := (tabGet (memZero a) t a).isLt
    show @LT.lt Nat _ ((tabGet (memZero a) t a).toNat + 256 * cellsGet memZero t (a + 1) n) _
    generalize hp : 2 ^ (8 * n) = p at h1
    rw [Nat.mul_add, Nat.add_comm (8 * n), Nat.pow_add, hp]
    omega

/-- Bytes of a table read in two pieces. -/
theorem cellsGet_add (t : List Host.Cell) (a n m : Nat) :
    cellsGet memZero t a (n + m) = cellsGet memZero t a n + cellsGet memZero t (a + n) m <<< (8 * n) := by
  induction n generalizing a with
  | zero => simp [cellsGet]
  | succ n ih =>
    rw [show n + 1 + m = n + m + 1 by omega]
    show _ + 256 * cellsGet memZero t (a + 1) (n + m) = _ + 256 * cellsGet memZero t (a + 1) n + _
    rw [ih, show a + 1 + n = a + (n + 1) by omega, Nat.mul_add, Nat.mul_add, Nat.shiftLeft_eq, Nat.shiftLeft_eq, Nat.pow_add,
      Nat.add_assoc]
    congr 2
    rw [Nat.mul_left_comm, Nat.mul_comm 256]

/-- Some of the bytes read from a table. -/
theorem bytesAt_cellsGet (t : List Host.Cell) (a k o n : Nat) (h : o + n ≤ k) :
    bytesAt (cellsGet memZero t a k) o n = cellsGet memZero t (a + o) n := by
  obtain ⟨r, rfl⟩ : ∃ r, k = o + (n + r) := ⟨k - o - n, by omega⟩
  rw [cellsGet_add]
  refine (bytesAt_joined_high (cellsGet_lt ..) _ 0 n).trans ?_
  rw [cellsGet_add, bytesAt_joined_low (cellsGet_lt ..)]

/-- Words read one after another are the bytes from the first on. -/
theorem packBytes_words (t : List Host.Cell) (w k : Nat) :
    packBytes ((upTo k).map (fun i => (4, cellsGet memZero t (4 * (w + i)) 4))) = cellsGet memZero t (4 * w) (4 * k) := by
  induction k generalizing w with
  | zero => rfl
  | succ k ih =>
    have hshift : (upTo (k + 1)).map (fun i => (4, cellsGet memZero t (4 * (w + i)) 4)) =
        (4, cellsGet memZero t (4 * w) 4) :: (upTo k).map (fun i => (4, cellsGet memZero t (4 * (w + 1 + i)) 4)) := by
      unfold upTo
      rw [List.range_succ_eq_map, List.map_cons, List.map_map, Nat.add_zero]
      refine congrArg _ (List.map_congr_left fun i _ => ?_)
      show (4, cellsGet memZero t (4 * (w + (i + 1))) 4) = _
      rw [show w + (i + 1) = w + 1 + i by omega]
    rw [hshift, show 4 * (k + 1) = 4 + 4 * k by omega, cellsGet_add, show 4 * w + 4 = 4 * (w + 1) by omega, ← ih (w + 1)]
    show cellsGet memZero t (4 * w) 4 % 2 ^ 32 + _ = _
    rw [Nat.mod_eq_of_lt (cellsGet_lt t (4 * w) 4)]

/-! ### A memory without flipped bits -/

section Unflipped

variable {m : Mem} (h : m.errs = [])
include h

/-- A word of a memory without flipped bits reads as it stands. -/
theorem Mem.readWord_unflipped (unit a : Nat) : m.readWord unit a = (cellsGet memZero m.cells a 4, {}) := by
  have hclean : eccDecode (tabGet 0 m.errs a) = .clean 0 := by
    rw [h]; exact (show eccDecode 0 = .clean 0 by decide)
  unfold Mem.readWord
  rw [hclean]
  simp only [Nat.xor_zero, ite_self]

/-- The bytes of a memory without flipped bits read as they stand, with nothing met. -/
theorem Mem.read_unflipped (unit a n : Nat) : m.read unit a n = (cellsGet memZero m.cells a n, {}) := by
  have hfx (l : List Nat) : ((l.map (fun w => m.readWord unit w)).foldl (fun t w => t.add w.2) ({} : MemFx)) = {} := by
    induction l with
    | nil => rfl
    | cons w l ih =>
      rw [List.map_cons, List.foldl_cons, Mem.readWord_unflipped h]
      exact ih
  unfold Mem.read
  dsimp only
  rw [hfx]
  congr 1
  unfold wordsOf
  split
  · next h0 => subst h0; simp [bytesAt, fld, cellsGet, Nat.mod_one]
  next h0 =>
  simp only [List.map_map, Function.comp_def, Mem.readWord_unflipped h]
  rw [packBytes_words, bytesAt_cellsGet _ _ _ _ _ (by omega), show 4 * (a / 4) + a % 4 = a by omega]

/-- A write of one word changes those of its bytes that it names. -/
theorem Mem.writeWord_unflipped (unit w a n v : Nat) :
    (m.writeWord unit w a n v).1.errs = [] ∧
    ∀ b, (tabGet 0 (m.writeWord unit w a n v).1.cells b).toNat =
      if (w ≤ b ∧ b < w + 4) ∧ a ≤ b ∧ b < a + n then bytesAt v (b - a) 1 else (tabGet 0 m.cells b).toNat := by
  unfold Mem.writeWord
  rw [Mem.readWord_unflipped h]
  dsimp only
  rw [if_neg (by simp)]
  refine ⟨by rw [h]; rfl, fun b => ?_⟩
  rw [tabGet_cellsPut, bytesAt_setBytes_one]
  by_cases hw : w ≤ b ∧ b < w + 4
  · rw [if_pos hw]
    by_cases ha : a ≤ b ∧ b < a + n
    · rw [if_pos (by omega), if_pos ⟨hw, ha⟩, bytesAt_bytesAt_one _ _ _ _ (by omega)]
      congr 1
      omega
    · rw [if_neg (by omega), if_neg (fun k : (w ≤ b ∧ b < w + 4) ∧ a ≤ b ∧ b < a + n => ha k.2),
        if_pos (show min (a + n) (w + 4) - max a w < 4 by omega), bytesAt_cellsGet _ _ _ _ _ (by omega)]
      show (tabGet 0 m.cells (w + (b - w))).toNat + 0 = _
      rw [Nat.add_zero, Nat.add_sub_cancel' hw.1]
  · rw [if_neg hw, if_neg (fun k => hw k.1)]

/-- A write of some words changes those of their bytes that it names. -/
theorem Mem.writeWords_unflipped (unit a n v : Nat) (l : List Nat) :
    let r := l.foldl (fun (p : Mem × MemFx) w => let r := p.1.writeWord unit w a n v; (r.1, p.2.add r.2))
    ∀ fx, (r (m, fx)).1.errs = [] ∧
      ∀ b, (tabGet 0 (r (m, fx)).1.cells b).toNat =
        if (∃ w ∈ l, w ≤ b ∧ b < w + 4) ∧ a ≤ b ∧ b < a + n then bytesAt v (b - a) 1 else (tabGet 0 m.cells b).toNat := by
  intro r
  induction l generalizing m with
  | nil => exact fun _ => ⟨h, fun b => by simp [r]⟩
  | cons w l ih =>
    intro fx
    obtain ⟨herr, hbyte⟩ := Mem.writeWord_unflipped h unit w a n v
    obtain ⟨herrs, hbytes⟩ := ih herr (fx.add (m.writeWord unit w a n v).2)
    refine ⟨herrs, fun b => (hbytes b).trans ?_⟩
    rw [hbyte b]
    by_cases ha : a ≤ b ∧ b < a + n
    · simp only [ha, and_true, List.mem_cons, exists_eq_or_imp]
      by_cases hw : w ≤ b ∧ b < w + 4 <;> simp [hw]
    · simp [ha]

/-- A write changes the bytes that it names. -/
theorem Mem.write_unflipped (unit a n v : Nat) :
    (m.write unit a n v).1.errs = [] ∧
    ∀ b, (tabGet 0 (m.write unit a n v).1.cells b).toNat =
      if a ≤ b ∧ b < a + n then bytesAt v (b - a) 1 else (tabGet 0 m.cells b).toNat := by
  obtain ⟨herrs, hbytes⟩ := Mem.writeWords_unflipped h unit a n v (wordsOf a n) {}
  refine ⟨herrs, fun b => (hbytes b).trans ?_⟩
  by_cases ha : a ≤ b ∧ b < a + n
  · have hmem : ∃ w ∈ wordsOf a n, w ≤ b ∧ b < w + 4 := by
      refine ⟨4 * (a / 4 + (b / 4 - a / 4)), ?_, by omega, by omega⟩
      unfold wordsOf upTo
      rw [if_neg (by omega)]
      exact List.mem_map_of_mem (List.mem_range.mpr (by omega))
    rw [if_pos ⟨hmem, ha⟩, if_pos ha]
  · rw [if_neg (fun k => ha k.2), if_neg ha]

end Unflipped

/-- Settles O31, byte by byte: a write changes the bytes that it names and leaves no flipped bit, and a memory without
flipped bits reads as its bytes stand. -/
theorem memoryReadsBack : Obligations.MemoryReadsBack := by
  unfold Obligations.MemoryReadsBack
  intro m unit a n v h
  obtain ⟨herrs, hbytes⟩ := Mem.write_unflipped h unit a n v
  rw [Mem.read_unflipped herrs]
  refine ⟨cellsGet_of_bytes _ _ _ _ fun i hi => ?_, rfl, rfl, fun b hb => ?_⟩
  · rw [hbytes, if_pos (by omega), Nat.add_sub_cancel_left]
  · have hsame : (tabGet 0 (m.write unit a n v).1.cells b).toNat = (tabGet 0 m.cells b).toNat := by
      rw [hbytes, if_neg (by omega)]
    exact congrArg (· + 256 * 0) hsame

end Sys2Proof.Machine

/-! ## What the shared operations touch

`Touches` of the operations that every family of commands uses: outputs, counters, interrupts and the module log; and for the
dictionary, which of its entries they leave. -/

namespace Sys2Proof

open Machine

/-! ### Parts that stay -/

section Fields

variable {ps : List Part} {s t : State} (h : Touches ps s t)
include h

theorem Touches.mode (hp : Part.mode ∉ ps := by decide) : t.mode = s.mode := (h.2 .mode hp).1
theorem Touches.frame (hp : Part.frame ∉ ps := by decide) : t.frame = s.frame := h.2 .frame hp
theorem Touches.intake (hp : Part.intake ∉ ps := by decide) : t.intake = s.intake := h.2 .intake hp
theorem Touches.power (hp : Part.power ∉ ps := by decide) : t.power = s.power := h.2 .power hp
theorem Touches.od (hp : Part.dictionary ∉ ps := by decide) : t.od = s.od := (h.2 .dictionary hp).1
theorem Touches.eff (hp : Part.dictionary ∉ ps := by decide) : t.eff = s.eff := (h.2 .dictionary hp).2
theorem Touches.log (hp : Part.log ∉ ps := by decide) : t.log = s.log := h.2 .log hp
theorem Touches.nvr (hp : Part.nvr ∉ ps := by decide) : t.nvr = s.nvr := h.2 .nvr hp
theorem Touches.clk (hp : Part.clk ∉ ps := by decide) : t.clk = s.clk := h.2 .clk hp
theorem Touches.host (hp : Part.host ∉ ps := by decide) : t.host = s.host := h.2 .host hp
theorem Touches.net (hp : Part.net ∉ ps := by decide) : t.net = s.net := h.2 .net hp
theorem Touches.gw (hp : Part.gw ∉ ps := by decide) : t.gw = s.gw := h.2 .gw hp
theorem Touches.ce (hp : Part.ce ∉ ps := by decide) : t.ce = s.ce := h.2 .ce hp
theorem Touches.te (hp : Part.te ∉ ps := by decide) : t.te = s.te := h.2 .te hp
theorem Touches.cd (hp : Part.cd ∉ ps := by decide) : t.cd = s.cd := h.2 .cd hp
theorem Touches.bm (hp : Part.bm ∉ ps := by decide) : t.bm = s.bm := h.2 .bm hp
theorem Touches.ferry (hp : Part.ferry ∉ ps := by decide) : t.ferry = s.ferry := h.2 .ferry hp
theorem Touches.cells (hp : Part.cells ∉ ps := by decide) : t.cells = s.cells := h.2 .cells hp
theorem Touches.se (hp : Part.se ∉ ps := by decide) : t.se = s.se := h.2 .se hp
theorem Touches.mpc (hp : Part.mpc ∉ ps := by decide) : t.mpc = s.mpc := h.2 .mpc hp
theorem Touches.red (hp : Part.red ∉ ps := by decide) : t.red = s.red := h.2 .red hp

/-- What stays of the parts named stays of more. -/
theorem Touches.widen {qs : List Part} (hq : ps ⊆ qs := by decide) : Touches qs s t :=
  ⟨h.1, fun p hp => h.2 p (fun m => hp (hq m))⟩

/-- Two changes one after the other, within parts that hold both. -/
theorem Touches.andThen {qs rs : List Part} {u : State} (k : Touches qs t u) (hp : ps ⊆ rs := by decide)
    (hq : qs ⊆ rs := by decide) : Touches rs s u := (h.widen hp).step k hq

end Fields

end Sys2Proof

namespace Sys2Proof.Machine

open Sys2Proof

/-- What every step of a fold keeps, the fold keeps. -/
theorem foldl_keeps {α β : Type} (g : State → β) (f : State → α → State) (h : ∀ s x, g (f s x) = g s) (l : List α)
    (s : State) : g (l.foldl f s) = g s := by
  induction l generalizing s with
  | nil => rfl
  | cons x l ih => exact (ih _).trans (h s x)

/-! ### Outputs, interrupts, counters and the log -/

section Shared

variable (s : State)

theorem State.emit_touches (o : Output) : Touches [.out] s (s.emit o) := .ite (.refl ..) (touch_out ..)

theorem State.sendVector_touches (v : Nat) : Touches [.host, .out] s (s.sendVector v) := by
  unfold State.sendVector
  exact .ite ((touch_host ..).widen) (s.emit_touches _).widen

theorem State.raise_touches (c : Nat) : Touches [.host, .out] s (s.raise c) := by
  unfold State.raise
  exact (touch_host ..).andThen (qs := [.host, .out]) (.ite (State.sendVector_touches ..) (.refl ..))

theorem State.odPut_touches (k v : Nat) : Touches [.dictionary] s (s.odPut k v) := touch_od ..

theorem State.count_touches (i k n : Nat) : Touches [.dictionary] s (s.count i k n) := s.odPut_touches ..

theorem State.count64_touches (i k n : Nat) : Touches [.dictionary] s (s.count64 i k n) := s.odPut_touches ..

/-- The parts that an entry of the module log touches. -/
abbrev logParts : List Part := [.dictionary, .log, .host, .out]

theorem State.logForce_touches (e p : Nat) : Touches logParts s (s.logForce e p) := by
  unfold State.logForce
  extract_lets l x cursor reached lost s1 s2 x3 s3 s4
  have h1 : Touches logParts s s1 := (touch_log ..).widen
  have h2 : Touches logParts s s2 := h1.step (qs := [.dictionary]) (.ite (s1.count_touches ..) (.refl ..)) (by decide)
  have h3 : Touches logParts s s3 := h2.step (qs := [.host]) (.ite (touch_host ..) (.refl ..)) (by decide)
  have h4 : Touches logParts s s4 := h3.step (qs := [.host, .out]) (.ite (s3.raise_touches ..) (.refl ..)) (by decide)
  exact h4.step (qs := [.host, .out]) (.ite (s4.raise_touches ..) (.refl ..)) (by decide)

theorem State.logEvent_touches (e p : Nat) : Touches logParts s (s.logEvent e p) :=
  .ite (s.logForce_touches ..) (s.count_touches ..).widen

theorem State.logState_touches (o n : Mode) (t c : Nat) : Touches logParts s (s.logState o n t c) := s.logForce_touches ..

theorem State.logLimited_touches (n src e p : Nat) : Touches logParts s (s.logLimited n src e p) := by
  unfold State.logLimited
  extract_lets l l' key s1 s2
  have h1 : Touches logParts s s1 := (touch_log ..).widen
  have h2 : Touches logParts s s2 := h1.andThen (touch_log ..)
  exact .ite (h2.andThen (s2.logEvent_touches ..)) h1

theorem State.refuse_touches (i k st src : Nat) : Touches logParts s (s.refuse i k st src) := by
  unfold State.refuse
  extract_lets s1 s2
  have h2 : Touches logParts s s2 := (s.count_touches ..).andThen (s1.logEvent_touches ..)
  exact .ite (h2.andThen (s2.raise_touches ..)) h2

theorem State.violation_touches : Touches [.dictionary, .host, .out] s s.violation :=
  (s.count_touches ..).andThen (State.raise_touches ..)

theorem State.redLog_touches (e p : Nat) : Touches logParts s (s.redLog e p) :=
  (s.logEvent_touches ..).andThen (State.raise_touches ..)

theorem State.mpcLog_touches (e src p : Nat) : Touches logParts s (s.mpcLog e src p) :=
  (s.logLimited_touches ..).andThen (State.raise_touches ..)

theorem State.seLog_touches (e ch p : Nat) : Touches logParts s (s.seLog e ch p) :=
  (s.logLimited_touches ..).andThen (State.raise_touches ..)

end Shared

/-! ### Entries of the dictionary that stay -/

/-- Every entry but those named reads as before. -/
structure KeepsEntries (ks : List Nat) (s t : State) : Prop where
  entry : ∀ k, k ∉ ks → t.odk k = s.odk k

section Entries

variable {ks : List Nat} {s t u : State}

theorem KeepsEntries.of_od (h : t.od = s.od) : KeepsEntries ks s t :=
  ⟨fun k _ => congrArg (tabGet (odDefault k) · k) h⟩

theorem KeepsEntries.refl (ks : List Nat) (s : State) : KeepsEntries ks s s := ⟨fun _ _ => rfl⟩

theorem KeepsEntries.trans (h : KeepsEntries ks s t) (k : KeepsEntries ks t u) : KeepsEntries ks s u :=
  ⟨fun i hi => (k.entry i hi).trans (h.entry i hi)⟩

theorem KeepsEntries.ite {c : Prop} [Decidable c] (h : KeepsEntries ks s t) (k : KeepsEntries ks s u) :
    KeepsEntries ks s (if c then t else u) := by split <;> assumption

theorem KeepsEntries.odPut {k v : Nat} (hk : k ∈ ks) : KeepsEntries ks s (s.odPut k v) := by
  refine ⟨fun j hj => ?_⟩
  have hne : j ≠ k := fun e => hj (by rw [e]; exact hk)
  rw [State.odPut_odk, if_neg hne]

theorem KeepsEntries.count {i k n : Nat} (hk : okey i k ∈ ks) : KeepsEntries ks s (s.count i k n) := .odPut hk

/-- What stays, entry by entry. -/
theorem KeepsEntries.odv (h : KeepsEntries ks s t) {i k : Nat} (hk : okey i k ∉ ks) : t.odv i k = s.odv i k := h.entry _ hk

/-- The counters of lost and of suppressed log entries. -/
def logCounters : List Nat := [okey 0xC100 3, okey 0xC100 4]

theorem State.logForce_keepsEntries (s : State) (e p : Nat) : KeepsEntries logCounters s (s.logForce e p) := by
  unfold State.logForce
  extract_lets l x cursor reached lost s1 s2 x3 s3 s4
  have h2 : KeepsEntries logCounters s1 s2 := .ite (.count (by decide)) (.refl ..)
  have h3 : KeepsEntries logCounters s2 s3 := .of_od (by unfold s3; split <;> rfl)
  have h4 : KeepsEntries logCounters s3 s4 := .ite (.of_od (s3.raise_touches ..).od) (.refl ..)
  have h1 : KeepsEntries logCounters s s1 := .of_od rfl
  exact (h1.trans (h2.trans (h3.trans h4))).trans (.ite (.of_od (s4.raise_touches ..).od) (.refl ..))

theorem State.logEvent_keepsEntries (s : State) (e p : Nat) : KeepsEntries logCounters s (s.logEvent e p) := by
  unfold State.logEvent
  exact .ite (s.logForce_keepsEntries ..) (.count (by decide))

theorem State.count_odv (s : State) (i k n j m : Nat) :
    (s.count i k n).odv j m = if okey j m = okey i k then sat32 (s.odv i k) n else s.odv j m :=
  State.odPut_odk ..

end Entries

end Sys2Proof.Machine

/-! ## Requests and command rows

Which write a command row makes, carried out or refused (R16, R18, R355, R364), and the effect of each command entry. -/

namespace Sys2Proof.Machine

open Sys2Proof

/-! ### A whole write is concluded -/

theorem Answered.restartAfter {c t : State} (h : Answered c t) (i st v : Nat) (straps : List Nat) :
    Answered (c.restartAfter i st v straps) (t.restartAfter i st v straps) := by
  unfold State.restartAfter
  split
  · obtain ⟨x, y, o, f, g, rfl⟩ := h
    exact ⟨x, y, o, f, g, rfl⟩
  · exact h

/-- The bookkeeping of an answered request touches four parts beside the challenge. -/
theorem Answered.keeps {c t : State} (h : Answered c t) : t.od = c.od ∧ t.log = c.log := by
  obtain ⟨x, y, o, f, g, rfl⟩ := h
  exact ⟨rfl, rfl⟩

section Whole

variable {s : State} {h : ReqHead} {i k n v : Nat} (straps : List Nat)
  (hw : h.wf = true) (hi : i < 65536) (hk : k < 256) (hv : v < 2 ^ (8 * n))

include hw hi hk hv

/-- A whole write of the field network is concluded as its checks say. -/
theorem dapWrite_concludes {p m t : Nat} (hvia : h.via = .dap p m t)
    (hkept : s.keptFor p m t = none) (hopen : s.transferOf p m t = none) (ho : s.opens h i k n v = true) :
    ∃ d : Done, d = (s.arrival h i k n v).doWrite (headAsk h i k n v) ∧
      ∃ u, Answered d.state u ∧
        State.dapWrite { s with out := [] } p m t (headReq h i k n v) straps (dapFrames (headReq h i k n v).dataLen) =
          u.restartAfter i d.status v straps := by
  obtain ⟨_, _, h3, h4, h5, h6, h7, _, _⟩ := headReq_stream h i k n v hw hi hk hv
  have hask := headAsk_stream h i k n v hw hi hk hv
  rw [hvia] at hask
  have hst : State.openedStatus { s with out := [] } (reqTransfer (headReq h i k n v) p m t)
      (dapFrames (headReq h i k n v).dataLen) = stOk := by
    unfold State.opens at ho
    rw [hvia] at ho
    exact of_decide_eq_true ho
  have harr : s.arrival h i k n v = State.count { s with out := [] } 0x1020 1 (dapFrames (headReq h i k n v).dataLen) := by
    unfold State.arrival; rw [hvia]
  have hreq : (reqTransfer (headReq h i k n v) p m t).ask = headAsk h i k n v := by
    unfold reqTransfer Transfer.ask
    dsimp only
    rw [h3, h4, h5, h7, Nat.mod_eq_of_lt hi, Nat.mod_eq_of_lt hk, hask]
  refine ⟨_, rfl, ?_⟩
  rw [harr]
  unfold State.dapWrite
  dsimp only
  rw [show State.keptFor { s with out := [] } p m t = none from hkept,
    show State.transferOf { s with out := [] } p m t = none from hopen]
  dsimp only
  rw [hst, if_neg (by simp), hreq, if_pos (by rw [h6, h5])]
  exact ⟨_, Answered.dapAnswer (d := ⟨_, _, _, _⟩) (Answered.out (Answered.refl _) _) p m t true _, rfl⟩

/-- A whole write of the host is concluded as its checks say. -/
theorem hostWrite_concludes (hn : n < 65536) (hvia : h.via = .host) (ht : s.hostReaches = true) :
    ∃ d : Done, d = (s.arrival h i k n v).doWrite (headAsk h i k n v) ∧
      ∃ u, Answered d.state u ∧
        State.hostRequest { s with out := [] } 2 (headReq h i k n v) straps = u.restartAfter i d.status v straps := by
  obtain ⟨_, h2, h3, h4, h5, h6, h7, h8, h9⟩ := headReq_stream h i k n v hw hi hk hv
  have harr : s.arrival h i k n v =
      State.count { s with out := [], host := s.host.mailboxSet 2 (headReq h i k n v) } 0x1001 6 := by
    unfold State.arrival; rw [hvia]
  obtain ⟨m1, m2, m3, m4, m5, m6, m7⟩ := mailboxSet_write s.host (headReq h i k n v) (by rw [h3]; exact hi)
    (by rw [h4]; exact hk) (by rw [h5]; exact hn)
  have htr : (if (headReq h i k n v).signed then some (trailerOf (s.host.mailboxSet 2 (headReq h i k n v)).trailer) else none)
      = h.signed := by
    cases hsg : (headReq h i k n v).signed with
    | false =>
      rw [hsg] at h2
      exact (Option.not_isSome_iff_eq_none.mp (by rw [← h2]; exact Bool.false_ne_true)).symm
    | true => rw [m7 hsg, h5]; exact h9 hsg
  have hsrc : sourceFor .host (headReq h i k n v).signed i = sourceFor h.via h.signed.isSome i := by rw [h2, hvia]
  refine ⟨_, rfl, ?_⟩
  rw [harr]
  unfold State.hostRequest
  rw [if_pos (show State.hostReaches { s with out := [] } = true from ht)]
  unfold State.mailboxGo
  generalize hc : State.count { s with out := [], host := s.host.mailboxSet 2 (headReq h i k n v) } 0x1001 6 = c
  have hch : c.host = s.host.mailboxSet 2 (headReq h i k n v) := by rw [← hc]; rfl
  dsimp only
  rw [hch, m1, m2, m3, m4, m6, m5, h3, h4, h5, h8, htr, hsrc, if_neg (by decide), if_pos rfl]
  exact ⟨_, Answered.mailboxDone (Answered.refl _) false, rfl⟩

/-- A command row that arrives as one whole write is concluded as its checks say. -/
theorem command_concludes (hn : n < 65536) (ht : s.takesFrom h = true) (ho : s.opens h i k n v = true) :
    ∃ d : Done, d = (s.arrival h i k n v).doWrite (headAsk h i k n v) ∧
      ∃ u, Answered d.state u ∧
        State.command { s with out := [] } h i k n v straps = u.restartAfter i d.status v straps := by
  have hvia := (headReq_stream h i k n v hw hi hk hv).1
  unfold State.command State.requestWrite
  dsimp only
  rw [hvia]
  unfold State.takesFrom at ht
  cases hh : h.via with
  | host =>
    rw [hh] at ht
    exact hostWrite_concludes straps hw hi hk hv hn hh ht
  | dap p m t =>
    rw [hh] at ht
    simp only [Bool.and_eq_true, Option.isNone_iff_eq_none] at ht
    obtain ⟨⟨hans, hkept⟩, hopen⟩ := ht
    dsimp only
    rw [if_pos (show State.answers { s with out := [] } = true from hans)]
    exact dapWrite_concludes straps hw hi hk hv hh hkept hopen ho

end Whole

/-! ### An admitted write -/

theorem andThen_eq_ok {x y : Nat} : andThen x y = stOk ↔ x = stOk ∧ y = stOk := by
  unfold andThen
  split
  · next h => simp [h]
  · next h => simp [h]

/-- A write that passes the checks has an entry. -/
theorem entry_of_writeStatus {s : State} {a : Ask} (h : s.writeStatus a = stOk) : (entryOf a.index a.sub).isSome := by
  have hhead : a.headStatus = stOk := (andThen_eq_ok.mp h).1
  unfold Ask.headStatus headStatus at hhead
  split at hhead
  · split at hhead <;> exact absurd hhead (by decide)
  next e he => rw [he]; rfl

/-- A write that passes its checks is carried out. -/
theorem doWrite_carried {s : State} {a : Ask} (h : s.writeStatus a = stOk) :
    ∃ e, entryOf a.index a.sub = some e ∧ Answered (s.commit a) (s.doWrite a).state ∧
      (s.doWrite a).status = ((s.commit a).accepted a).answerOf a e := by
  obtain ⟨e, he⟩ := Option.isSome_iff_exists.mp (entry_of_writeStatus h)
  refine ⟨e, he, doWrite_answered s a h (entry_of_writeStatus h), ?_⟩
  unfold State.doWrite State.conclude
  rw [h, he]
  rfl

/-- An admitted command row carries its write out, and the module restart is due where its answer says so. -/
theorem command_admitted {s : State} {h : ReqHead} {i k n v : Nat} (a : s.admits h i k n v) (straps : List Nat) :
    Answered (((s.arrival h i k n v).commit (headAsk h i k n v)).restartAfter i
        ((s.arrival h i k n v).doWrite (headAsk h i k n v)).status v straps)
      (State.command { s with out := [] } h i k n v straps) := by
  obtain ⟨hw, ⟨hi, hk, hn, hv⟩, ⟨ht, ho⟩, hs⟩ := a
  obtain ⟨d, hd, u, hu, hcmd⟩ := command_concludes straps hw hi hk hv hn ht ho
  obtain ⟨e, _, hans, _⟩ := doWrite_carried hs
  rw [hcmd, ← hd]
  refine Answered.restartAfter ?_ i d.status v straps
  rw [← hd] at hans
  obtain ⟨x, y, o, f, g, hstate⟩ := hans
  obtain ⟨x', y', o', f', g', rfl⟩ := hu
  exact ⟨x', y', o', f', g', by rw [hstate]⟩

/-- An admitted command row carries its write out. -/
theorem command_commits {s : State} {h : ReqHead} {i k n v : Nat} (a : s.admits h i k n v) (straps : List Nat)
    (hx : i = 0xB072 → bitAt v 7 = false) :
    Answered ((s.arrival h i k n v).commit (headAsk h i k n v)) (State.command { s with out := [] } h i k n v straps) := by
  have hadm := command_admitted a straps
  unfold State.restartAfter at hadm
  rw [if_neg ?_] at hadm
  · exact hadm
  · rintro ⟨rfl, -, hbit⟩
    rw [hx rfl] at hbit
    exact Bool.noConfusion hbit

/-! ### The rows of command entries -/

/-- A command entry executes its write. -/
theorem commit_cmd {s : State} {a : Ask} {e : Entry} (he : entryOf a.index a.sub = some e) (hc : e.acc = .cmd) :
    s.commit a = s.execute a := by
  unfold State.commit
  rw [he]
  exact if_pos hc

end Sys2Proof.Machine

/-! ## A setting whose key is that of a counter -/

namespace Sys2Proof.Machine

open Sys2Proof

/-- Ripening is off in OD 0x3020.01, and one job is not yet stopped. -/
def ripeningOff : State :=
  { State.reset with
    od := tabPut (odDefault (okey 0x3020 1)) [] (okey 0x3020 1) 0
    te := { jobs := [(0, { model := 0, began := 0, participants := [], candidate := {}, failed := false, ended := [],
                           errors := none, accepted := false })] } }

/-- The write of OD 0x3020 at subindex 4110 stores 0 in the counter of abandoned jobs, which the job it stops then counts. -/
theorem setValue_ripeningOff : (ripeningOff.setValue 0x3020 4110 0 false).odv 0x3020 4110 = 1 := by decide

/-- Refutes O44: its clause on `setValue` speaks of every index and subindex, and a write of object 0x3020 at subindex 4110,
which has the key of the counter 0x3030.0E, does not read back: `ripeningOff` reads 1 after a write of 0. -/
theorem not_dictionaryWrites : ¬ Obligations.DictionaryWrites := by
  unfold Obligations.DictionaryWrites
  rintro ⟨_, _, _, hset, _⟩
  obtain ⟨hread, _, _, _⟩ := hset 0x3020 4110 0 false ripeningOff
  rw [setValue_ripeningOff] at hread
  exact absurd hread (by decide)

end Sys2Proof.Machine

/-! ## Records of the NVR, stops of the CD and ways into SHUTDOWN_LATCHED -/

namespace Sys2Proof.Machine

open Sys2Proof

/-! ### What they touch -/

section Stops

variable (s : State)

theorem State.mpcEvent_touches (e p : Nat) : Touches logParts s (s.mpcEvent e p) :=
  (s.logEvent_touches ..).andThen (State.raise_touches ..)

theorem State.writeLost_touches (w : NvrWrite) : Touches [.dictionary] s (s.writeLost w) := by
  unfold State.writeLost
  split
  · exact s.count_touches ..
  · exact s.count_touches ..
  · exact .refl ..

theorem State.nvrWrite_touches (w : NvrWrite) : Touches [.nvr, .dictionary] s (s.nvrWrite w) := by
  unfold State.nvrWrite
  split
  · exact (s.writeLost_touches w).widen
  · split <;> exact (touch_nvr ..).widen

theorem State.faultRecord_touches (cause after : Nat) (p : FaultAt) :
    Touches [.nvr, .dictionary] s (s.faultRecord cause after p) := by
  unfold State.faultRecord
  extract_lets seq s1
  have h1 : Touches [.nvr, .dictionary] s s1 := .ite (s.count_touches ..).widen (s.nvrWrite_touches _)
  exact .ite (s.count_touches ..).widen (.ite (h1.andThen (touch_nvr ..)) h1)

theorem State.dropCopies_touches (gone : CopyItem → Bool) : Touches [.te] s (s.dropCopies gone) := touch_te ..

theorem State.dropLoad_touches (l : Load) : Touches [.te] s (s.dropLoad l) :=
  (s.dropCopies_touches _).andThen (touch_te ..)

theorem State.endLoad_touches (st : Nat) : Touches (.te :: logParts) s (s.endLoad st) := by
  unfold State.endLoad
  split
  next l _ =>
    extract_lets s1 te s2 s3
    have h1 : Touches (.te :: logParts) s s1 := (s.dropLoad_touches l).widen
    have h2 : Touches (.te :: logParts) s s2 := h1.andThen (touch_te ..)
    have h3 : Touches (.te :: logParts) s s3 := h2.andThen (qs := logParts) (.ite (.refl ..) (s2.refuse_touches ..))
    exact .ite (h1.andThen (s1.count_touches ..)) (.ite h1 (h3.andThen (s3.raise_touches ..)))
  · exact .refl ..

theorem State.promote_touches : Touches [.te] s s.promote :=
  Touches.foldl _ _ (.refl ..) fun u _ => .ite (.refl ..) (touch_te u _)

theorem State.dropJob_touches (i : Nat) : Touches [.te] s (s.dropJob i) := (touch_te ..).andThen (State.promote_touches _)

theorem State.abandonJobs_touches (l : List Nat) : Touches [.te, .dictionary] s (s.abandonJobs l) := by
  refine Touches.foldl _ _ (.refl ..) fun u i => ?_
  split
  · exact (u.count_touches ..).andThen (State.dropJob_touches ..)
  · exact .refl ..

/-- The parts that a stop of the CD touches. -/
abbrev stopParts : List Part := [.te, .cd, .clk, .mpc, .dictionary, .log, .host, .out]

theorem State.cdStop_touches (cause : Nat) : Touches stopParts s (s.cdStop cause) := by
  unfold State.cdStop
  split
  · extract_lets s1 s2 cd clk s3
    have h1 : Touches stopParts s s1 := (s.endLoad_touches _).widen
    have h2 : Touches stopParts s s2 := h1.andThen (s1.abandonJobs_touches _)
    have h3 : Touches stopParts s2 s3 := by
      simp [touches_iff, Part.forall_iff, Part.same, s3, stopParts]
    have h4 : Touches stopParts s s3 := h2.step h3 (by decide)
    exact .ite h4 (h4.andThen (s3.mpcEvent_touches ..))
  · exact (touch_cd ..).widen

/-- After a stop the CD does not run and its start is not due. -/
theorem State.cdStop_cd (cause : Nat) : (s.cdStop cause).cd.running = false ∧ (s.cdStop cause).cd.due = false := by
  unfold State.cdStop
  split
  · extract_lets s1 s2 cd clk s3
    split
    · exact ⟨rfl, rfl⟩
    · rw [(s3.mpcEvent_touches ..).cd]
      exact ⟨rfl, rfl⟩
  next h => exact ⟨Bool.eq_false_iff.mpr h, rfl⟩

theorem State.cdDue_touches : Touches [.cd] s s.cdDue := .ite (touch_cd ..) (.refl ..)

theorem State.dropWaiting_touches : Touches [.nvr, .se, .dictionary] s s.dropWaiting := by
  unfold State.dropWaiting
  extract_lets s1 se s2
  have h1 : Touches [.nvr, .se, .dictionary] s s1 := Touches.foldl _ _ (.refl ..) fun u w => (u.writeLost_touches w).widen
  have h2 : Touches [.nvr, .se, .dictionary] s s2 :=
    .ite ((h1.andThen (rs := [.nvr, .se, .dictionary]) (touch_se ..)).andThen (State.count_touches ..)) h1
  exact h2.andThen (touch_nvr ..)

/-- The write in progress goes on. -/
theorem State.dropWaiting_writing : s.dropWaiting.nvr.writing = s.nvr.writing ∧ s.dropWaiting.nvr.waiting = [] := by
  unfold State.dropWaiting
  extract_lets s1 se s2
  have h1 : Touches [.dictionary] s s1 := Touches.foldl _ _ (.refl ..) fun u w => u.writeLost_touches w
  have h2 : s2.nvr = s1.nvr := by unfold s2; split <;> rfl
  have h3 : s2.nvr.writing = s.nvr.writing := congrArg Nvr.writing (h2.trans h1.nvr)
  exact ⟨h3, rfl⟩

theorem State.transition_touches (m : Mode) (c t : Nat) :
    Touches [.mode, .causes, .nvr, .dictionary, .log, .host, .out] s (s.transition m c t) := by
  unfold State.transition
  extract_lets old nvr s1
  have h1 : Touches [.mode, .causes, .nvr] s s1 := by
    simp [touches_iff, Part.forall_iff, Part.same, s1]
  exact h1.andThen ((s1.logState_touches ..).andThen (State.raise_touches ..) (rs := logParts))

end Stops

/-! ### SHUTDOWN_LATCHED and OFF -/

/-- A module that has power and enters SHUTDOWN_LATCHED keeps nothing but the log and the rails. -/
theorem State.enterShutdown_shut (s : State) (cause : Nat) (p : FaultAt) (h : s.up = true) :
    Shut (s.enterShutdown cause p) := by
  have hmode : ¬(s.mode = .off ∨ s.mode = .shutdownLatched) := not_or.mpr (of_decide_eq_true h)
  unfold State.enterShutdown
  rw [if_neg hmode]
  exact ⟨rfl, rfl, rfl⟩

/-- The NVR of a module in SHUTDOWN_LATCHED is what its fault record leaves. -/
theorem State.enterShutdown_nvr (s : State) (cause : Nat) (p : FaultAt) (h : s.up = true) :
    (s.enterShutdown cause p).nvr = (s.faultRecord cause 7 p).nvr := by
  have hmode : ¬(s.mode = .off ∨ s.mode = .shutdownLatched) := not_or.mpr (of_decide_eq_true h)
  unfold State.enterShutdown
  rw [if_neg hmode]
  rfl

theorem State.latchRail_shut (s : State) (j cause : Nat) (m : RailMeas) (h : s.up = true) (hj : j < 5) :
    Shut (s.latchRail j cause m) := by
  unfold State.latchRail
  rw [if_pos hj]
  exact s.enterShutdown_shut _ _ h

/-- A module in OFF: its power is as at the start, and everything volatile is gone. -/
theorem State.enterOff_off (s : State) : s.enterOff.mode = .off ∧ s.enterOff.power = {} ∧ Dark s.enterOff := ⟨rfl, rfl, rfl⟩

/-- A module that leaves its range with no NVR write in progress is in OFF. -/
theorem State.leaveRange_off (s : State) (h : s.nvr.writing = none) :
    s.leaveRange.mode = .off ∧ s.leaveRange.power = {} ∧ Dark s.leaveRange := by
  unfold State.leaveRange
  split
  · exact s.enterOff_off
  · extract_lets s1 p s2
    have hnvr : s2.nvr.writing = none := by
      have hstop : (s.closeGate.cdStop 5).nvr = s.nvr := (State.cdStop_touches ..).nvr
      exact ((State.dropWaiting_writing _).1.trans (congrArg Nvr.writing hstop)).trans h
    rw [hnvr]
    exact s2.enterOff_off

end Sys2Proof.Machine

/-! ## Boot, input power and faults (R41 to R52, R73, R79 to R81, R469, R482) -/

namespace Sys2Proof.Machine

open Sys2Proof

/-! ### What start-up leaves of the input stage -/

/-- The hot-swap switch, whether the input is in range, and the boot watchdog's expiries. -/
def State.inputStage (s : State) : Bool × Bool × Nat := (s.power.hotSwap, s.power.inRange, s.power.bootExpiries)

section InputStage

variable (s : State)

theorem State.inputStage_of_power {s t : State} (h : t.power = s.power) : t.inputStage = s.inputStage := by
  unfold State.inputStage; rw [h]

@[simp] theorem State.bootNote_inputStage (r : Nat) : (s.bootNote r).inputStage = s.inputStage := by
  unfold State.bootNote; split <;> rfl

@[simp] theorem State.transition_inputStage (m : Mode) (c t : Nat) : (s.transition m c t).inputStage = s.inputStage :=
  State.inputStage_of_power (s.transition_touches ..).power

@[simp] theorem State.moveTo_inputStage (m : Mode) (c t : Nat) : (s.moveTo m c t).inputStage = s.inputStage := by
  unfold State.moveTo
  extract_lets old s1 s2 s3 s4
  have h1 : s1.inputStage = s.inputStage := by unfold s1; split <;> rfl
  have h2 : s2.inputStage = s.inputStage := by unfold s2; split <;> exact h1
  have h3 : s3.inputStage = s.inputStage := (s2.transition_inputStage ..).trans h2
  cases m
  case standbyCold =>
    have hstop : s4.inputStage = s3.closeGate.inputStage := State.inputStage_of_power (State.cdStop_touches ..).power
    exact hstop.trans h3
  all_goals exact h3

@[simp] theorem State.bootStop_inputStage (r : Nat) (b : Bool) : (s.bootStop r b).inputStage = s.inputStage := by
  unfold State.bootStop State.move
  extract_lets p s1
  have h1 : s1.inputStage = s.inputStage := rfl
  split
  · split
    · exact h1
    · exact (s1.moveTo_inputStage ..).trans h1
  · exact h1

@[simp] theorem State.keyChain_inputStage : s.keyChain.inputStage = s.inputStage := by
  unfold State.keyChain
  extract_lets p s1 order s2
  have h2 : s2.inputStage = s.inputStage := foldl_keeps State.inputStage _ (fun u k => by dsimp only; split <;> rfl) order s1
  split
  · exact h2
  · exact (s2.bootNote_inputStage _).trans h2

@[simp] theorem State.runStage_inputStage (n : Nat) : (s.runStage n).2.inputStage = s.inputStage := by
  unfold State.runStage
  dsimp only
  split
  · split
    · split
      · exact State.bootNote_inputStage ..
      · rfl
    · rfl
  · rfl

theorem State.aim_touches (p : Nat) : Touches [.clk] s (s.aim p) := by
  unfold State.aim
  split
  · exact .refl ..
  · split
    · exact touch_clk ..
    · exact .ite (.refl ..) (touch_clk ..)

theorem State.reaim_touches : Touches [.clk] s s.reaim := .ite (.refl ..) (s.aim_touches _)

theorem State.fixedPointChanged_touches : Touches [.mpc, .clk] s s.fixedPointChanged :=
  (touch_mpc s _).andThen (State.reaim_touches _)

theorem State.setPort_touches (p : Nat) (f : Port → Port) : Touches [.cells] s (s.setPort p f) := touch_cells ..

theorem State.setChan_touches (c : Nat) (f : SeChan → SeChan) : Touches [.se] s (s.setChan c f) := touch_se ..

theorem State.setLink_touches (l : Nat) (f : Link → Link) : Touches [.ferry] s (s.setLink l f) := touch_ferry ..

theorem State.cellPopulationChanged_touches (old : Nat) : Touches [.cells] s (s.cellPopulationChanged old) :=
  Touches.foldl _ _ (.refl ..) fun u _ => .ite (.refl ..) (u.setPort_touches ..)

@[simp] theorem State.bootConfigure_inputStage : s.bootConfigure.inputStage = s.inputStage := by
  unfold State.bootConfigure
  extract_lets s1 s2 s3 s4 s5 s6
  have h2 : s2.inputStage = s1.inputStage := by
    unfold s2
    split
    · refine (State.inputStage_of_power (State.logEvent_touches ..).power).trans ?_
      exact foldl_keeps State.inputStage (fun (s : State) (e : BEntry) => s.odPut (okey e.index e.sub) e.value) (fun _ _ => rfl) _ s1
    · rfl
  clear_value s2
  have h4 : s4.inputStage = s1.inputStage := h2
  have h5 : s5.inputStage = s1.inputStage :=
    (State.inputStage_of_power (s4.cellPopulationChanged_touches _).power).trans h4
  have h6 : s6.inputStage = s1.inputStage := (State.inputStage_of_power (s5.fixedPointChanged_touches).power).trans h5
  split
  · exact h6
  · exact (s6.bootNote_inputStage _).trans h6

theorem State.seBoot_touches : Touches [.se] s s.seBoot := by
  unfold State.seBoot
  split
  · exact (Touches.foldl _ _ (.refl ..) fun u c => u.setChan_touches ..).andThen (touch_se ..)
  · exact Touches.foldl _ _ (.refl ..) fun u c => u.setChan_touches ..

theorem State.startLinks_touches : Touches [.ferry] s s.startLinks :=
  Touches.foldl _ _ (.refl ..) fun u _ => u.setLink_touches ..

theorem State.draw_touches : Touches [.free] s s.draw.2 := touch_free ..

theorem State.hostLinkUp_touches : Touches [.free, .host] s s.hostLinkUp :=
  ((s.draw_touches.step s.draw.2.draw_touches (fun _ m => m)).widen (qs := [.free, .host])).andThen (touch_host ..)

@[simp] theorem State.bringUp_inputStage : s.bringUp.inputStage = s.inputStage := by
  unfold State.bringUp
  extract_lets clk power s1
  have h2 : (s1.wroteSiod 784 801).inputStage = s.inputStage := rfl
  have h3 := (State.startLinks_touches (s1.wroteSiod 784 801)).power
  exact (State.inputStage_of_power ((State.hostLinkUp_touches _).power.trans h3)).trans h2

/-- Steps 3 to 8 of start-up leave the input stage and the watchdog's expiries. -/
@[simp] theorem State.bootRun_inputStage (straps : List Nat) : (s.bootRun straps).inputStage = s.inputStage := by
  unfold State.bootRun
  extract_lets power s1 s2 id p3 s3 s4 one two
  have h2 : s2.inputStage = s.inputStage := rfl
  have h4 : s4.inputStage = s.inputStage := s3.keyChain_inputStage.trans h2
  have h5 : one.2.inputStage = s.inputStage := (s4.runStage_inputStage 1).trans h4
  have h6 : two.2.inputStage = s.inputStage := (one.2.runStage_inputStage 2).trans h5
  split
  · exact (s2.bootStop_inputStage ..).trans h2
  split
  · exact (one.2.bootStop_inputStage ..).trans h5
  split
  · exact (two.2.bootStop_inputStage ..).trans h6
  · refine (State.bringUp_inputStage _).trans ((State.inputStage_of_power (State.seBoot_touches _).power).trans ?_)
    exact two.2.bootConfigure_inputStage.trans h6

theorem State.rampHead_touches : Touches [.mpc] s s.rampHead := by
  unfold State.rampHead
  split
  · exact .refl ..
  · exact touch_mpc ..

theorem State.raiseRails_touches (g : List (List Nat)) : Touches [.mpc] s (s.raiseRails g) :=
  (touch_mpc s _).andThen (State.rampHead_touches _)

theorem State.rampNext_touches : Touches [.mpc] s s.rampNext := by
  unfold State.rampNext
  split
  · exact .refl ..
  · exact (touch_mpc s _).andThen (State.rampHead_touches _)

theorem State.rampAll_touches : Touches [.mpc] s s.rampAll := Touches.foldl _ _ (.refl ..) fun u _ => u.rampNext_touches

end InputStage

/-! ### The input enters its range -/

theorem State.powerOn_starts (s : State) (b : BootInputs) (hoff : s.mode = .off) (hb : b.highSideShort = none) :
    (s.powerOn b).gv = (s.gv.1, (.boot, s.gv.2.2)) ∧ (s.powerOn b).inputStage = (true, true, s.power.bootExpiries) := by
  unfold State.powerOn
  rw [if_neg (not_not_intro hoff), hb]
  extract_lets before fault p m s1 s2 s3 c p2 s4
  have hgv : s4.gv = (s.gv.1, (.boot, s.gv.2.2)) := by
    have h2 : s2.gv = (s1.gv.1, (.boot, s1.gv.2.2)) := State.moveTo_other_gv _ _ _ _ (by decide)
    have h3 : s3.gv = s2.gv := by simp only [s3, State.rampNext_gv, State.raiseRails_gv]
    exact ((State.clk_power_gv s3 _ _ rfl).trans h3).trans (h2.trans (by rw [show s1.gv = s.gv from State.mpc_power_gv s _ _ rfl]))
  have hin : s4.inputStage = (true, true, s.power.bootExpiries) := by
    have h3 : s3.power = s2.power := ((s2.raiseRails_touches _).step (State.rampNext_touches _) (fun _ m => m)).power
    have h4 : s4.inputStage = s3.inputStage := rfl
    have h1 : s1.inputStage = (true, true, s.power.bootExpiries) := rfl
    exact (h4.trans (State.inputStage_of_power h3)).trans ((s1.moveTo_inputStage ..).trans h1)
  have hboot : s4.mode = .boot := congrArg (fun g => g.2.1) hgv
  exact ⟨(State.bootRun_gv _ _ hboot).trans hgv, (State.bootRun_inputStage ..).trans hin⟩

/-- Settles O8: with no shorted rail by what start-up leaves of the gate view and of the input stage, with one by the way
into SHUTDOWN_LATCHED. -/
theorem inputEntersRange : Obligations.InputEntersRange := by
  unfold Obligations.InputEntersRange
  refine ⟨fun b s hoff hb => ?_, fun b j s hoff hb hj => ?_, fun b s hoff => ?_⟩
  · obtain ⟨hgv, hin⟩ := State.powerOn_starts { s with out := [] } b hoff hb
    refine ⟨_, rfl, congrArg (fun g => g.2.1) hgv, congrArg Prod.fst hin, congrArg (fun i => i.2.1) hin,
      congrArg (fun g => g.1.2) hgv, congrArg (fun g => g.2.2.1) hgv, congrArg (fun g => g.2.2.2) hgv⟩
  · refine ⟨_, rfl, ?_⟩
    generalize hu : ({ s with out := [] } : State) = u
    have hoff' : u.mode = .off := by rw [← hu]; exact hoff
    dsimp -zeta only
    unfold State.powerOn
    rw [if_neg (not_not_intro hoff'), hb]
    extract_lets before fault p m s1 s2 s3
    dsimp only
    rw [if_pos hj]
    have hgv : s2.gv = (s1.gv.1, (.boot, s1.gv.2.2)) := State.moveTo_other_gv _ _ _ _ (by decide)
    have hboot : s2.mode = .boot := congrArg (fun g => g.2.1) hgv
    exact State.latchRail_shut _ _ _ _ (by unfold State.up; rw [hboot]; rfl) hj
  · exact congrArg Host.Outcome.next (if_pos hoff)

/-! ### Boot -/

theorem State.strapMove_changed (s : State) (v : Nat) (hup : s.up = true) (h : s.power.straps ≠ v % 16) :
    s.strapMove v = if s.mode = .boot then { s with power := { s.power with straps := v % 16 } }
      else State.logEvent { s with power := { s.power with straps := v % 16 } } 0xB001
        (packBytes [(1, s.power.straps), (1, v % 16)]) := by
  unfold State.strapMove
  dsimp only
  rw [if_neg (by simp [hup, h])]

/-- What a transition notes of itself. -/
theorem State.transition_notes (s : State) (m : Mode) (c t : Nat) :
    (s.transition m c t).mode = m ∧ (s.transition m c t).lastTransition = s.frame ∧ (s.transition m c t).lastTrigger = t ∧
    (s.transition m c t).causes = c := by
  unfold State.transition
  extract_lets old nvr s1
  have h : Touches logParts s1 ((s1.logState old m t c).raise irqState) :=
    (s1.logState_touches ..).andThen (State.raise_touches ..)
  obtain ⟨hmode, htrans, htrig⟩ := h.2 .mode (by decide)
  exact ⟨hmode, htrans, htrig, (h.2 .causes (by decide)).1⟩

/-- A transition to STANDBY_COLD: its trigger, its frame and its causes; the lease is not held. -/
theorem State.moveTo_standby (s : State) (c t : Nat) :
    (s.moveTo .standbyCold c t).lastTrigger = t ∧ (s.moveTo .standbyCold c t).lastTransition = s.frame ∧
    (s.moveTo .standbyCold c t).causes = c ∧ (s.moveTo .standbyCold c t).red.held = false := by
  unfold State.moveTo
  extract_lets old s1 s2 s3 s4
  have hframe : s2.frame = s.frame := by
    unfold s2 s1
    split <;> split <;> rfl
  obtain ⟨_, htrans, htrig, hcauses⟩ := s2.transition_notes .standbyCold c t
  have hstop := State.cdStop_touches s3.closeGate 0
  obtain ⟨_, hstrans, hstrig⟩ := hstop.2 .mode (by decide)
  obtain ⟨hscauses, _⟩ := hstop.2 .causes (by decide)
  exact ⟨hstrig.trans htrig, (hstrans.trans htrans).trans hframe, hscauses.trans hcauses, rfl⟩

theorem State.bootDone_completes (s : State) (hm : s.mode = .boot) (hup : s.power.servicesUp = true)
    (hw : s.power.watchDone = true) (hb : s.power.bootStopped = false) (hl : s.power.leaving = false) :
    s.bootDone = { s.rampAll.moveTo .standbyCold 0 1 with
      power := { (s.rampAll.moveTo .standbyCold 0 1).power with
        bootTime := 4 * (s.frame - s.power.romFrame), kickAt := s.intake } } := by
  have hr := s.rampAll_touches
  unfold State.bootDone State.move
  rw [if_pos hm]
  dsimp only
  rw [if_pos ⟨hr.mode.trans hm, by rw [hr.power]; exact ⟨hup, hw, by rw [hb]; rfl, by rw [hl]; rfl⟩⟩,
    if_neg (by rw [hr.power, hl]; exact Bool.false_ne_true), hr.frame, hr.power, hr.intake]

/-- Settles O9: the boot's steps case by case; STANDBY_COLD through what a transition to it notes, a boot watchdog's repeat
through what start-up leaves of the gate view and of the input stage. -/
theorem bootProgress : Obligations.BootProgress := by
  unfold Obligations.BootProgress
  refine ⟨fun s hm hb hw hl => ?_, fun s hm hup hw hb hl => ?_, fun s hup => ?_, fun b s hm hb hl hn => ?_,
    fun b s hm hb hl hn => ?_, fun v s hup hm hv => ?_, fun v s hm hv => ?_⟩
  · have hc : ¬(s.mode ≠ .boot ∨ s.power.bootStopped = true ∨ s.power.watchDone = true ∨ s.power.leaving = true) := by
      simp [hm, hb, hw, hl]
    exact ⟨congrArg Host.Outcome.next (if_neg hc), congrArg Host.Outcome.next (if_neg hc)⟩
  · obtain ⟨htrig, htrans, hcauses, hheld⟩ := State.moveTo_standby (State.rampAll { s with out := [] }) 0 1
    have hr := State.rampAll_touches { s with out := [] }
    have hgv := State.moveTo_standby_gv (State.rampAll { s with out := [] }) 0 1
    refine ⟨_, rfl, ?_⟩
    dsimp -zeta only
    rw [State.bootDone_completes { s with out := [] } hm hup hw hb hl]
    exact ⟨congrArg (fun g => g.2.1) hgv, htrig, htrans.trans hr.frame, hcauses, congrArg (fun g => g.2.2.1) hgv,
      congrArg (fun g => g.2.2.2) hgv, rfl, rfl, hheld, (congrArg (fun g => g.1.2) hgv).trans hr.frame⟩
  · exact congrArg Host.Outcome.next (if_pos hup)
  · have hc : ¬(s.mode ≠ .boot ∨ s.power.bootStopped = true ∨ s.power.leaving = true) := by simp [hm, hb, hl]
    exact congrArg Host.Outcome.next ((if_neg hc).trans (if_pos (show 3 ≤ s.power.bootExpiries + 1 by omega)))
  · have hc : ¬(s.mode ≠ .boot ∨ s.power.bootStopped = true ∨ s.power.leaving = true) := by simp [hm, hb, hl]
    refine ⟨_, congrArg Host.Outcome.next ((if_neg hc).trans (if_neg (show ¬3 ≤ s.power.bootExpiries + 1 by omega))), ?_⟩
    generalize hu : State.servicesReset { s with
      out := [], power := { s.power with bootExpiries := s.power.bootExpiries + 1 } } = u
    have hgv : u.gv = (s.gv.1, (.boot, s.power.gate, false)) := by rw [← hu, ← hm]; rfl
    have hin : u.inputStage = (s.power.hotSwap, s.power.inRange, s.power.bootExpiries + 1) := by rw [← hu]; rfl
    have hgv' := (State.bootRun_gv u b.straps (congrArg (fun g => g.2.1) hgv)).trans hgv
    have hin' := (State.bootRun_inputStage u b.straps).trans hin
    exact ⟨congrArg (fun g => g.2.1) hgv', congrArg (fun i => i.2.2) hin', congrArg (fun g => g.2.2.1) hgv',
      congrArg (fun g => g.2.2.2) hgv', congrArg (fun g => g.1.2) hgv'⟩
  · exact congrArg Host.Outcome.next ((State.strapMove_changed { s with out := [] } v hup hv).trans (if_neg hm))
  · have hup : s.up = true := by unfold State.up; rw [hm]; rfl
    exact congrArg Host.Outcome.next ((State.strapMove_changed { s with out := [] } v hup hv).trans (if_pos hm))

/-! ### Faults that shut the module down -/

/-- A slot write that finds the NVR free starts. -/
theorem State.nvrWrite_free (s : State) (w : NvrWrite) (hl : s.power.leaving = false) (hw : s.nvr.writing = none) :
    s.nvrWrite w = { s with nvr := { s.nvr with writing := some w } } := by
  unfold State.nvrWrite
  rw [if_neg (by rw [hl]; exact Bool.false_ne_true), hw]

/-- A fault record that finds the NVR free is being written under its next sequence number. -/
theorem State.faultRecord_writing (s : State) (cause after : Nat) (p : FaultAt) (hr : s.power.inRange = true)
    (hl : s.power.leaving = false) (hb : s.nvr.busy .fault = false) (hw : s.nvr.writing = none) :
    (s.faultRecord cause after p).nvr.writing =
      some ⟨.fault, s.nvr.nextSeq .fault, s.faultBytes cause after (s.nvr.nextSeq .fault) p⟩ := by
  unfold State.faultRecord
  rw [if_neg (by simp [hr, hl]), hb]
  dsimp only
  rw [if_neg Bool.false_ne_true, s.nvrWrite_free _ hl hw]
  split <;> rfl

/-- Settles O10, by what the way into SHUTDOWN_LATCHED keeps. -/
theorem shutdownFaults : Obligations.ShutdownFaults := by
  unfold Obligations.ShutdownFaults
  refine ⟨fun s hup hm hk => ?_, fun root s hup => ?_, fun cause after p s => s.faultRecord_writing cause after p⟩
  · have hc : (s.up && decide (s.mode ≠ .boot) && decide (s.power.kickAt + 100000 ≤ s.intake)) = true := by simp [hup, hm, hk]
    exact ⟨_, congrArg Host.Outcome.next (if_pos hc), State.enterShutdown_shut _ _ _ hup, State.enterShutdown_nvr _ _ _ hup⟩
  · exact ⟨_, rfl, State.enterShutdown_shut _ _ _ hup, State.enterShutdown_nvr _ _ _ hup⟩

/-! ### The input supervisor -/

/-- The ways out of the range leave the module in OFF. -/
def IsOff (t : State) : Prop := t.mode = .off ∧ t.power = {} ∧ Dark t

/-- A tick whose voltage lies out of the range leaves it. -/
theorem State.supervise_leaves (s : State) (mv : Nat) (hm : s.mode ≠ .off) (hl : s.power.leaving = false)
    (hw : s.nvr.writing = none) (h : mv < 44000 ∨ 61000 < mv) : IsOff (s.supervise mv) := by
  unfold State.supervise
  rw [if_neg hm]
  extract_lets p s1
  rw [if_neg (show ¬s1.power.leaving = true by rw [show s1.power.leaving = s.power.leaving from rfl, hl]; exact Bool.false_ne_true),
    if_pos (Or.inr h)]
  refine State.leaveRange_off _ ?_
  split <;> exact hw

/-- What leaving the range with a write in progress leaves. -/
theorem State.leaveRange_waits (s : State) (w : NvrWrite) (hm : s.mode ≠ .off) (hw : s.nvr.writing = some w) :
    s.leaveRange.mode = s.mode ∧ s.leaveRange.power.leaving = true ∧ s.leaveRange.power.gate = false ∧
    s.leaveRange.gw.driving = false ∧ s.leaveRange.cd.running = false ∧ s.leaveRange.nvr.writing = some w ∧
    s.leaveRange.nvr.waiting = [] := by
  unfold State.leaveRange
  rw [if_neg hm]
  extract_lets s1 p s2
  have hstop := State.cdStop_touches s.closeGate 5
  have hdrop := State.dropWaiting_touches (s.closeGate.cdStop 5)
  obtain ⟨hwriting, hwaiting⟩ := State.dropWaiting_writing (s.closeGate.cdStop 5)
  have hnvr : s2.nvr.writing = some w := by
    refine hwriting.trans ?_
    rw [hstop.nvr]
    exact hw
  rw [hnvr]
  refine ⟨hdrop.mode.trans hstop.mode, rfl, ?_, ?_, ?_, hnvr, hwaiting⟩
  · exact congrArg Power.gate (hdrop.power.trans hstop.power)
  · exact congrArg Gangway.driving (hdrop.gw.trans hstop.gw)
  · exact (congrArg Cd.running hdrop.cd).trans (State.cdStop_cd ..).1

/-- Settles O11: the ticks case by case, the ways out of the range through what leaving it leaves. -/
theorem inputRange : Obligations.InputRange := by
  unfold Obligations.InputRange
  refine ⟨fun mv s hm hl hh h1 h2 => ?_, fun mv s hm hl hh h1 h2 hn => ?_, fun mv s hm hl hw h => ?_, fun s hm hl hw => ?_,
    fun w s hm hl hw => ?_, fun w s hl hw => ?_⟩
  · refine congrArg Host.Outcome.next ((if_neg hm).trans ((if_neg (by simp [hl])).trans ((if_neg ?_).trans (if_neg ?_))))
    · simp [hh]; omega
    · omega
  · refine congrArg Host.Outcome.next ((if_neg hm).trans ((if_neg (by simp [hl])).trans ((if_neg ?_).trans
      ((if_pos h2).trans (if_neg ?_)))))
    · simp [hh]; omega
    · dsimp only; omega
  · exact ⟨_, rfl, State.supervise_leaves _ mv hm hl hw h⟩
  · have hl' : ¬s.power.leaving = true := by rw [hl]; exact Bool.false_ne_true
    refine ⟨fun hlow hticks => ?_, fun ns hns => ?_, ?_⟩
    · have hc : s.mode ≠ .off ∧ (!s.power.leaving) = true ∧ s.power.inputLow = true ∧ 2000 ≤ s.power.lowTicks :=
        ⟨hm, by rw [hl]; rfl, hlow, hticks⟩
      exact ⟨_, congrArg Host.Outcome.next (if_pos hc), State.leaveRange_off _ hw⟩
    · have hc : ¬(s.mode = .off ∨ ns < 10000) := by simp [hm]; omega
      exact ⟨_, congrArg Host.Outcome.next ((if_neg hc).trans (if_neg hl')), State.leaveRange_off _ hw⟩
    · have hc : ¬(s.mode = .off ∨ s.power.leaving = true) := by simp [hm, hl]
      exact ⟨_, congrArg Host.Outcome.next (if_neg hc), State.leaveRange_off _ hw⟩
  · have hc : ¬(s.mode = .off ∨ s.power.leaving = true) := by simp [hm, hl]
    exact ⟨_, congrArg Host.Outcome.next (if_neg hc), State.leaveRange_waits _ w hm hw⟩
  · refine ⟨_, rfl, ?_⟩
    dsimp -zeta only
    unfold State.nvrDone
    dsimp only
    rw [hw]
    dsimp only
    rw [if_pos hl]
    exact ⟨rfl, rfl, rfl, rfl⟩

end Sys2Proof.Machine

/-! ## Records, images, bundles and worlds (R88 to R102, R461) -/

namespace Sys2Proof.Machine

open Sys2Proof

/-! ### Rows of command entries -/

/-- The entry is a command. -/
def isCmd (i k : Nat) : Bool := (entryOf i k).any (fun e => decide (e.acc = .cmd))

theorem commit_execute {s : State} {a : Ask} (h : isCmd a.index a.sub = true) : s.commit a = s.execute a := by
  unfold isCmd at h
  obtain ⟨e, he, hc⟩ := (Option.any_eq_true _ _).mp h
  exact commit_cmd he (of_decide_eq_true hc)

theorem commit_headAsk {h : ReqHead} {i k n v : Nat} (hc : isCmd i k = true) (s : State) :
    s.commit (headAsk h i k n v) = s.execute (headAsk h i k n v) := commit_execute hc

/-- A command row whose entry executes `f` does `f`. -/
theorem rowDoes_of_execute {c : Instr} {h : ReqHead} {i k n v : Nat} {f : State → State} (straps : State → List Nat)
    (hcmd : isCmd i k = true)
    (hrow : ∀ s, exec c s = .next (State.command { s with out := [] } h i k n v (straps s))) (hx : i ≠ 0xB072)
    (hf : ∀ s : State, s.execute (headAsk h i k n v) = f s) : RowDoes c h i k n v f := by
  intro s a
  refine ⟨_, hrow s, ?_⟩
  have hc := command_commits a (straps s) (fun e => absurd e hx)
  rwa [commit_headAsk hcmd, hf] at hc

section Execute

variable (s : State) (a : Ask)

/-! What each command entry executes. -/

theorem execute_fence (h : a.index = 0x3102) :
    s.execute a = done a.index a.sub (fun s => (s.fenceCommand a.value).settled) s := by
  cases a; cases h; rfl

theorem execute_cd (h : a.index = 0x3104) : s.execute a = done a.index a.sub (fun s => s.cdCommand a.value) s := by
  cases a; cases h; rfl

theorem execute_resetLearned (h : a.index = 0x6002) :
    s.execute a = done a.index a.sub (fun s => s.resetLearned a.value) s := by
  cases a; cases h; rfl

theorem execute_release (h : a.index = 0x7041) : s.execute a = done a.index a.sub (fun s => s.releaseLatches) s := by
  cases a; cases h; rfl

theorem execute_switch (h : a.index = 0x8010) :
    s.execute a = done a.index a.sub (fun s => s.setRed (fun r => { r with switching := true })) s := by
  cases a; cases h; rfl

theorem execute_key (h : a.index = 0xB011) : s.execute a = done a.index a.sub (fun s => s.keyWrite a.value) s := by
  cases a; cases h; rfl

theorem execute_floor (h : a.index = 0xB013) : s.execute a = done a.index a.sub (fun s => s.floorWrite a.value) s := by
  cases a; cases h; rfl

theorem execute_imageOpen (h : a.index = 0xB070) : s.execute a = done a.index a.sub (fun s => s.imageOpen a.value) s := by
  cases a; cases h; rfl

theorem execute_imageSegment (h : a.index = 0xB071) :
    s.execute a = done a.index a.sub (fun s => s.imageSegment a.value) s := by
  cases a; cases h; rfl

theorem execute_imageActivate (h : a.index = 0xB072) : s.execute a = s.imageActivate a.source := by
  cases a; cases h; unfold State.execute; simp only

theorem execute_bundle (h : a.index = 0xB080) : s.execute a = done a.index a.sub (fun s => s.bundleAccept a.value) s := by
  cases a; cases h; rfl

theorem execute_hold (h : a.index = 0xC002) : s.execute a = done a.index a.sub (fun s =>
    if a.value = 1 then { s with hold := { s.hold with hostDue := true } }
    else { s with hold := { s.hold with release := true } }) s := by
  cases a; cases h; rfl

theorem execute_describe (h : a.index = 0xC020) : s.execute a =
    done a.index a.sub (fun s => { s with description := describe (fld a.value 0 16) (fld a.value 16 8) }) s := by
  cases a; cases h; rfl

theorem execute_load (h : a.index = 0x3200) : s.execute a = s.startLoad a.value a.secure a.source := by
  cases a; cases h; unfold State.execute; simp only

end Execute

/-! ### Records -/

theorem Nvr.store_writes (n : Nvr) (w : NvrWrite) : (n.store w).writing = n.writing ∧ (n.store w).waiting = n.waiting := by
  unfold Nvr.store Nvr.putSlot
  split <;> exact ⟨rfl, rfl⟩

/-- An NVR at rest, spelled out. -/
theorem Nvr.idle_eq {n : Nvr} (hw : n.writing = none) (hq : n.waiting = []) :
    { n with writing := none, waiting := [] } = n := by
  rw [← hw, ← hq]

/-- A floor record whose write completes is stored, and the next write starts. -/
theorem State.nvrDone_floors (s : State) (w : NvrWrite) (hup : s.up = true) (hl : s.power.leaving = false)
    (hw : s.nvr.writing = some w) (hk : w.kind = .floors) :
    s.nvrDone = { s with nvr := { ({ s.nvr with writing := none } : Nvr).store w with
      writing := s.nvr.waiting.head?, waiting := s.nvr.waiting.tail } } := by
  obtain ⟨hwriting, hwaiting⟩ := ({ s.nvr with writing := none } : Nvr).store_writes w
  unfold State.nvrDone
  rw [hw]
  dsimp only
  have hup' : State.up { s with nvr := { s.nvr with writing := none } } = true := hup
  rw [if_neg (by rw [hl]; exact Bool.false_ne_true), if_pos hup']
  unfold State.recordTaken
  rw [hk]
  dsimp only at hwriting hwaiting ⊢
  generalize Nvr.store _ w = n at hwriting hwaiting ⊢
  rw [hwaiting]
  cases hq : s.nvr.waiting with
  | nil =>
    show { s with nvr := n } = { s with nvr := { n with writing := none, waiting := [] } }
    rw [Nvr.idle_eq hwriting (hwaiting.trans hq)]
  | cons x t => rfl

/-- Settles O12: a completed write by cases on what waits, the commands through the rows of their entries. -/
theorem nvrRecords : Obligations.NvrRecords := by
  unfold Obligations.NvrRecords
  refine ⟨fun w s hup hl hw hk => ?_, fun h r => ?_, fun h r hr => ?_, fun h r hr => ?_⟩
  · exact congrArg Host.Outcome.next (State.nvrDone_floors { s with out := [] } w hup hl hw hk)
  · exact rowDoes_of_execute State.presentStraps (by decide) (fun _ => rfl) (by decide) fun s => execute_floor s _ rfl
  · refine rowDoes_of_execute State.presentStraps (by decide) (fun _ => rfl) (by decide) fun s =>
      (execute_key s _ rfl).trans (congrArg (fun f => done 0xB011 0 f s) (funext fun u => ?_))
    show u.keyWrite r = _
    unfold State.keyWrite
    rw [if_pos hr]
  · refine rowDoes_of_execute State.presentStraps (by decide) (fun _ => rfl) (by decide) fun s =>
      (execute_key s _ rfl).trans (congrArg (fun f => done 0xB011 0 f s) (funext fun u => ?_))
    show u.keyWrite r = _
    unfold State.keyWrite
    rw [if_neg hr]

/-! ### Image transfers -/

theorem State.setLast_lastOf (s : State) (i k st : Nat) : (s.setLast i k st).lastOf i k = st := by
  unfold State.setLast State.lastOf
  rw [tabGet_tabPut, if_pos rfl]

theorem State.accepted_lastOf (s : State) (a : Ask) (i k : Nat) : (s.accepted a).lastOf i k = s.lastOf i k := by
  unfold State.accepted
  split <;> rfl

section Activation

variable {s : State} {h : ReqHead} {arg : Nat} (a : s.admits h 0xB072 0 1 arg)
include a

/-- The status that an admitted activation answers. -/
theorem activation_status : ((s.arrival h 0xB072 0 1 arg).doWrite (headAsk h 0xB072 0 1 arg)).status =
    ((s.arrival h 0xB072 0 1 arg).imageActivate (headAsk h 0xB072 0 1 arg).source).lastOf 0xB072 0 := by
  obtain ⟨_, _, _, hs⟩ := a
  obtain ⟨e, he, _, hstatus⟩ := doWrite_carried hs
  have hcmd : isCmd 0xB072 0 = true := by decide
  have hacc : e.acc = .cmd := by
    unfold isCmd at hcmd
    rw [show entryOf 0xB072 0 = some e from he] at hcmd
    exact of_decide_eq_true hcmd
  rw [hstatus]
  unfold State.answerOf
  rw [if_pos ⟨hacc, show (0xB072 : Nat) ≠ 0x3200 by decide⟩, State.accepted_lastOf,
    commit_headAsk hcmd, execute_imageActivate _ _ (show (headAsk h 0xB072 0 1 arg).index = 0xB072 from rfl)]
  rfl

/-- An admitted activation, with the restart that its answer makes due. -/
theorem activation_admitted (straps : List Nat) :
    Answered (((s.arrival h 0xB072 0 1 arg).imageActivate (headAsk h 0xB072 0 1 arg).source).restartAfter 0xB072
        (((s.arrival h 0xB072 0 1 arg).imageActivate (headAsk h 0xB072 0 1 arg).source).lastOf 0xB072 0) arg straps)
      (State.command { s with out := [] } h 0xB072 0 1 arg straps) := by
  have hadm := command_admitted a straps
  rw [activation_status a, commit_headAsk (show isCmd 0xB072 0 = true by decide),
    execute_imageActivate _ _ (show (headAsk h 0xB072 0 1 arg).index = 0xB072 from rfl)] at hadm
  exact hadm

end Activation

theorem State.imageActivate_good (s : State) (src : Nat) (h : s.imageGood = true) :
    s.imageActivate src = done 0xB072 0 (fun s => s.imageMark) s := if_pos h

theorem State.imageActivate_bad (s : State) (src : Nat) (h : s.imageGood = false) :
    s.imageActivate src = (s.refuse 0xB072 0 stSignature src).setLast 0xB072 0 stSignature :=
  if_neg (by rw [h]; exact Bool.false_ne_true)

/-- Settles O13: the commands through the rows of their entries, an activation by what it answers. -/
theorem imageTransfer : Obligations.ImageTransfer := by
  unfold Obligations.ImageTransfer
  refine ⟨fun h header => ?_, fun h offset reserved body => ?_, fun h arg b s a hbit hgood => ?_, fun h arg b s a hbit hgood c hc => ?_,
    fun h arg b s a hbad => ?_, fun header s stage hst => ?_, fun v s => rfl, fun s => ?_, fun s hup => ⟨fun hst => ?_, fun hst => ?_⟩⟩
  · exact rowDoes_of_execute State.presentStraps (by decide) (fun _ => rfl) (by decide) fun s => execute_imageOpen s _ rfl
  · exact rowDoes_of_execute State.presentStraps (by decide) (fun _ => rfl) (by decide) fun s => execute_imageSegment s _ rfl
  · have hadm := activation_admitted a b.straps
    rw [State.imageActivate_good _ _ hgood] at hadm
    unfold State.restartAfter at hadm
    rw [if_neg (fun k => by rw [hbit] at k; exact Bool.false_ne_true k.2.2)] at hadm
    exact ⟨_, rfl, hadm⟩
  · have hadm := activation_admitted a b.straps
    rw [State.imageActivate_good _ _ hgood] at hadm
    unfold State.restartAfter at hadm
    rw [if_pos ⟨rfl, State.setLast_lastOf .., hbit⟩] at hadm
    subst hc
    exact ⟨_, rfl, hadm⟩
  · have hadm := activation_admitted a b.straps
    rw [State.imageActivate_bad _ _ hbad] at hadm
    unfold State.restartAfter at hadm
    rw [if_neg (fun k => by rw [State.setLast_lastOf] at k; exact absurd k.2.1 (by decide))] at hadm
    exact ⟨_, rfl, hadm⟩
  · subst hst; rfl
  · rfl
  · exact congrArg Host.Outcome.next ((if_pos hup).trans (if_neg hst))
  · exact congrArg Host.Outcome.next ((if_pos hup).trans (if_pos hst))

/-! ### Bundles -/

section Digest

variable (s : State)

theorem State.noteChange_touches : Touches [.net] s s.noteChange := .ite (touch_net ..) (.refl ..)

theorem touch_mismatch (x : Bool) : Touches [.config] s { s with mismatch := x } := by
  simp [touches_iff, Part.forall_iff, Part.same]

theorem touch_generation (g : Nat) (d : Bool) : Touches [.config] s { s with generation := g, digestDue := d } := by
  simp [touches_iff, Part.forall_iff, Part.same]

/-- The comparison of the digest changes the flag of a mismatch and the log. -/
theorem State.compareDigest_keeps :
    Touches (.config :: logParts) s s.compareDigest ∧ s.compareDigest.generation = s.generation ∧
    s.compareDigest.digestDue = s.digestDue := by
  unfold State.compareDigest
  extract_lets expected bad was s1
  have h1 : Touches (.config :: logParts) s s1 := (touch_mismatch s bad).widen
  split
  · have h2 : Touches logParts s1 ((s1.logEvent 0xB002 (packBytes [(4, s1.generation)])).raise irqConfig) :=
      (s1.logEvent_touches ..).andThen (State.raise_touches ..)
    obtain ⟨_, hdue, hgen, _, _⟩ := h2.2 .config (by decide)
    exact ⟨h1.andThen h2, hgen, hdue⟩
  · exact ⟨h1, rfl, rfl⟩

/-- After a frame's digest none is due, and the generation stays. -/
theorem State.digestFrame_keeps :
    Touches (.config :: .net :: logParts) s s.digestFrame ∧ s.digestFrame.generation = s.generation ∧
    s.digestFrame.digestDue = false := by
  unfold State.digestFrame
  extract_lets s1
  have h1 : Touches [.config] s s1 ∧ s1.generation = s.generation ∧ s1.digestDue = false := by
    unfold s1
    split
    · exact ⟨by simp [touches_iff, Part.forall_iff, Part.same], rfl, rfl⟩
    next h => exact ⟨.refl .., rfl, Bool.eq_false_iff.mpr h⟩
  obtain ⟨htouch, hgen, hdue⟩ := h1
  have h2 := s1.noteChange_touches
  obtain ⟨_, hdue2, hgen2, _, _⟩ := h2.2 .config (by decide)
  obtain ⟨htouch3, hgen3, hdue3⟩ := s1.noteChange.compareDigest_keeps
  exact ⟨(htouch.andThen (rs := [.config, .net]) h2).andThen htouch3, hgen3.trans (hgen2.trans hgen), hdue3.trans (hdue2.trans hdue)⟩

theorem State.setNode_touches (a : Nat) (f : Node → Node) : Touches [.gw] s (s.setNode a f) := touch_gw ..

theorem State.queueOp_touches (a op d : Nat) : Touches [.gw] s (s.queueOp a op d) := s.setNode_touches ..

theorem State.queueNode_touches (a : Nat) : Touches [.gw] s (s.queueNode a) := by
  have h1 : Touches [.gw] s (s.queueOp a 1 (s.effv (0x1340 + a) 1)) := s.queueOp_touches ..
  have h2 : Touches [.gw] s _ := h1.step (State.queueOp_touches _ a 2 (s.ratioSlot a)) (fun _ m => m)
  have h3 : Touches [.gw] s _ := h2.step (State.queueOp_touches _ a 3 (s.carrierWord a)) (fun _ m => m)
  exact h3.step (State.queueOp_touches _ a 4 1) (fun _ m => m)

theorem State.queueNodes_touches (l : List Nat) : Touches [.gw] s (s.queueNodes l) := by
  refine Touches.foldl _ _ (.refl ..) fun u a => ?_
  exact (u.setNode_touches a _).step (.ite (.refl ..) (State.queueNode_touches ..)) (fun _ m => m)

end Digest

/-- A stored bundle that is applied sets its generation and waits no more. -/
theorem State.bundleApply_applies (s : State) (b : Blob) (hup : s.services = true) (hw : s.power.bundleWaiting = some b)
    (hs : s.power.bundleStored = true) :
    s.bundleApply.generation = bytesAt b 8 4 ∧ s.bundleApply.digestDue = false ∧
    s.bundleApply.power.bundleWaiting = none ∧ s.bundleApply.power.bundleStored = false := by
  unfold State.bundleApply
  split
  next h => exact absurd (h.symm.trans hw) (by simp)
  next b' h =>
  obtain rfl : b' = b := Option.some.inj (h.symm.trans hw)
  rw [if_neg (by simp [hs, hup])]
  extract_lets l u s1 queued p s2 s3
  have h3 : Touches [.gw] s2 s3 := by
    unfold s3
    split
    · exact Touches.foldl _ _ (.refl ..) fun u a => u.setNode_touches ..
    · exact s2.queueNodes_touches _
  obtain ⟨_, _, hgen3, _, _⟩ := h3.2 .config (by decide)
  have h4 := s3.logEvent_touches 0xB003 (packBytes [(4, s3.generation)])
  obtain ⟨_, _, hgen4, _, _⟩ := h4.2 .config (by decide)
  obtain ⟨h5, hgen5, hdue5⟩ := State.digestFrame_keeps (s3.logEvent 0xB003 (packBytes [(4, s3.generation)]))
  have hpower := h5.power.trans (h4.power.trans h3.power)
  exact ⟨hgen5.trans (hgen4.trans hgen3), hdue5, congrArg Power.bundleWaiting hpower, congrArg Power.bundleStored hpower⟩

/-! ### Worlds of regions -/

theorem tabFind_filter {α : Type} (t : Tab α) (keep : Nat → Bool) {k : Nat} (h : keep k = false) :
    tabFind (t.filter (fun p => keep p.1)) k = none := by
  induction t with
  | nil => rfl
  | cons p t ih =>
    rcases p with ⟨j, v⟩
    by_cases hj : keep j = true
    · simp only [List.filter_cons, hj, if_true]
      have hne : k ≠ j := fun e => by rw [e, hj] at h; exact Bool.noConfusion h
      unfold tabFind
      rw [if_neg hne, ih]
    · simp only [List.filter_cons, hj]
      exact ih

theorem movedRegions_eq_nil {n : Nat} {old new : Blob} (h : ∀ r, r < n → bitAt old r = bitAt new r) :
    movedRegions n old new = [] := by
  unfold movedRegions
  refine List.filter_eq_nil_iff.mpr fun r hr => ?_
  rw [h r (List.mem_range.mp hr)]
  simp

theorem State.ceAll_touches (s : State) (f : CeDyn → CeDyn) : Touches [.ce] s (s.ceAll f) := touch_ce ..

/-- Clearing the CE's regions changes the CE and, of the power block, the note of what was written. -/
theorem State.clearCe_touches (s : State) (rs : List Nat) :
    Touches [.ce, .power] s (s.clearCe rs) ∧
    (s.clearCe rs).power = { s.power with siodWritten := (s.clearCe rs).power.siodWritten } := by
  unfold State.clearCe
  extract_lets s1 p s2
  have h1 : Touches [.ce] s s1 := Touches.foldl _ _ (.refl ..) fun u j => u.ceAll_touches _
  have h2 : Touches [.ce, .power] s s2 := h1.andThen (touch_power s1 _)
  have hp : s2.power = { s.power with siodWritten := s2.power.siodWritten } :=
    congrArg (fun q : Power => { q with siodWritten := s2.power.siodWritten }) h1.power
  split
  · refine ⟨?_, hp⟩
    exact h2.andThen ((touch_ce s2 _).step (State.ceAll_touches ..) (fun _ m => m))
  · exact ⟨h2, hp⟩

theorem State.clearHbm_touches (s : State) (rs : List Nat) : Touches [.te, .cd] s (s.clearHbm rs) := by
  simp [touches_iff, Part.forall_iff, Part.same, State.clearHbm]

theorem State.clearTe_touches (s : State) (rs : List Nat) : Touches [.te] s (s.clearTe rs) := touch_te ..

/-- A change of worlds: the stored dictionary stays, the worlds take effect, and what no region loses stays. -/
theorem State.worldChange_changes (s t : State) (ht : t = s.worldChange) :
    t.od = s.od ∧ t.effv 0xB030 0 = s.odv 0xB030 0 ∧ t.effv 0xB031 0 = s.odv 0xB031 0 ∧
    (movedRegions 144 (s.effv 0xB030 0) (s.odv 0xB030 0) = [] → t.cd.hbm = s.cd.hbm) ∧
    (movedRegions 784 (s.effv 0xB031 0) (s.odv 0xB031 0) = [] → t.cd.sram = s.cd.sram) ∧
    t.power = { s.power with siodWritten := t.power.siodWritten } ∧ Touches [.dictionary, .cd, .ce, .te, .power] s t := by
  unfold State.worldChange at ht
  extract_lets hbm sram masks flips s1 s2 s3 cd at ht
  have h1 : Touches [.te, .cd] s s1 := s.clearHbm_touches hbm
  have hhbm : hbm = [] → s1.cd.hbm = s.cd.hbm := fun e => by unfold s1; rw [e]; rfl
  have hmasks : sram = [] → masks = s.cd.sram := fun e => by unfold masks; rw [e]; rfl
  have h2 : Touches [.te] s1 s2 := s1.clearTe_touches _
  obtain ⟨rs, hs3⟩ : ∃ rs, s3 = s2.clearCe rs := ⟨_, rfl⟩
  clear_value s1 s2 s3 masks
  obtain ⟨h3, hp⟩ := s2.clearCe_touches rs
  rw [← hs3] at h3 hp
  have hall : Touches [.dictionary, .cd, .ce, .te, .power] s s3 := (h1.andThen (rs := [.te, .cd]) h2).andThen h3
  have hlast : Touches [.dictionary, .cd] s3 t := by
    simp [touches_iff, Part.forall_iff, Part.same, ht]
  have hod : t.od = s.od := (congrArg State.od ht).trans (h3.od.trans (h2.od.trans h1.od))
  have heff (i : Nat) (h : worldKey (okey i 0) = true) : t.effv i 0 = s.odv i 0 := by
    have hnone : tabFind t.eff (okey i 0) = none := by
      rw [ht]; exact tabFind_filter s3.eff (fun k => !worldKey k) (by rw [h]; rfl)
    unfold State.effv State.effk
    rw [hnone]
    exact congrArg (tabGet (odDefault (okey i 0)) · (okey i 0)) hod
  refine ⟨hod, heff _ (by decide), heff _ (by decide), fun hnil => ?_, fun hnil => ?_, ?_, hall.andThen hlast⟩
  · have hcd : t.cd.hbm = s3.cd.hbm := congrArg (fun u => u.cd.hbm) ht
    rw [hcd, h3.cd, h2.cd]
    exact hhbm hnil
  · exact (congrArg (fun u => u.cd.sram) ht).trans (hmasks hnil)
  · have hpower : t.power = s3.power := by rw [ht]
    rw [hpower, hp, h2.power, h1.power]

/-- Settles O14: a bundle through the row of its entry and through what its application sets; worlds through what their
change keeps. -/
theorem bundlesAndRegions : Obligations.BundlesAndRegions := by
  unfold Obligations.BundlesAndRegions
  refine ⟨fun h b => ?_, fun b s hup hw hs => ?_, fun s hup => ?_⟩
  · exact rowDoes_of_execute State.presentStraps (by decide) (fun _ => rfl) (by decide) fun s => execute_bundle s _ rfl
  · obtain ⟨hgen, hdue, hwait, hstored⟩ := State.bundleApply_applies { s with out := [] } b hup hw hs
    have hgv := State.bundleApply_gv { s with out := [] }
    exact ⟨_, congrArg Host.Outcome.next (if_pos hup), hgen, hdue, hwait, hstored, congrArg (fun g => g.2.1) hgv,
      congrArg (fun g => g.2.2.1) hgv⟩
  · obtain ⟨hod, h30, h31, hhbm, hsram, hpower, htouch⟩ := State.worldChange_changes { s with out := [] } _ rfl
    exact ⟨_, congrArg Host.Outcome.next (if_pos hup), h30, h31, hod, fun h => hhbm (movedRegions_eq_nil h),
      fun h => hsram (movedRegions_eq_nil h), hpower, (touch_out s []).andThen htouch⟩

end Sys2Proof.Machine

/-! ## Settings, clocks and the start and stop of the CD (R55, R72 to R83, R147, R499, R500) -/

namespace Sys2Proof.Machine

open Sys2Proof

/-! ### Writes of settings -/

/-- The entry is a setting, and whether it belongs to the configuration. -/
def isSetting (i k : Nat) (config : Bool) : Bool :=
  (entryOf i k).any (fun e => decide (e.acc ≠ .cmd) && (e.config == config))

theorem commit_setting {s : State} {h : ReqHead} {i k n v : Nat} {config : Bool} (hs : isSetting i k config = true) :
    s.commit (headAsk h i k n v) = s.setValue i k v config := by
  unfold isSetting at hs
  obtain ⟨e, he, hc⟩ := (Option.any_eq_true _ _).mp hs
  obtain ⟨hacc, hconfig⟩ := (Bool.and_eq_true ..).mp hc
  unfold State.commit
  rw [show entryOf (headAsk h i k n v).index (headAsk h i k n v).sub = some e from he]
  dsimp only
  rw [if_neg (of_decide_eq_true hacc), eq_of_beq hconfig]
  rfl

theorem State.odWrite_odk (s : State) (k v j : Nat) : (s.odWrite k v).odk j = if j = k then v else s.odk j := by
  unfold State.odWrite
  split
  · exact s.odPut_odk ..
  · rw [State.odPut_odk]
    split
    · rfl
    · split <;> rfl

theorem State.odWrite_touches (s : State) (k v : Nat) : Touches [.dictionary] s (s.odWrite k v) := by
  unfold State.odWrite
  split
  · exact s.odPut_touches ..
  · dsimp only
    split
    · exact s.odPut_touches ..
    · exact (touch_eff s _).step (State.odPut_touches ..) (fun _ m => m)

/-- A setting takes its value, and what follows from it at once is done; nothing else happens before. -/
theorem State.setValue_stores (s : State) (i k v : Nat) (config : Bool) :
    ∃ u : State, s.setValue i k v config = u.afterWrite i k (s.odv i k) ∧
      (∀ j, u.odk j = if j = okey i k then v else s.odk j) ∧
      (config = true → u.generation = u32Max ∧ u.digestDue = true) ∧
      Touches [.dictionary, .config] s u := by
  unfold State.setValue
  extract_lets old s1 s2
  refine ⟨s2, rfl, fun j => ?_, fun hc => ?_, ?_⟩
  · have h1 := s.odWrite_odk (okey i k) v j
    unfold s2
    split <;> exact h1
  · unfold s2
    rw [if_pos hc]
    exact ⟨rfl, rfl⟩
  · have h1 : Touches [.dictionary, .config] s s1 := (s.odWrite_touches ..).widen
    unfold s2
    exact .ite (h1.andThen (touch_generation s1 _ _)) h1

/-- What holds of every state that an answered write of a row leaves. -/
theorem runs_of_commit {c : Instr} {s : State} {h : ReqHead} {i k n v : Nat} {P : State → Prop} (straps : List Nat)
    (a : s.admits h i k n v) (hrow : exec c s = .next (State.command { s with out := [] } h i k n v straps))
    (hx : i ≠ 0xB072) (hP : ∀ t, Answered ((s.arrival h i k n v).commit (headAsk h i k n v)) t → P t) : Runs c s P :=
  ⟨_, hrow, hP _ (command_commits a straps (fun e => absurd e hx))⟩

/-- The counters of requests. -/
def requestCounters : List Nat := [okey 0x1001 6, okey 0x1020 1]

/-- What a request changes before its checks. -/
theorem State.arrival_keeps (s : State) (h : ReqHead) (i k n v : Nat) :
    Touches [.out, .host, .dictionary] s (s.arrival h i k n v) ∧
    KeepsEntries requestCounters s (s.arrival h i k n v) := by
  unfold State.arrival
  cases h.via with
  | host =>
    refine ⟨?_, ?_⟩
    · exact ((touch_out s []).andThen (rs := [.out, .host]) (touch_host _ _)).andThen (State.count_touches ..)
    · have h1 : KeepsEntries requestCounters s { s with out := [], host := s.host.mailboxSet 2 (headReq h i k n v) } := .of_od rfl
      exact h1.trans (.count (show okey 0x1001 6 ∈ requestCounters by decide))
  | dap p m t =>
    refine ⟨?_, ?_⟩
    · exact (touch_out s []).andThen (State.count_touches ..)
    · have h1 : KeepsEntries requestCounters s { s with out := [] } := .of_od rfl
      exact h1.trans (.count (show okey 0x1020 1 ∈ requestCounters by decide))

theorem State.afterWrite_fixedPoint (s : State) (k old : Nat) : s.afterWrite 0xB062 k old = s.fixedPointChanged := by
  unfold State.afterWrite
  simp

/-! ### The PLLs -/

/-- What a stop of the running CD leaves of it, of its clocks and of its rails. -/
theorem State.cdStop_running (s : State) (cause : Nat) (h : s.cd.running = true) :
    (s.cdStop cause).cd = { s.cd with running := false, due := false, hbm := {}, stackCond := [] } ∧
    (s.cdStop cause).clk = { s.clk with compute := false, hbm := false } ∧ (s.cdStop cause).mpc = s.mpc.lowerCd := by
  unfold State.cdStop
  rw [if_pos h]
  extract_lets s1 s2 cd clk s3
  have h2 : Touches (.te :: logParts) s s2 := (s.endLoad_touches _).step (s1.abandonJobs_touches _) (by decide)
  have h3 : s3.cd = { s.cd with running := false, due := false, hbm := {}, stackCond := [] } ∧
      s3.clk = { s.clk with compute := false, hbm := false } ∧ s3.mpc = s.mpc.lowerCd := by
    rw [← h2.cd, ← h2.clk, ← h2.mpc]
    exact ⟨rfl, rfl, rfl⟩
  split
  · exact h3
  · have h4 := s3.mpcEvent_touches 0x7107 cause
    rw [h4.cd, h4.clk, h4.mpc]
    exact h3

theorem State.cdPllUnlock_stops (s : State) (hbm : Bool) (h : s.cd.running = true) :
    (s.cdPllUnlock hbm).cd.running = false ∧ (s.cdPllUnlock hbm).cd.pllLatch = true ∧ (s.cdPllUnlock hbm).cd.due = false ∧
    (s.cdPllUnlock hbm).clk.compute = false ∧ (s.cdPllUnlock hbm).clk.hbm = false := by
  unfold State.cdPllUnlock
  rw [if_neg (by rw [h]; exact Bool.false_ne_true)]
  extract_lets clk cd s1
  have hf := s1.faultRecord_touches 0x04 s1.afterCdFault {}
  obtain ⟨hcd, hclk, _⟩ := State.cdStop_running (s1.faultRecord 0x04 s1.afterCdFault {}) 4 (by rw [hf.cd]; exact h)
  rw [hcd, hclk, hf.cd]
  exact ⟨rfl, rfl, rfl, rfl, rfl⟩

section Links

variable (s : State)

theorem State.link_of_ferry {s t : State} (h : t.ferry = s.ferry) (j : Nat) : t.link j = s.link j := by
  unfold State.link; rw [h]

theorem State.frameDrop_keeps (l sub : Nat) :
    Touches [.ferry, .dictionary] s (s.frameDrop l sub) ∧
    (∀ j, (s.frameDrop l sub).link j = if j = l then { s.link l with dropSeen := true } else s.link j) := by
  refine ⟨(s.count_touches ..).andThen (State.setLink_touches ..), fun j => ?_⟩
  exact State.setLink_link ..

/-- The messages of a link are lost; of the links only its own sticky bit changes. -/
theorem State.clearBerths_keeps (l : Nat) :
    Touches [.ferry, .dictionary] s (s.clearBerths l) ∧ (∀ j, j ≠ l → (s.clearBerths l).link j = s.link j) := by
  unfold State.clearBerths
  extract_lets mine s1
  have h1 : Touches [.ferry, .dictionary] s s1 :=
    Touches.foldl _ _ (.refl ..) fun u p => .ite (u.frameDrop_keeps ..).1 (.refl ..)
  have hlink : ∀ j, j ≠ l → s1.link j = s.link j := by
    intro j hj
    refine foldl_keeps (fun u => u.link j) _ (fun u p => ?_) mine s
    split
    · rw [(u.frameDrop_keeps l 12).2, if_neg hj]
    · rfl
  exact ⟨h1.andThen (touch_ferry s1 _), hlink⟩

/-- A link that drops is OFF or DOWN; every other link stays. -/
theorem State.dropLink_keeps (l cause : Nat) :
    Touches (.ferry :: logParts) s (s.dropLink l cause) ∧ ((s.dropLink l cause).link l).st ≤ 1 ∧
    (∀ j, j ≠ l → (s.dropLink l cause).link j = s.link j) := by
  unfold State.dropLink
  extract_lets up s1 s2 s3 s4
  obtain ⟨h1, hlink1⟩ := s.clearBerths_keeps l
  have hlink2 (j : Nat) (hj : j ≠ l) : s2.link j = s.link j := by
    rw [State.setLink_link, if_neg hj]; exact hlink1 j hj
  have hst2 : (s2.link l).st ≤ 1 := by
    rw [State.setLink_link, if_pos rfl]; dsimp only; split <;> omega
  have h2 : Touches (.ferry :: logParts) s s2 := h1.andThen (s1.setLink_touches ..)
  split
  · have h4 : Touches (.ferry :: logParts) s s4 := (h2.andThen (rs := .ferry :: logParts) (s2.count_touches ..)).andThen
      (s3.setLink_touches ..)
    have h5 : Touches logParts s4 ((s4.logEvent 0x9001 (packBytes [(1, l), (1, cause)])).raise irqFerry) :=
      (s4.logEvent_touches ..).andThen (State.raise_touches ..)
    have hlink5 (j : Nat) : State.link ((s4.logEvent 0x9001 (packBytes [(1, l), (1, cause)])).raise irqFerry) j = s4.link j :=
      State.link_of_ferry h5.ferry j
    have hlink4 (j : Nat) : s4.link j = if j = l then { s2.link l with downSeen := true } else s2.link j :=
      State.setLink_link ..
    refine ⟨h4.andThen h5, ?_, fun j hj => ?_⟩
    · rw [hlink5, hlink4, if_pos rfl]; exact hst2
    · rw [hlink5, hlink4, if_neg hj]; exact hlink2 j hj
  · exact ⟨h2, hst2, hlink2⟩

/-- One link when the SerDes PLL unlocks. -/
def State.serdesDrop (l : Nat) : State :=
  if (s.link l).st ≤ 1 then s.setLink l (fun x => { x with training := false }) else s.dropLink l 3

theorem State.serdesDrop_keeps (l : Nat) :
    Touches (.ferry :: logParts) s (s.serdesDrop l) ∧ ((s.serdesDrop l).link l).st ≤ 1 ∧
    (∀ j, j ≠ l → (s.serdesDrop l).link j = s.link j) := by
  unfold State.serdesDrop
  split
  next h =>
    refine ⟨(s.setLink_touches ..).widen, ?_, fun j hj => ?_⟩
    · rw [State.setLink_link, if_pos rfl]; exact h
    · rw [State.setLink_link, if_neg hj]
  · exact s.dropLink_keeps l 3

theorem State.serdesDrops_keeps (m : List Nat) :
    Touches (.ferry :: logParts) s (m.foldl State.serdesDrop s) ∧
    (∀ j, j ∈ m ∨ (s.link j).st ≤ 1 → ((m.foldl State.serdesDrop s).link j).st ≤ 1) := by
  induction m generalizing s with
  | nil => exact ⟨.refl .., fun j hj => hj.resolve_left List.not_mem_nil⟩
  | cons l m ih =>
    obtain ⟨htouch, hst, hother⟩ := s.serdesDrop_keeps l
    obtain ⟨htouch', hst'⟩ := ih (s.serdesDrop l)
    refine ⟨htouch.step htouch' (fun _ p => p), fun j hj => hst' j ?_⟩
    by_cases hl : j = l
    · subst hl; exact .inr hst
    · rw [hother j hl]
      exact hj.imp (fun hm => (List.mem_cons.mp hm).resolve_left hl) id

theorem State.serdesLost_drops :
    s.serdesLost.clk = { s.clk with serdes := false } ∧ (∀ l, s.serdesLost.linkIsUp l = false) ∧
    Touches (.clk :: .ferry :: logParts) s s.serdesLost := by
  obtain ⟨htouch, hst⟩ := State.serdesDrops_keeps { s with clk := { s.clk with serdes := false } } (upTo 49)
  refine ⟨htouch.clk, fun l => ?_, (touch_clk s _).andThen htouch⟩
  unfold State.linkIsUp
  by_cases hl : l < 49
  · have hle := hst l (.inl (List.mem_range.mpr hl))
    have hne : ¬(s.serdesLost.link l).st = 4 := fun e => absurd (e ▸ hle : 4 ≤ 1) (by decide)
    rw [decide_eq_false hne, Bool.and_false]
  · rw [decide_eq_false hl, Bool.false_and]

end Links

/-! ### The root, the operating point and the fixed point -/

/-- A value clamped to ten steps either way. -/
theorem clampI_ten (d : Int) : -10 ≤ clampI d (-10) 10 ∧ clampI d (-10) 10 ≤ 10 ∧
    (-10 ≤ d → d ≤ 10 → clampI d (-10) 10 = d) := by
  unfold clampI
  split
  · omega
  · split <;> omega

/-- The change of the fixed point bounds the controllers' levels by the new greatest level. -/
theorem State.fixedPointChanged_levels (s : State) :
    let t := s.fixedPointChanged
    t.mpc.lCap = min s.mpc.lCap t.lambdaMax ∧ t.mpc.lI = min s.mpc.lI t.lambdaMax ∧ t.mpc.lT = min s.mpc.lT t.lambdaMax := by
  intro t
  have hod : t.lambdaMax = s.lambdaMax := by
    unfold State.lambdaMax State.fixedPoint State.odv State.odk
    rw [s.fixedPointChanged_touches.od]
  have hmpc : t.mpc = { s.mpc with
      lCap := min s.mpc.lCap s.lambdaMax, lI := min s.mpc.lI s.lambdaMax, lT := min s.mpc.lT s.lambdaMax } :=
    (State.reaim_touches _).mpc
  rw [hod, hmpc]
  exact ⟨rfl, rfl, rfl⟩

/-- An admitted write of the fixed operating point. -/
theorem fixedOpWrite_stores {s : State} {h : ReqHead} {p : Nat} (a : s.admits h 0xB062 0 1 p) :
    Runs (.fixedOpWrite h p) s (fun t => t.odv 0xB062 0 = p ∧ t.generation = u32Max ∧ t.digestDue = true ∧
      t.mpc.lCap = min s.mpc.lCap t.lambdaMax ∧ t.mpc.lI = min s.mpc.lI t.lambdaMax ∧ t.mpc.lT = min s.mpc.lT t.lambdaMax ∧
      (∀ i k, okey i k ≠ okey 0xB062 0 → okey i k ≠ okey 0x1001 6 → okey i k ≠ okey 0x1020 1 → t.odv i k = s.odv i k)) := by
  refine runs_of_commit (State.presentStraps { s with out := [] }) a rfl (by decide) fun t hc => ?_
  rw [commit_setting (show isSetting 0xB062 0 true = true by decide)] at hc
  obtain ⟨u, hu, hod, hconfig, htouch⟩ := (s.arrival h 0xB062 0 1 p).setValue_stores 0xB062 0 p true
  rw [hu, State.afterWrite_fixedPoint] at hc
  obtain ⟨harr, hkeep⟩ := s.arrival_keeps h 0xB062 0 1 p
  have hmpc : u.mpc = s.mpc := htouch.mpc.trans harr.mpc
  have hf := u.fixedPointChanged_touches
  obtain ⟨hcap, hi, ht⟩ := u.fixedPointChanged_levels
  obtain ⟨hdue, hgen⟩ : u.fixedPointChanged.digestDue = u.digestDue ∧ u.fixedPointChanged.generation = u.generation :=
    ⟨(hf.2 .config (by decide)).2.1, (hf.2 .config (by decide)).2.2.1⟩
  rw [hmpc] at hcap hi ht
  have hentry (j : Nat) : u.fixedPointChanged.odk j = u.odk j := congrArg (tabGet (odDefault j) · j) hf.od
  generalize u.fixedPointChanged = c at *
  obtain ⟨host, net, out, free, ch, rfl⟩ := hc
  refine ⟨?_, hgen.trans (hconfig rfl).1, hdue.trans (hconfig rfl).2, hcap, hi, ht, fun i k h1 h2 h3 => ?_⟩
  · exact (hentry _).trans ((hod _).trans (if_pos rfl))
  · refine (hentry _).trans ((hod _).trans ((if_neg h1).trans ?_))
    exact hkeep.entry _ (by simp [requestCounters, h2, h3])

/-- Settles O15: each clock's command by the branch of its definition that the clause names; the links by induction over
those that the SerDes PLL takes down; the fixed point by what a write of its setting stores and bounds. -/
theorem clocks : Obligations.Clocks := by
  unfold Obligations.Clocks
  refine ⟨fun hbm s hup hrun => ?_, fun s hup => ?_, fun s hup => ?_, fun s hup => ?_, fun cause s hup => ?_, fun s hup => ?_,
    fun p s hup hrun hmay ht hp => ?_, fun t s hup ht => ⟨fun hd => ?_, fun hd => ?_, fun hn hd => ?_⟩,
    fun h p s a => fixedOpWrite_stores a⟩
  · obtain ⟨hcd, hlatch, hdue, hcompute, hhbm⟩ := State.cdPllUnlock_stops { s with out := [] } hbm hrun
    have hgv := State.cdPllUnlock_gv { s with out := [] } hbm
    exact ⟨_, congrArg Host.Outcome.next (if_pos hup), hcd, hlatch, hdue, hcompute, hhbm, congrArg (fun g => g.2.1) hgv,
      congrArg (fun g => g.2.2.1) hgv⟩
  · obtain ⟨hclk, hlinks, htouch⟩ := State.serdesLost_drops { s with out := [] }
    exact ⟨_, congrArg Host.Outcome.next (if_pos hup), hclk, hlinks, (touch_out s []).andThen htouch⟩
  · exact congrArg Host.Outcome.next (if_pos hup)
  · obtain ⟨hlo, hhi, hin⟩ := clampI_ten (Config.rootCorrection (s.sensor 92).used - s.clk.rootComp)
    refine ⟨s.clk.rootComp + clampI (Config.rootCorrection (s.sensor 92).used - s.clk.rootComp) (-10) 10,
      congrArg Host.Outcome.next (if_pos hup), by omega, by omega, fun w hw h1 h2 => ?_⟩
    rw [← hw] at hin ⊢
    rw [hin (by omega) (by omega)]
    omega
  · exact congrArg Host.Outcome.next (if_pos hup)
  · exact congrArg Host.Outcome.next (if_pos hup)
  · refine congrArg Host.Outcome.next ((if_pos hup).trans ((if_pos hmay).trans ?_))
    unfold State.aim
    dsimp only
    rw [if_neg (by rw [hrun]; exact Bool.false_ne_true), ht]
    exact if_neg hp
  · refine congrArg Host.Outcome.next ((if_pos hup).trans ?_)
    unfold State.slewStep
    dsimp only
    rw [ht]
    dsimp only
    rw [if_pos (show s.clk.divider < pointSteps t by omega), if_neg (by omega)]
  · refine congrArg Host.Outcome.next ((if_pos hup).trans ?_)
    unfold State.slewStep
    dsimp only
    rw [ht]
    dsimp only
    rw [if_neg (show ¬s.clk.divider < pointSteps t by omega), if_pos (show pointSteps t < s.clk.divider by omega),
      if_neg (by omega)]
  · refine congrArg Host.Outcome.next ((if_pos hup).trans ?_)
    have hgoal : (if s.clk.divider < pointSteps t then s.clk.divider + 1
        else if pointSteps t < s.clk.divider then s.clk.divider - 1 else pointSteps t) = pointSteps t := by
      split
      · omega
      · split <;> omega
    unfold State.slewStep
    dsimp only
    rw [ht]
    dsimp only
    rw [hgoal, if_pos rfl, hn]

end Sys2Proof.Machine

/-! ## Fences, and the start and stop of the CD (R82, R83, R137, R138, R147, R214, R499, R500) -/

namespace Sys2Proof

theorem Touches.trans {ps : List Part} {s t u : Machine.State} (h : Touches ps s t) (k : Touches ps t u) :
    Touches ps s u := h.step k fun _ => id

end Sys2Proof

namespace Sys2Proof.Machine

open Sys2Proof

/-! ### What a fence touches -/

section Fences

variable (s : State)

theorem State.setCore_touches (c : Nat) (f : Core → Core) : Touches [.te] s (s.setCore c f) := touch_te ..

theorem State.setStream_touches (n : Nat) (f : Stream → Stream) : Touches [.te] s (s.setStream n f) := touch_te ..

theorem State.setModel_touches (k : Nat) (f : Model → Model) : Touches [.te] s (s.setModel k f) := touch_te ..

theorem State.failJobs_touches (p : Nat → Job → Bool) : Touches [.te] s (s.failJobs p) := touch_te ..

theorem State.breakBarriers_touches (g c : Nat) : Touches [.te] s (s.breakBarriers g c) := touch_te ..

theorem State.dropRipen_touches (c : Nat) (r : Run) : Touches [.te] s (s.dropRipen c r) :=
  (s.breakBarriers_touches ..).andThen (State.failJobs_touches ..)

theorem State.keepWords_touches (before : State) (cores : List Nat) : Touches [.te] s (s.keepWords before cores) :=
  .ite (.refl ..) (touch_te ..)

theorem State.dropPrograms_touches (c : Nat) : Touches [.te] s (s.dropPrograms c) := by
  unfold State.dropPrograms
  extract_lets before te1 s1 te2 s2 queued te3 s3 s4
  have h1 : Touches [.te] s s1 := by
    unfold s1
    split
    · exact (touch_te ..).andThen (State.breakBarriers_touches ..)
    · exact .refl ..
  have h2 : Touches [.te] s1 s2 := by
    unfold s2
    split
    · exact (touch_te ..).andThen (State.dropRipen_touches ..)
    · exact .refl ..
  have h4 : Touches [.te] s s4 :=
    Touches.foldl _ _ ((h1.trans h2).trans (touch_te ..)) fun u x => u.dropRipen_touches c x.2
  have h5 := Touches.foldl _ (s4.streamsOn c) h4 fun u n => u.setStream_touches n (fun t => { t with run := none })
  exact h5.trans (State.keepWords_touches ..)

theorem State.fenceCore_touches (c cause : Nat) : Touches [.te] s (s.fenceCore c cause) := by
  refine .ite (.refl ..) ?_
  exact ((s.dropPrograms_touches c).andThen (rs := [.te]) (touch_te ..)).andThen (State.setCore_touches ..)

theorem State.fenceOne_touches (c cause : Nat) : Touches (.te :: logParts) s (s.fenceOne c cause) :=
  .ite (.refl ..) ((s.fenceCore_touches ..).andThen (State.logEvent_touches ..))

theorem State.active_touches (c i n : Nat) : Touches [.cd] s (s.active c i n) := .ite (touch_cd ..) (.refl ..)

theorem State.writeMaster_touches (n bytes : Nat) : Touches [.cd, .dictionary] s (s.writeMaster n bytes) :=
  (s.active_touches ..).andThen (State.count_touches ..)

theorem State.fillMaster_touches (n bytes : Nat) : Touches [.cd, .te, .dictionary] s (s.fillMaster n bytes) :=
  .ite (s.writeMaster_touches n bytes).widen (touch_te ..).widen

theorem State.remaster_touches (n : Nat) : Touches [.cd, .te, .dictionary] s (s.remaster n) := by
  unfold State.remaster
  extract_lets s1
  have fills (u : State) (l : List Nat) (b : Nat) :
      Touches [.cd, .te, .dictionary] u (l.foldl (fun (v : State) m => v.fillMaster m b) u) :=
    Touches.foldl _ _ (.refl ..) fun v m => v.fillMaster_touches m b
  have h1 : Touches [.cd, .te, .dictionary] s s1 := Touches.foldl _ _ (.refl ..) fun u p =>
    .ite ((fills u _ _).andThen (touch_te ..)) (.refl ..)
  exact Touches.foldl _ _ h1 fun u p => .ite ((fills u _ _).andThen (State.setModel_touches ..)) (.refl ..)

/-- The parts that the fence of a cluster touches. -/
abbrev fenceParts : List Part := [.cd, .te, .dictionary, .log, .host, .out]

theorem State.fenceCluster_touches (n cause : Nat) : Touches fenceParts s (s.fenceCluster n cause) := by
  unfold State.fenceCluster
  refine .ite (.refl ..) ?_
  extract_lets te s1 s2 s3 cd s4 s5 s6
  have h2 : Touches fenceParts s s2 := (touch_te s _).andThen (s1.logEvent_touches ..)
  have h3 : Touches fenceParts s s3 := Touches.foldl _ _ h2 fun u i => (u.fenceOne_touches ..).widen
  have h5 : Touches fenceParts s s5 := (h3.andThen (rs := fenceParts) (touch_cd ..)).andThen (s4.failJobs_touches ..)
  have h6 : Touches fenceParts s s6 := Touches.foldl _ _ h5 fun u p => .ite (u.setStream_touches ..).widen (.refl ..)
  exact h6.andThen (s6.remaster_touches n)

theorem State.stackFailed_touches (n cause : Nat) : Touches fenceParts s (s.stackFailed n cause) := by
  unfold State.stackFailed
  extract_lets silent cond cd s1 s2
  have h2 : Touches fenceParts s s2 := (touch_cd s _).andThen (s1.logEvent_touches ..)
  exact .ite (.refl ..) (h2.andThen (s2.fenceCluster_touches ..))

end Fences

/-! ### Fences leave the CD running -/

/-- The CD runs, and its start is due, in both states alike. -/
structure KeepsCd (s t : State) : Prop where
  running : t.cd.running = s.cd.running
  due : t.cd.due = s.cd.due

theorem KeepsCd.of_cd {s t : State} (h : t.cd = s.cd) : KeepsCd s t := ⟨by rw [h], by rw [h]⟩

theorem KeepsCd.refl (s : State) : KeepsCd s s := ⟨rfl, rfl⟩

theorem KeepsCd.trans {s t u : State} (h : KeepsCd s t) (k : KeepsCd t u) : KeepsCd s u :=
  ⟨k.running.trans h.running, k.due.trans h.due⟩

theorem KeepsCd.ite {c : Prop} [Decidable c] {s a b : State} (ha : KeepsCd s a) (hb : KeepsCd s b) :
    KeepsCd s (if c then a else b) := by split <;> assumption

theorem KeepsCd.foldl {α : Type} {s t : State} (f : State → α → State) (l : List α) (h : KeepsCd s t)
    (k : ∀ s x, KeepsCd s (f s x)) : KeepsCd s (l.foldl f t) := by
  induction l generalizing t with
  | nil => exact h
  | cons x xs ih => exact ih (h.trans (k t x))

section CdFlags

variable (s : State)

theorem State.fenceOne_keepsCd (c cause : Nat) : KeepsCd s (s.fenceOne c cause) := .of_cd (s.fenceOne_touches c cause).cd

theorem State.fillMaster_keepsCd (n bytes : Nat) : KeepsCd s (s.fillMaster n bytes) := by
  refine .ite (.trans (t := s.active n 43 (pieces 0 bytes)) (.ite ⟨rfl, rfl⟩ (.refl ..)) ?_) ⟨rfl, rfl⟩
  exact .of_cd (State.count_touches ..).cd

theorem State.remaster_keepsCd (n : Nat) : KeepsCd s (s.remaster n) := by
  unfold State.remaster
  extract_lets s1
  have fills (u : State) (l : List Nat) (b : Nat) :
      KeepsCd u (l.foldl (fun (v : State) m => v.fillMaster m b) u) :=
    KeepsCd.foldl _ _ (.refl ..) fun v m => v.fillMaster_keepsCd m b
  have h1 : KeepsCd s s1 := KeepsCd.foldl _ _ (.refl ..) fun u p => .ite ((fills u _ _).trans ⟨rfl, rfl⟩) (.refl ..)
  exact KeepsCd.foldl _ _ h1 fun u p => .ite ((fills u _ _).trans ⟨rfl, rfl⟩) (.refl ..)

theorem State.fenceCluster_keepsCd (n cause : Nat) : KeepsCd s (s.fenceCluster n cause) := by
  unfold State.fenceCluster
  refine .ite (.refl ..) ?_
  extract_lets te s1 s2 s3 cd s4 s5 s6
  have h2 : KeepsCd s s2 := .of_cd (s1.logEvent_touches ..).cd
  have h3 : KeepsCd s s3 := KeepsCd.foldl _ _ h2 fun u i => u.fenceOne_keepsCd ..
  clear_value s3
  have h6 : KeepsCd s s6 := KeepsCd.foldl _ _ (h3.trans (u := s5) ⟨rfl, rfl⟩) fun u p => .ite ⟨rfl, rfl⟩ (.refl ..)
  exact h6.trans (s6.remaster_keepsCd n)

theorem State.stackFailed_keepsCd (n cause : Nat) : KeepsCd s (s.stackFailed n cause) := by
  unfold State.stackFailed
  extract_lets silent cond cd s1 s2
  have h2 : KeepsCd s s2 := .trans (t := s1) ⟨rfl, rfl⟩ (.of_cd (s1.logEvent_touches ..).cd)
  exact .ite (.refl ..) (h2.trans (s2.fenceCluster_keepsCd ..))

end CdFlags

/-! ### Starts -/

theorem State.bootNote_touches (s : State) (r : Nat) : Touches [.power] s (s.bootNote r) := .ite (touch_power ..) (.refl ..)

theorem State.runStage_touches (s : State) (n : Nat) : Touches [.nvr, .power] s (s.runStage n).2 := by
  unfold State.runStage
  dsimp only
  split
  · split
    · split
      · refine Touches.andThen (ps := [.nvr, .power]) ?_ (State.bootNote_touches ..)
        simp [touches_iff, Part.forall_iff, Part.same]
      · simp [touches_iff, Part.forall_iff, Part.same]
    · simp [touches_iff, Part.forall_iff, Part.same]
  · simp [touches_iff, Part.forall_iff, Part.same]

/-- The first bank of a stage, in the order tried, whose image meets every condition of R83. -/
def State.stageImage (s : State) (n : Nat) : Option (Nat × Nat) :=
  let banks := (if s.onTrial n then [1 - s.nvr.active n, s.nvr.active n] else [s.nvr.active n, 1 - s.nvr.active n]).filter
    (fun b => !(s.nvr.image b n).unmarked)
  (banks.map (fun b => (b, s.imageCond n (s.nvr.image b n)))).find? (fun p => decide (p.2 = 0))

/-- A stage starts where one of its banks holds such an image. -/
theorem State.runStage_fst (s : State) (n : Nat) : (s.runStage n).1 = (s.stageImage n).isSome := by
  unfold State.runStage State.stageImage
  dsimp only
  split
  next h =>
    rw [h]
    split
    · split <;> rfl
    · rfl
  next h => rw [h]; rfl

/-- The NVR and the power state alone decide whether a stage starts. -/
theorem State.runStage_congr {s t : State} (n : Nat) (hn : t.nvr = s.nvr) (hp : t.power = s.power) :
    (t.runStage n).1 = (s.runStage n).1 := by
  have verified (u : State) : u.stageImage n = ({ nvr := u.nvr, power := u.power : State }).stageImage n := rfl
  rw [State.runStage_fst, State.runStage_fst, verified t, verified s, hn, hp]

section CdStart

variable (s : State)

/-- The clocks that run and the point of a CD that starts (Step 2 of R82). -/
theorem State.cdPower_starts : Touches [.clk, .mpc] s s.cdPower ∧ s.cdPower.clk.compute = true ∧ s.cdPower.clk.hbm = true ∧
    s.cdPower.clk.point = 6 := by
  unfold State.cdPower
  extract_lets clk mpc s1 s2
  have h1 : Touches [.clk, .mpc] s s1 := by simp [touches_iff, Part.forall_iff, Part.same, s1]
  have h2 : Touches [.mpc] s1 s2 := s1.raiseRails_touches _
  have hp : s2.clk.point = 6 := congrArg Clk.point h2.clk
  clear_value s2
  exact ⟨(h1.trans h2.widen).trans (touch_clk ..).widen, rfl, rfl, hp⟩

/-- The parts that the run-up of the CD touches. -/
abbrev runParts : List Part := [.cd, .te, .mpc, .dictionary, .log, .host, .out]

/-- The CD that is up runs, whatever its stacks and its cores do (Steps 4 and 5 of R82). -/
theorem State.cdRun_runs (untrained failed : List Nat) :
    Touches runParts s (s.cdRun untrained failed) ∧ (s.cdRun untrained failed).cd.running = true ∧
    (s.cdRun untrained failed).cd.due = false := by
  unfold State.cdRun
  extract_lets cd te s1 mpc s2 s3
  have h1 : Touches runParts s s2 := by simp [touches_iff, Part.forall_iff, Part.same, s2, s1, runParts]
  have hrun : s2.cd.running = true := rfl
  have hdue : s2.cd.due = false := rfl
  clear_value s2
  have h3 : Touches runParts s s3 := Touches.foldl _ _ h1 fun u n => (u.stackFailed_touches n 1).widen
  have k3 : KeepsCd s2 s3 := KeepsCd.foldl _ _ (.refl _) fun u n => u.stackFailed_keepsCd n 1
  refine ⟨Touches.foldl _ _ h3 fun u c => (u.fenceOne_touches c 1).widen, ?_⟩
  have k4 := KeepsCd.foldl (fun (u : State) c => u.fenceOne c 1) ((upTo 96).filter (fun c => decide (c ∈ failed))) k3
    fun u c => u.fenceOne_keepsCd c 1
  exact ⟨k4.running.trans hrun, k4.due.trans hdue⟩

/-- A new heading leaves the clocks that run and the point as they are. -/
theorem State.reaim_clocks : s.reaim.clk.compute = s.clk.compute ∧ s.reaim.clk.hbm = s.clk.hbm ∧
    s.reaim.clk.point = s.clk.point := by
  unfold State.reaim State.aim
  split
  · exact ⟨rfl, rfl, rfl⟩
  · split
    · exact ⟨rfl, rfl, rfl⟩
    · split
      · exact ⟨rfl, rfl, rfl⟩
      · split <;> exact ⟨rfl, rfl, rfl⟩

end CdStart

/-- A start of the CD without a shorted rail begins with Stage 3 on a supplied CD. -/
theorem State.cdStart_verifies (s : State) (inp : CdStartInputs) (hshort : inp.highSideShort = none) (t : State)
    (ht : t = { s with cd := { s.cd with due := false } }.cdPower) :
    Touches [.cd, .clk, .mpc] s t ∧ t.cd = { s.cd with due := false } ∧ t.clk.compute = true ∧ t.clk.hbm = true ∧
    t.clk.point = 6 ∧ (t.runStage 3).1 = (s.runStage 3).1 ∧
    s.cdStart inp = if (t.runStage 3).1 then ((t.runStage 3).2.cdRun inp.untrained inp.selfTestFail).reaim
      else { (t.runStage 3).2 with
        cd := { (t.runStage 3).2.cd with stage3Failed := true }
        clk := { (t.runStage 3).2.clk with compute := false, hbm := false }
        mpc := (t.runStage 3).2.mpc.lowerCd
        notRunning := decide ((t.runStage 3).2.odv 0x3000 0 ≠ 3)
        power := { (t.runStage 3).2.power with bootResult := condResult (t.runStage 3).2.power.failedCond } } := by
  obtain ⟨h, hcompute, hhbm, hpoint⟩ := { s with cd := { s.cd with due := false } }.cdPower_starts
  rw [← ht] at h hcompute hhbm hpoint
  have hst : Touches [.cd, .clk, .mpc] s t := (touch_cd s _).andThen h
  refine ⟨hst, h.cd, hcompute, hhbm, hpoint, State.runStage_congr 3 hst.nvr hst.power, ?_⟩
  unfold State.cdStart
  rw [hshort, ht]

theorem State.cdStart_of_verified (s : State) (inp : CdStartInputs) (hshort : inp.highSideShort = none)
    (h : (s.runStage 3).1 = true) : (s.cdStart inp).cd.running = true ∧ (s.cdStart inp).cd.due = false ∧
    (s.cdStart inp).clk.compute = true ∧ (s.cdStart inp).clk.hbm = true ∧ (s.cdStart inp).clk.point = 6 ∧
    (s.cdStart inp).gv = s.gv := by
  obtain ⟨hst, -, hcompute, hhbm, hpoint, hfst, hstart⟩ := s.cdStart_verifies inp hshort _ rfl
  rw [hstart, if_pos (hfst.trans h)]
  have hgv : (((({ s with cd := { s.cd with due := false } }.cdPower.runStage 3).2).cdRun inp.untrained inp.selfTestFail).reaim).gv = s.gv := by
    simp only [State.reaim_gv, State.cdRun_gv, State.runStage_gv, State.cdPower_gv]
    rfl
  have h3 := State.runStage_touches ({ s with cd := { s.cd with due := false } }.cdPower) 3
  obtain ⟨hr, hrun, hdue⟩ := State.cdRun_runs (({ s with cd := { s.cd with due := false } }.cdPower.runStage 3).2) inp.untrained inp.selfTestFail
  generalize ({ s with cd := { s.cd with due := false } }.cdPower.runStage 3).2 = u at h3 hr hrun hdue hgv ⊢
  generalize u.cdRun inp.untrained inp.selfTestFail = v at hr hrun hdue hgv ⊢
  obtain ⟨kc, kh, kp⟩ := v.reaim_clocks
  have kr := v.reaim_touches
  have hclk := hr.clk.trans h3.clk
  rw [kc, kh, kp, hclk, kr.cd]
  exact ⟨hrun, hdue, hcompute, hhbm, hpoint, hgv⟩

theorem State.cdStart_of_failed (s : State) (inp : CdStartInputs) (hshort : inp.highSideShort = none)
    (h : (s.runStage 3).1 = false) : (s.cdStart inp).cd.running = s.cd.running ∧ (s.cdStart inp).cd.due = false ∧
    (s.cdStart inp).cd.stage3Failed = true ∧ (s.cdStart inp).clk.compute = false ∧ (s.cdStart inp).clk.hbm = false ∧
    (s.cdStart inp).notRunning = decide (s.odv 0x3000 0 ≠ 3) := by
  obtain ⟨hst, hcd, -, -, -, hfst, hstart⟩ := s.cdStart_verifies inp hshort _ rfl
  rw [hstart, if_neg (by rw [hfst, h]; exact Bool.false_ne_true)]
  have h3 := State.runStage_touches ({ s with cd := { s.cd with due := false } }.cdPower) 3
  have hod := congrArg (fun od => tabGet (odDefault (okey 0x3000 0)) od (okey 0x3000 0)) (h3.od.trans hst.od)
  have hcd3 := h3.cd.trans hcd
  generalize ({ s with cd := { s.cd with due := false } }.cdPower.runStage 3).2 = u at hod hcd3 ⊢
  have hrun : u.cd.running = s.cd.running := by rw [hcd3]
  have hdue : u.cd.due = false := by rw [hcd3]
  have hno : decide (u.odv 0x3000 0 ≠ 3) = decide (s.odv 0x3000 0 ≠ 3) :=
    congrArg (fun x => decide (x ≠ 3)) (show u.odv 0x3000 0 = s.odv 0x3000 0 from hod)
  exact ⟨hrun, hdue, rfl, rfl, rfl, hno⟩

/-! ### Flow -/

theorem State.cdStop_retry (s : State) (cause : Nat) : (s.cdStop cause).cd.retry = s.cd.retry := by
  cases h : s.cd.running with
  | true => rw [(State.cdStop_running s cause h).1]
  | false =>
    unfold State.cdStop
    rw [if_neg (by rw [h]; exact Bool.false_ne_true)]

theorem State.flowLoss_stops (s : State) (h : s.power.flowLost = false) : s.flowLoss.cd.running = false ∧
    s.flowLoss.cd.due = s.cd.due ∧ s.flowLoss.cd.retry = false ∧ s.flowLoss.mode = s.mode ∧
    s.flowLoss.power = { s.power with flowOk := false, flowLost := true } := by
  unfold State.flowLoss
  rw [if_neg (by rw [h]; exact Bool.false_ne_true)]
  extract_lets power s1 rails cd mpc s2 due s3 cd2 s4
  have h2 : Touches [.power, .cd, .mpc] s s2 := by simp [touches_iff, Part.forall_iff, Part.same, s2, s1]
  have hpower : s2.power = { s.power with flowOk := false, flowLost := true } := rfl
  have hdue : due = s.cd.due := rfl
  have hretry : s2.cd.retry = false := rfl
  clear_value s2 due
  have h3 : Touches stopParts s2 s3 := (s2.cdStop_touches 1).step (State.count_touches _ 0x7042 7 1) (by decide)
  have hcd : s3.cd = (s2.cdStop 1).cd := ((s2.cdStop 1).count_touches 0x7042 7 1).cd
  have h4 := s4.mpcLog_touches 0x7106 0 (packBytes [(1, 1)])
  rw [h4.cd, h4.mode, h4.power]
  refine ⟨?_, hdue, ?_, h3.mode.trans h2.mode, h3.power.trans hpower⟩
  · exact (congrArg Cd.running hcd).trans (s2.cdStop_cd 1).1
  · exact (congrArg Cd.retry hcd).trans ((s2.cdStop_retry 1).trans hretry)

theorem State.cdDue_running (s : State) : s.cdDue.cd.running = s.cd.running := by
  unfold State.cdDue
  split <;> rfl

theorem State.flowReturn_notes (s : State) (h : s.power.flowOk = false) :
    s.flowReturn.power = { s.power with flowOk := true, flowLost := false, flowSince := s.intake } ∧
    s.flowReturn.mode = s.mode ∧ s.flowReturn.cd.running = s.cd.running := by
  unfold State.flowReturn
  rw [if_neg (by rw [h]; exact Bool.false_ne_true)]
  extract_lets lost power s1
  have h1 : Touches [.power] s s1 := touch_power ..
  have hpower : s1.power = { s.power with flowOk := true, flowLost := false, flowSince := s.intake } := rfl
  clear_value s1
  split
  · have h2 := s1.mpcLog_touches 0x7106 0 (packBytes [(1, 0)])
    have h3 := (s1.mpcLog 0x7106 0 (packBytes [(1, 0)])).cdDue_touches
    rw [h3.power, h3.mode, h2.power, h2.mode, State.cdDue_running, h2.cd]
    exact ⟨hpower, h1.mode, congrArg Cd.running h1.cd⟩
  · exact ⟨hpower, h1.mode, congrArg Cd.running h1.cd⟩

/-- Settles O16: a start verifies Stage 3 and runs the CD up or leaves it down, and a stop of any cause leaves it down. -/
theorem cdStartAndStop : Obligations.CdStartAndStop := by
  unfold Obligations.CdStartAndStop
  refine ⟨fun inp s hup hmay hshort h3 => ?_, fun inp s hup hmay hshort h3 => ?_, fun h => ⟨?_, ?_, fun cause s => ?_⟩,
    fun s hup hf => ?_, fun s hup hf => ?_⟩
  · have hout := State.runStage_congr (s := s) (t := { s with out := [] }) 3 rfl rfl
    obtain ⟨hrun, hdue, hcompute, hhbm, hpoint, hgv⟩ := State.cdStart_of_verified { s with out := [] } inp hshort
      (hout.trans h3)
    exact ⟨_, congrArg Host.Outcome.next ((if_pos hup).trans (if_pos hmay)), hrun, hdue, hcompute, hhbm, hpoint,
      congrArg (·.2.1) hgv, congrArg (·.2.2.1) hgv⟩
  · have hout := State.runStage_congr (s := s) (t := { s with out := [] }) 3 rfl rfl
    obtain ⟨hrun, hdue, hfailed, hcompute, hhbm, hno⟩ := State.cdStart_of_failed { s with out := [] } inp hshort
      (hout.trans h3)
    exact ⟨_, congrArg Host.Outcome.next ((if_pos hup).trans (if_pos hmay)), hrun, hdue, hfailed, hcompute, hhbm, hno⟩
  · exact rowDoes_of_execute State.presentStraps (by decide) (fun _ => rfl) (by decide) fun s => execute_cd s _ rfl
  · exact rowDoes_of_execute State.presentStraps (by decide) (fun _ => rfl) (by decide) fun s => execute_cd s _ rfl
  · have ht := s.cdStop_touches cause
    exact ⟨(s.cdStop_cd cause).1, (s.cdStop_cd cause).2, ht.mode, ht.power⟩
  · exact ⟨_, congrArg Host.Outcome.next (if_pos hup), State.flowLoss_stops { s with out := [] } hf⟩
  · exact ⟨_, congrArg Host.Outcome.next (if_pos hup), State.flowReturn_notes { s with out := [] } hf⟩

end Sys2Proof.Machine

/-! ## The Gangway frame boundary (R71, R376 to R389, R401, R506, R512) -/

namespace Sys2Proof.Machine

open Sys2Proof

/-! ### Words of the SRAM that are read -/

section SramWords

variable (s : State)

theorem State.disagreed_touches (n : Nat) : Touches [.dictionary] s (s.disagreed n) := .ite (.refl ..) (s.count_touches ..)

theorem State.sramVote_touches (a : Nat) : Touches [.cd, .dictionary] s (s.sramVote a) := by
  unfold State.sramVote
  split
  · exact .refl ..
  · extract_lets cd sram s1 s2 flips cd2 s3
    have h1 : Touches [.cd, .dictionary] s s1 := (touch_cd s _).widen
    have h2 : Touches [.cd, .dictionary] s s2 := h1.trans (.ite (.refl ..) (s1.disagreed_touches 1).widen)
    have h3 : Touches [.cd, .dictionary] s s3 := h2.trans (touch_cd ..).widen
    exact .ite (.ite h3 (h3.trans (touch_cd ..).widen)) h2

theorem State.sramVote_keepsCd (a : Nat) : KeepsCd s (s.sramVote a) := by
  unfold State.sramVote
  split
  · exact .refl ..
  · extract_lets cd sram s1 s2 flips cd2 s3
    have h1 : KeepsCd s s1 := ⟨rfl, rfl⟩
    have h2 : KeepsCd s s2 := h1.trans (.ite (.refl ..) (.of_cd (s1.disagreed_touches 1).cd))
    have h3 : KeepsCd s s3 := h2.trans ⟨rfl, rfl⟩
    exact .ite (.ite h3 (h3.trans ⟨rfl, rfl⟩)) h2

theorem State.sramCorrected_touches (a : Nat) : Touches [.dictionary] s (s.sramCorrected a) := by
  unfold State.sramCorrected
  extract_lets m s1
  have h1 : Touches [.dictionary] s s1 := s.count_touches ..
  exact .ite (h1.trans (s1.count_touches ..)) h1

theorem State.dropIntake_touches (n b off : Nat) : Touches [.te, .dictionary] s (s.dropIntake n b off) := by
  refine .ite (.refl ..) ?_
  exact ((touch_te ..).widen.trans (State.count_touches ..).widen).trans (State.count_touches ..).widen

/-- The parts that an uncorrectable word of the SRAM touches. -/
abbrev wordParts : List Part := .hold :: fenceParts

theorem State.sramBad_touches (a : Nat) : Touches wordParts s (s.sramBad a) := by
  unfold State.sramBad
  extract_lets m s1 s2 s3 hold
  have h2 : Touches [.dictionary] s s2 := (s.count_touches ..).trans (.ite (s1.count_touches ..) (.refl ..))
  have h3 : Touches wordParts s s3 :=
    (h2.andThen (rs := wordParts) (s2.logLimited_touches ..)).trans (State.raise_touches ..).widen
  clear_value s3
  split
  case h_1 | h_2 | h_3 | h_4 | h_5 | h_6 => exact h3.trans (s3.fenceOne_touches ..).widen
  case h_7 | h_8 => exact h3.trans (s3.fenceCluster_touches ..).widen
  case h_9 => exact h3.trans (s3.dropIntake_touches ..).widen
  case h_10 => exact h3.trans (touch_hold ..).widen
  case h_11 => exact h3

theorem State.sramBad_keepsCd (a : Nat) : KeepsCd s (s.sramBad a) := by
  unfold State.sramBad
  extract_lets m s1 s2 s3 hold
  have h2 : Touches [.dictionary] s s2 := (s.count_touches ..).trans (.ite (s1.count_touches ..) (.refl ..))
  have h3 : KeepsCd s s3 := .of_cd
    ((h2.andThen (rs := logParts) (s2.logLimited_touches ..)).trans (State.raise_touches ..).widen).cd
  clear_value s3
  split
  case h_1 | h_2 | h_3 | h_4 | h_5 | h_6 => exact h3.trans (s3.fenceOne_keepsCd ..)
  case h_7 | h_8 => exact h3.trans (s3.fenceCluster_keepsCd ..)
  case h_9 => exact h3.trans (.of_cd (s3.dropIntake_touches ..).cd)
  case h_10 => exact h3.trans ⟨rfl, rfl⟩
  case h_11 => exact h3

theorem State.sramAct_touches (l : List (Nat × Option Ecc)) : Touches wordParts s (s.sramAct l) := by
  refine Touches.foldl _ _ (.refl ..) fun u m => ?_
  split
  · exact (u.sramCorrected_touches ..).widen
  · exact u.sramBad_touches ..
  · exact .refl ..

theorem State.sramAct_keepsCd (l : List (Nat × Option Ecc)) : KeepsCd s (s.sramAct l) := by
  refine KeepsCd.foldl _ _ (.refl ..) fun u m => ?_
  split
  · exact .of_cd (u.sramCorrected_touches ..).cd
  · exact u.sramBad_keepsCd ..
  · exact .refl ..

theorem State.siodWords_touches (p : Nat → Bool) : Touches wordParts s (s.siodWords p) := by
  unfold State.siodWords
  extract_lets odd s1
  have h1 : Touches wordParts s s1 := Touches.foldl _ _ (.refl ..) fun u w => (u.sramVote_touches _).widen
  exact h1.trans (s1.sramAct_touches _)

theorem State.siodWords_keepsCd (p : Nat → Bool) : KeepsCd s (s.siodWords p) := by
  unfold State.siodWords
  extract_lets odd s1
  have h1 : KeepsCd s s1 := KeepsCd.foldl _ _ (.refl ..) fun u w => u.sramVote_keepsCd _
  exact h1.trans (s1.sramAct_keepsCd _)

end SramWords

/-! ### The control engine at the boundary -/

section CeFrame

variable (s : State)

theorem State.stepEnters_touches (e : Option Event) : Touches [.dictionary] s (s.stepEnters e) := by
  unfold State.stepEnters
  split
  · exact .ite (s.count_touches ..) (.refl ..)
  · exact .refl ..

theorem State.latchConvs_touches : Touches [.gw] s s.latchConvs := touch_gw ..

theorem State.takeRecords_touches : Touches [.te, .ce, .dictionary] s s.takeRecords.1 := by
  refine Touches.foldl _ _ (touch_te s _).widen fun u m => ?_
  exact (u.stepEnters_touches _).andThen (touch_ce ..)

/-- The parts that a branch that is kept touches. -/
abbrev branchParts : List Part := [.ce, .cd, .power, .dictionary, .log, .host, .out]

theorem State.sramRewrite_touches (ws : List Nat) : Touches [.cd] s (s.sramRewrite ws) := touch_cd ..

theorem State.wroteSiod_touches (lo hi : Nat) : Touches [.power] s (s.wroteSiod lo hi) := touch_power ..

theorem State.keep_touches (d : CeDyn) (b : Bool) : Touches branchParts s (s.keep d b) := by
  unfold State.keep
  extract_lets s1 s2 loops ce s3 s4
  have h1 : Touches branchParts s s1 := (s.sramRewrite_touches _).andThen (State.wroteSiod_touches ..)
  have h2 : Touches branchParts s s2 := by
    refine Touches.foldl _ _ h1 fun u p => ?_
    split
    · exact (u.odPut_touches ..).widen
    · exact .refl ..
  have h4 : Touches branchParts s s4 := Touches.foldl _ _ (h2.trans (touch_ce ..).widen) fun u e => (u.logEvent_touches ..).widen
  exact .ite (h4.trans (s4.count_touches ..).widen) h4

theorem State.keep_keepsCd (d : CeDyn) (b : Bool) : KeepsCd s (s.keep d b) := by
  unfold State.keep
  extract_lets s1 s2 loops ce s3 s4
  have h1 : KeepsCd s s1 := ⟨rfl, rfl⟩
  have h2 : KeepsCd s s2 := by
    refine KeepsCd.foldl _ _ h1 fun u p => ?_
    split
    · exact .of_cd (u.odPut_touches ..).cd
    · exact .refl ..
  have h4 : KeepsCd s s4 := KeepsCd.foldl _ _ (h2.trans (.of_cd (touch_ce s2 _).cd)) fun u e => .of_cd (u.logEvent_touches ..).cd
  exact .ite (h4.trans (.of_cd (s4.count_touches ..).cd)) h4

theorem State.selectBranch_touches : Touches branchParts s s.selectBranch := by
  unfold State.selectBranch
  split
  · exact .refl ..
  next a _ =>
  split
  · exact s.keep_touches ..
  next b _ =>
  extract_lets due
  have h := (s.keep_touches b true).trans (State.count_touches _ 0x2001 2 1).widen
  exact .ite (.ite h (h.trans (State.count_touches ..).widen)) (s.keep_touches ..)

theorem State.selectBranch_keepsCd : KeepsCd s s.selectBranch := by
  unfold State.selectBranch
  split
  · exact .refl ..
  next a _ =>
  split
  · exact s.keep_keepsCd ..
  next b _ =>
  extract_lets due
  have h := (s.keep_keepsCd b true).trans (.of_cd (State.count_touches _ 0x2001 2 1).cd)
  exact .ite (.ite h (h.trans (.of_cd (State.count_touches ..).cd))) (s.keep_keepsCd ..)

theorem State.limitForecastLoops_touches : Touches [.ce] s s.limitForecastLoops := touch_ce ..

theorem State.profileFrame_touches : Touches [.profile, .ce] s s.profileFrame := by
  unfold State.profileFrame
  extract_lets p s1 s2 ce
  have h1 : Touches [.profile, .ce] s s1 := (touch_profile ..).widen
  refine .ite (.refl ..) (.ite (h1.trans ?_) h1)
  exact (s1.limitForecastLoops_touches.andThen (rs := [.ce]) (touch_ce ..)).widen

theorem State.commitStep_touches (m : Merged) : Touches [.ce, .dictionary] s (s.commitStep m) := by
  unfold State.commitStep
  extract_lets at_ ev change s1 ce sure live
  have h1 : Touches [.ce, .dictionary] s s1 := .ite (.refl ..) (s.stepEnters_touches _).widen
  exact .ite (h1.trans (touch_ce ..).widen) (h1.trans (touch_ce ..).widen)

theorem State.commitRecord_touches (t : Option Merged) : Touches [.ce, .dictionary] s (s.commitRecord t) := by
  unfold State.commitRecord
  extract_lets use s1 s2 s3 s4 ce s5 ce2
  have h1 : Touches [.ce, .dictionary] s s1 := by
    unfold s1
    split
    · exact .ite (.refl ..) (s.count_touches ..).widen
    · exact (s.count_touches ..).widen
  have h2 : Touches [.ce, .dictionary] s1 s2 := by
    unfold s2
    generalize use = taken
    split
    · exact (s1.count_touches ..).widen
    · exact .refl ..
  have h3 : Touches [.ce, .dictionary] s2 s3 := by
    unfold s3
    generalize use = taken
    split
    · exact s2.commitStep_touches _
    · exact .refl ..
  have h5 : Touches [.ce, .dictionary] s3 s5 :=
    .ite ((s3.limitForecastLoops_touches.andThen (rs := [.ce]) (touch_ce ..)).widen) (.refl ..)
  exact ((h1.trans h2).trans (h3.trans h5)).trans (touch_ce ..).widen

/-- The parts that the control engine's frame touches. -/
abbrev ceFrameParts : List Part := .te :: .profile :: branchParts

theorem State.ceFrame_touches (t : Option Merged) : Touches ceFrameParts s (s.ceFrame t) := by
  unfold State.ceFrame
  extract_lets measured te s1 s2 s3
  have h1 : Touches ceFrameParts s s1 := (touch_te ..).widen
  have h2 : Touches ceFrameParts s1 s2 := .ite s1.selectBranch_touches.widen (touch_ce ..).widen
  have h3 : Touches ceFrameParts s s3 := (h1.trans h2).trans s2.profileFrame_touches.widen
  exact .ite (h3.trans (s3.commitRecord_touches t).widen) h3

theorem State.ceFrame_keepsCd (t : Option Merged) : KeepsCd s (s.ceFrame t) := by
  unfold State.ceFrame
  extract_lets measured te s1 s2 s3
  have h2 : KeepsCd s1 s2 := .ite s1.selectBranch_keepsCd ⟨rfl, rfl⟩
  have h3 : KeepsCd s s3 := .trans (t := s1) ⟨rfl, rfl⟩ (h2.trans (.of_cd s2.profileFrame_touches.cd))
  exact .ite (h3.trans (.of_cd (s3.commitRecord_touches t).cd)) h3

end CeFrame

/-! ### The nodes, the grants and the charge at the boundary -/

section Rest

variable (s : State)

/-- The parts that a node's entry or leaving touches. -/
abbrev nodeParts : List Part := .gw :: logParts

theorem State.nodeLeave_touches (a r : Nat) : Touches nodeParts s (s.nodeLeave a r) := by
  unfold State.nodeLeave
  extract_lets s1 gw s2
  have h2 : Touches nodeParts s s2 := ((s.setNode_touches ..).trans (touch_gw s1 _)).widen
  exact .ite ((h2.trans (s2.logEvent_touches ..).widen).trans (State.raise_touches ..).widen) (.refl ..)

theorem State.nodeChanged_touches (a : Nat) : Touches [.gw] s (s.nodeChanged a) :=
  (s.setNode_touches ..).trans (State.queueNode_touches ..)

theorem State.populationChange_touches (old : Nat) (l : List Nat) : Touches nodeParts s (s.populationChange old l) := by
  refine Touches.foldl _ _ (.refl ..) fun u a => ?_
  dsimp only
  split
  · exact (u.nodeLeave_touches ..).trans (State.setNode_touches ..).widen
  · split
    · exact ((u.setNode_touches ..).trans (State.nodeChanged_touches ..)).widen
    · split
      · exact (u.nodeChanged_touches ..).widen
      · exact .ite (u.queueNode_touches ..).widen (.refl ..)

theorem State.frameEffects_touches : Touches nodeParts s s.frameEffects := by
  unfold State.frameEffects
  extract_lets old changed s1
  have h1 : Touches nodeParts s s1 := (touch_eff ..).widen
  exact .ite h1 (h1.trans (s1.populationChange_touches ..))

theorem State.sendMgmt_touches : Touches [.gw, .out] s s.sendMgmt := by
  unfold State.sendMgmt
  split
  · exact (touch_gw ..).widen
  · exact (touch_gw ..).andThen (State.emit_touches ..)

theorem State.gangwayFrame_touches (d : Bool) : Touches nodeParts s (s.gangwayFrame d) := by
  unfold State.gangwayFrame
  extract_lets gw s1 pos hold ratios group gw2 s2 s3 s4 gw3 s5 gw4 s6
  have h1 : Touches nodeParts s s1 := (touch_gw ..).widen
  have h3 : Touches nodeParts s s3 := ((h1.trans (touch_gw ..).widen).trans (s2.emit_touches _).widen).trans
    (State.count64_touches ..).widen
  have h5 : Touches nodeParts s s5 := (h3.trans (s3.count_touches ..).widen).trans (touch_gw ..).widen
  have h6 : Touches nodeParts s s6 := by
    refine .ite (.ite ?_ h5) (h3.trans (touch_gw ..).widen)
    exact (h5.trans (s5.logEvent_touches ..).widen).trans (State.raise_touches ..).widen
  exact .ite (h6.trans s6.sendMgmt_touches.widen) (h1.trans (touch_gw ..).widen)

theorem State.setLanding_touches (l : Nat) (f : Landing → Landing) : Touches [.ferry] s (s.setLanding l f) := touch_ferry ..

theorem State.setGroup_touches (g : Nat) (f : JobGroup → JobGroup) : Touches [.bm] s (s.setGroup g f) := touch_bm ..

theorem State.releaseProgress_touches (now : Nat) : Touches [.bm, .ferry] s (s.releaseProgress now) := by
  unfold State.releaseProgress
  extract_lets s1 start ferry
  have landings (u : State) (l : List Nat) (f : Landing → Landing) :
      Touches [.bm, .ferry] u (l.foldl (fun (v : State) x => v.setLanding x f) u) :=
    Touches.foldl _ _ (.refl ..) fun v x => (v.setLanding_touches ..).widen
  have h1 : Touches [.bm, .ferry] s s1 := by
    refine Touches.foldl _ _ (.refl ..) fun u p => ?_
    split
    · exact .refl ..
    · extract_lets gone mine s2
      have ended (v : State) (f : JobGroup → JobGroup) : Touches [.bm, .ferry] v (v.setGroup p.1 f) :=
        (v.setGroup_touches ..).widen
      exact .ite ((landings u _ _).trans (ended ..)) (.ite ((landings u _ _).trans (ended ..)) (.refl ..))
  exact h1.trans (touch_ferry ..).widen

theorem State.commitGrants_touches : Touches [.bm, .ferry] s s.commitGrants := by
  refine .ite ?_ (.refl ..)
  exact Touches.foldl _ _ ((s.releaseProgress_touches _).trans (touch_ferry ..).widen) fun u l =>
    (u.setLanding_touches ..).widen

theorem State.lostCharge_touches : Touches [.se] s s.lostCharge :=
  Touches.foldl _ _ (.refl ..) fun u ch => .ite ((u.setChan_touches ..).trans (State.setChan_touches ..)) (.refl ..)

end Rest

/-! ### The boundary as a whole -/

/-- Whether the module drives is decided by its state, its gate, its control engine and its hold. -/
theorem State.drives_congr {s t : State} (h : Touches (.bm :: .ferry :: .se :: nodeParts) s t) : t.drives = s.drives := by
  unfold State.drives
  rw [h.mode, h.power, h.ce, show t.hold = s.hold from h.2 .hold (by decide)]

/-- A frame of the Gangway drives exactly where the module may; where it may not, it asks no group. -/
theorem State.gangwayFrame_drives (s : State) (d : Bool) :
    (s.gangwayFrame d).gw.driving = s.drives ∧ (s.drives = false → (s.gangwayFrame d).gw.group = 0) := by
  unfold State.gangwayFrame
  extract_lets gw s1 pos hold ratios group gw2 s2 s3 s4 gw3 s5 gw4 s6
  have hs : s1.drives = s.drives := rfl
  have h3 : s3.gw = s2.gw := ((s2.emit_touches _).andThen (rs := [.out, .dictionary]) (State.count64_touches ..)).gw
  have h4 : s4.gw = s3.gw := (s3.count_touches ..).gw
  have hdriving : s2.gw.driving = true := rfl
  clear_value s1
  cases hd : s1.drives with
  | false =>
    rw [if_neg Bool.false_ne_true, ← hs, hd]
    exact ⟨rfl, fun _ => rfl⟩
  | true =>
    rw [if_pos rfl, ← hs, hd]
    refine ⟨?_, fun h => absurd h (by simp)⟩
    have h5 : s5.gw.driving = true := (congrArg Gangway.driving (h4.trans h3)).trans hdriving
    have h6 : s6.gw.driving = true := by
      unfold s6
      split
      · split
        · have hr := (s5.logEvent_touches 0x1003 (s5.odv 0x1300 4)).andThen (rs := logParts) (State.raise_touches _ irqGangway)
          exact (congrArg Gangway.driving hr.gw).trans h5
        · exact h5
      · exact (congrArg Gangway.driving h3).trans hdriving
    exact (congrArg (·.2.2.2) (State.sendMgmt_gv s6)).trans h6

/-- The parts that change at a boundary after the module's state is decided. -/
abbrev boundaryParts : List Part := [.profile, .hold, .config, .dictionary, .log, .power, .host, .net, .gw, .ce, .te, .cd, .bm, .ferry, .se, .out]

/-- A frame boundary takes a state `s` to `t`, where the module's state was decided in `u`. -/
structure Boundary (s u t : State) : Prop where
  before : Touches [.frame, .gw, .te, .ce, .dictionary] s u
  after : Touches boundaryParts u.judge t
  frame : u.frame = s.frame + 1
  cd : KeepsCd u.judge t
  gate : t.power.gate = u.judge.power.gate
  driving : t.gw.driving = t.drives
  idle : t.drives = false → t.gw.group = 0

theorem State.frameBoundary_boundary (s : State) (d : Bool) (h : s.up = true) : ∃ u, Boundary s u (s.frameBoundary d) := by
  unfold State.frameBoundary
  rw [if_neg (by simp [h])]
  extract_lets s1 t s2 s3 gw s4
  have h1 : Touches [.frame, .gw] s s1 := (touch_frame ..).andThen (State.latchConvs_touches _)
  have ht : Touches [.frame, .gw, .te, .ce, .dictionary] s t.1 := h1.andThen s1.takeRecords_touches
  have hframe : t.1.frame = s.frame + 1 := s1.takeRecords_touches.frame
  have h2 : Touches boundaryParts t.1.judge s2 := (t.1.judge.ceFrame_touches _).widen
  have g2 : s2.gv = t.1.judge.gv := State.ceFrame_gv ..
  have k2 : KeepsCd t.1.judge s2 := State.ceFrame_keepsCd ..
  have h3 : Touches boundaryParts s2 s3 :=
    .ite (s2.frameEffects_touches.andThen (State.digestFrame_keeps _).1) (.refl ..)
  have g3 : s3.gv = s2.gv := by unfold s3; rw [gv_ite, State.digestFrame_gv, State.frameEffects_gv, ite_self]
  have k3 : KeepsCd s2 s3 := .ite (.of_cd (s2.frameEffects_touches.andThen (rs := .config :: .net :: nodeParts)
    (State.digestFrame_keeps _).1).cd) (.refl ..)
  clear_value s2 s3
  have h4 : Touches boundaryParts s3 s4 := (touch_gw ..).widen
  have g4 : s4.gv = s3.gv := State.gw_gv s3 _ rfl
  have k4 : KeepsCd s3 s4 := ⟨rfl, rfl⟩
  clear_value s4
  have h5 : Touches wordParts s4 (s4.siodRead 784 801) := s4.siodWords_touches _
  have g5 : (s4.siodRead 784 801).gv = s4.gv := State.siodRead_gv ..
  have k5 : KeepsCd s4 (s4.siodRead 784 801) := s4.siodWords_keepsCd _
  generalize s4.siodRead 784 801 = s5 at h5 g5 k5
  have h6 := s5.gangwayFrame_touches d
  have g6 := s5.gangwayFrame_gate d
  obtain ⟨hd, hgroup⟩ := s5.gangwayFrame_drives d
  generalize s5.gangwayFrame d = s6 at h6 g6 hd hgroup
  have h7 : Touches [.bm, .ferry, .se] s6 s6.commitGrants.lostCharge :=
    s6.commitGrants_touches.andThen (State.lostCharge_touches _)
  generalize s6.commitGrants.lostCharge = s7 at h7
  have hafter : Touches boundaryParts t.1.judge s7 :=
    (((h2.trans h3).trans h4).trans h5.widen).trans (h6.widen.trans h7.widen)
  have hgate : s7.power.gate = t.1.judge.power.gate := by
    rw [h7.power, g6]
    exact congrArg (·.2.2.1) (g5.trans (g4.trans (g3.trans g2)))
  have hsame : s7.drives = s5.drives := State.drives_congr (h6.andThen h7)
  exact ⟨t.1,
    { before := ht
      after := hafter
      frame := hframe
      cd := (k2.trans k3).trans ((k4.trans k5).trans ((KeepsCd.of_cd h6.cd).trans (.of_cd h7.cd)))
      gate := hgate
      driving := by rw [h7.gw, hd, hsame]
      idle := fun h => by rw [h7.gw]; exact hgroup (hsame.symm.trans h) }⟩

end Sys2Proof.Machine

/-! ## Frames and nodes of the Gangway, and SAFE_HOLD (R29, R376 to R389, R401, R506) -/

namespace Sys2Proof.Machine

open Sys2Proof

/-! ### What a frame boundary decides -/

section Judge

variable (s : State)

theorem State.moveTo_mode (m : Mode) (c t : Nat) : (s.moveTo m c t).mode = m := by
  by_cases h : m = .standbyCold
  · subst h
    exact congrArg (·.2.1) (State.moveTo_standby_gv s c t)
  · exact congrArg (·.2.1) (State.moveTo_other_gv s m c t h)

theorem State.move_of_staying (m : Mode) (c t : Nat) (h : s.power.leaving = false) : s.move m c t = s.moveTo m c t :=
  if_neg (by rw [h]; exact Bool.false_ne_true)

/-- A module in STANDBY_COLD without a restart that is due stays there. -/
theorem State.judge_standby (hm : s.mode = .standbyCold) (hr : s.power.restart = none) : s.judge.mode = .standbyCold := by
  unfold State.judge
  extract_lets s1
  have h1 : s1.mode = .standbyCold := hm
  have h2 : s1.power.restart = none := hr
  clear_value s1
  split
  · exact h1
  · split
    next hl _ =>
      rw [State.move_of_staying _ _ _ _ (Bool.eq_false_iff.mpr hl)]
      exact State.moveTo_mode ..
    · unfold State.restartFrame
      rw [h2]
      exact h1

/-- A module that has lost the lease goes to STANDBY_COLD. -/
theorem State.judge_lost (hl : s.power.leaving = false) (h : s.red.lost = true) :
    s.judge = State.moveTo { s with notRunning := s.noForecast && holdsLeaseMode s.mode } .standbyCold 0 0x0E := by
  unfold State.judge
  extract_lets s1
  have h1 : s1.power.leaving = false := hl
  have h2 : s1.red.lost = true := h
  rw [if_neg (by rw [h1]; exact Bool.false_ne_true), if_pos h2, State.move_of_staying _ _ _ _ h1]

theorem State.ceRestart_leaving : s.ceRestart.power.leaving = s.power.leaving := by
  unfold State.ceRestart
  extract_lets s1 ce
  have h1 : s1.power.leaving = s.power.leaving := by
    unfold s1
    split <;> rfl
  exact h1

/-- A release takes a module from its hold to ACTIVE or DEGRADED. -/
theorem State.leaveHold_mode (t : Nat) (hl : s.power.leaving = false) :
    (s.leaveHold t).mode = .active ∨ (s.leaveHold t).mode = .degraded := by
  unfold State.leaveHold
  extract_lets causes s1
  have h1 : s1.ceRestart.power.leaving = false := s1.ceRestart_leaving.trans hl
  rw [State.move_of_staying _ _ _ _ h1, State.moveTo_mode]
  split
  · exact .inl rfl
  · exact .inr rfl

/-- A release that is due ends the hold. -/
theorem State.judge_release (hm : s.mode = .safeHold) (hlimit : s.hold.limit = false) (hconflict : s.hold.conflict = false)
    (hrelease : s.hold.release = true) (hl : s.power.leaving = false) (hlost : s.red.lost = false) :
    s.judge.mode = .active ∨ s.judge.mode = .degraded := by
  unfold State.judge
  extract_lets s1
  have h1 : s1.mode = .safeHold := hm
  have h2 : s1.power.leaving = false := hl
  have h3 : s1.red.lost = false := hlost
  have h4 : (s1.hold.limit || s1.hold.conflict) = false := by
    rw [show s1.hold = s.hold from rfl, hlimit, hconflict]; rfl
  have h5 : s1.hold.release = true := hrelease
  clear_value s1
  rw [if_neg (by rw [h2]; exact Bool.false_ne_true), if_neg (by rw [h3]; exact Bool.false_ne_true),
    if_neg (by rw [h1]; decide), if_pos h1]
  unfold State.holdFrame
  rw [if_neg (by rw [h4]; exact Bool.false_ne_true), if_pos h5]
  exact s1.leaveHold_mode 0x0C h2

theorem State.startCheckpoint_handover : Touches [.red, .out] s (s.startCheckpoint true) := by
  unfold State.startCheckpoint
  dsimp only
  exact (Touches.ite ((s.emit_touches _).widen (qs := [.red, .out])) (.refl ..)).trans (touch_red ..).widen

/-- A hold that is due takes an ACTIVE module to SAFE_HOLD. -/
theorem State.judge_hold (hm : s.mode = .active) (hclose : s.red.closeDue = false) (hdue : s.hold.hostDue = true)
    (hl : s.power.leaving = false) (hlost : s.red.lost = false) : s.judge.mode = .safeHold := by
  unfold State.judge
  extract_lets s1 s2
  have h1 : s1.mode = .active := hm
  have h2 : s1.power.leaving = false := hl
  have h3 : s1.red.lost = false := hlost
  have h4 : s1.hold.hostDue = true := hdue
  have h5 : s1.red.closeDue = false := hclose
  have k2 : Touches [.red, .out] s1 s2 := by
    unfold s2 State.switchFrame
    refine .ite (.refl ..) ?_
    rw [if_neg (by rw [h5]; exact Bool.false_ne_true)]
    exact .ite s1.startCheckpoint_handover (.refl ..)
  clear_value s1 s2
  have a1 : s1.acting = true := by unfold State.acting; rw [h1]; rfl
  have a2 : s2.acting = true := by unfold State.acting; rw [k2.mode, h1]; rfl
  have d2 : s2.hold.hostDue = true := (congrArg Hold.hostDue (k2.2 .hold (by decide))).trans h4
  have l2 : s2.power.leaving = false := (congrArg Power.leaving k2.power).trans h2
  rw [if_neg (by rw [h2]; exact Bool.false_ne_true), if_neg (by rw [h3]; exact Bool.false_ne_true),
    if_neg (by rw [h1]; decide), if_neg (by rw [h1]; decide), if_pos a1, if_neg (by rw [a2]; decide),
    if_pos (by rw [d2, Bool.or_true])]
  unfold State.enterHold
  extract_lets trigger
  exact (congrArg State.mode (State.move_of_staying s2.holdCauses _ _ _ l2)).trans (State.moveTo_mode ..)

end Judge

/-! ### Nodes -/

section Nodes

variable (s : State)

theorem State.node_setNode (a b : Nat) (f : Node → Node) :
    (s.setNode a f).node b = if b = a then f (s.node a) else s.node b := tabGet_tabMod ..

/-- A log entry and an interrupt leave the nodes. -/
theorem State.node_of_gw {t : State} (h : t.gw = s.gw) (b : Nat) : t.node b = s.node b := by
  unfold State.node
  rw [h]

/-- A change of one node: what becomes of it, that the others stay, and what else changes. -/
structure NodeBecomes (s t : State) (a : Nat) (n : Node) : Prop where
  node : t.node a = n
  others : ∀ b, b ≠ a → t.node b = s.node b
  touches : Touches nodeParts s t

theorem NodeBecomes.of_node {s t : State} {a : Nat} {f : Node → Node}
    (h : ∀ b, t.node b = if b = a then f (s.node a) else s.node b) (ht : Touches nodeParts s t) :
    NodeBecomes s t a (f (s.node a)) :=
  ⟨(h a).trans (if_pos rfl), fun b hb => (h b).trans (if_neg hb), ht⟩

theorem State.nodeLeave_leaves (a r : Nat) (h : (s.node a).inService = true) :
    NodeBecomes s (s.nodeLeave a r) a { s.node a with inService := false, left := true } := by
  refine .of_node (f := fun n => { n with inService := false, left := true }) (fun b => ?_) (s.nodeLeave_touches a r)
  unfold State.nodeLeave
  rw [if_pos h]
  extract_lets s1 gw s2
  have hgw := ((s2.logEvent_touches 0x1002 (packBytes [(1, a), (1, r)])).trans (State.raise_touches _ irqGangway).widen).gw
  have h2 : s2.node b = s1.node b := rfl
  exact (State.node_of_gw _ hgw b).trans (h2.trans (s.node_setNode a b _))

theorem State.nodeEnter_touches (a : Nat) : Touches nodeParts s (s.nodeEnter a) := by
  unfold State.nodeEnter
  extract_lets s1 gw s2
  have h2 : Touches nodeParts s s2 := ((s.setNode_touches ..).trans (touch_gw s1 _)).widen
  exact (h2.trans (s2.logEvent_touches ..).widen).trans (State.raise_touches ..).widen

theorem State.nodeEnter_enters (a : Nat) :
    NodeBecomes s (s.nodeEnter a) a { s.node a with inService := true, left := false, word0 := true } := by
  refine .of_node (f := fun n => { n with inService := true, left := false, word0 := true }) (fun b => ?_)
    (s.nodeEnter_touches a)
  unfold State.nodeEnter
  extract_lets s1 gw s2
  have hgw := ((s2.logEvent_touches 0x1001 a).trans (State.raise_touches _ irqGangway).widen).gw
  have h2 : s2.node b = s1.node b := rfl
  exact (State.node_of_gw _ hgw b).trans (h2.trans (s.node_setNode a b _))

/-- A change that comes after one of the same node. -/
theorem NodeBecomes.after {s t u : State} {a : Nat} {n : Node} {f : Node → Node} (h : NodeBecomes u t a n)
    (hu : u = s.setNode a f) : NodeBecomes s t a n := by
  subst hu
  exact ⟨h.node, fun b hb => (h.others b hb).trans ((s.node_setNode a b f).trans (if_neg hb)),
    (s.setNode_touches a f).widen.trans h.touches⟩

/-- What a good reply leaves of its node before it enters or leaves service. -/
def goodNode (n : Node) (word0 status : Nat) (power : Int) : Node :=
  { n with missRun := 0, fresh := true, lastStatus := status, words := putWord n.words 0 word0, power := power }

theorem State.replySlot_good (a bits word0 status : Nat) (hdue : s.replyDue a = true)
    (hp : parseReply a bits = some (word0, status)) : s.replySlot a (some bits) = s.replyGood a word0 status := by
  unfold State.replySlot
  rw [if_neg (by rw [hdue]; decide)]
  dsimp only [Option.bind]
  rw [hp]

theorem State.replySlot_missing (a : Nat) (bits : Option Nat) (hdue : s.replyDue a = true)
    (hp : bits.bind (parseReply a) = none) : s.replySlot a bits = s.replyMissing a := by
  unfold State.replySlot
  rw [if_neg (by rw [hdue]; decide), hp]

/-- A good reply of a node in service. -/
theorem State.replyGood_served (a word0 status : Nat) (h : (s.node a).inService = true) (u : State)
    (hu : u = s.setNode a (fun n => goodNode n word0 status (s.powerSignal a word0))) :
    s.replyGood a word0 status = if !bitAt status 0 then u.nodeLeave a 1 else if bitAt status 1 then u.nodeLeave a 2 else u := by
  have hn : (u.node a).inService = true := by rw [hu, State.node_setNode, if_pos rfl]; exact h
  subst hu
  exact if_pos hn

/-- A good reply of a node that is not in service. -/
theorem State.replyGood_unserved (a word0 status : Nat) (h : (s.node a).inService = false) (u : State)
    (hu : u = s.setNode a (fun n => goodNode n word0 status (s.powerSignal a word0))) :
    s.replyGood a word0 status =
      if bitAt status 0 && !bitAt status 1 && (s.node a).enabled && !(s.node a).differs then u.nodeEnter a else u := by
  have hn : u.node a = goodNode (s.node a) word0 status (s.powerSignal a word0) := by
    rw [hu, State.node_setNode, if_pos rfl]
  have hin : (u.node a).inService = false := by rw [hn]; exact h
  have henter : s.replyGood a word0 status = u.nodeMayEnter a := by
    subst hu
    exact if_neg (Bool.eq_false_iff.mp hin)
  rw [henter]
  unfold State.nodeMayEnter
  rw [hn]
  unfold goodNode
  dsimp only
  rw [h]
  rfl

theorem State.nodeLeave_keepsEntries (a r : Nat) : KeepsEntries logCounters s (s.nodeLeave a r) := by
  unfold State.nodeLeave
  extract_lets s1 gw s2
  have h2 : KeepsEntries logCounters s s2 := .of_od rfl
  exact .ite ((h2.trans (s2.logEvent_keepsEntries ..)).trans (.of_od (State.raise_touches ..).od)) (.refl ..)

/-- What a missing reply leaves of its node: the third in a row takes it out of service. -/
def missedNode (n : Node) : Node :=
  { n with
    missRun := n.missRun + 1
    inService := n.inService && decide (n.missRun ≠ 2)
    left := n.left || (n.inService && decide (n.missRun = 2)) }

theorem missedNode_stays {n : Node} (h : ¬ (n.inService = true ∧ n.missRun = 2)) :
    missedNode n = { n with missRun := n.missRun + 1 } := by
  unfold missedNode
  cases hs : n.inService with
  | false => simp
  | true => simp [hs] at h; simp [h]

theorem missedNode_leaves {n : Node} (hs : n.inService = true) (h : n.missRun = 2) :
    missedNode n = { n with missRun := n.missRun + 1, inService := false, left := true } := by
  unfold missedNode
  rw [hs, h]
  simp

/-- A missing reply: the node's run of them, their counter, and the third in a row. -/
theorem State.replyMissing_misses (a : Nat) (ha : a < 24) :
    NodeBecomes s (s.replyMissing a) a (missedNode (s.node a)) ∧
    (s.replyMissing a).odv (0x1340 + a) 6 = min (s.odv (0x1340 + a) 6 + 1) u32Max := by
  unfold State.replyMissing
  extract_lets s1 s2 gw s3
  have hnode (b : Nat) : s3.node b = if b = a then { s.node a with missRun := (s.node a).missRun + 1 } else s.node b := by
    have h2 : s3.node b = s1.node b := State.node_of_gw s1 (s1.count_touches (0x1340 + a) 6 1).gw b
    exact h2.trans (s.node_setNode a b _)
  have ht : Touches nodeParts s s3 := ((s.setNode_touches ..).widen.trans (s1.count_touches ..).widen).trans (touch_gw s2 _).widen
  have hcount : s3.odv (0x1340 + a) 6 = min (s.odv (0x1340 + a) 6 + 1) u32Max :=
    (State.count_odv s1 (0x1340 + a) 6 1 (0x1340 + a) 6).trans (if_pos rfl)
  have hrun : (s3.node a).missRun = (s.node a).missRun + 1 := by rw [hnode, if_pos rfl]
  have hin : (s3.node a).inService = (s.node a).inService := by rw [hnode, if_pos rfl]
  have hkey : okey (0x1340 + a) 6 ∉ logCounters := by
    simp only [logCounters, okey, List.mem_cons, List.not_mem_nil, or_false]
    omega
  have stays (h : ¬ ((s.node a).inService = true ∧ (s.node a).missRun = 2)) : NodeBecomes s s3 a (missedNode (s.node a)) :=
    ⟨by rw [hnode, if_pos rfl, missedNode_stays h], fun b hb => (hnode b).trans (if_neg hb), ht⟩
  by_cases h3 : (s3.node a).missRun = 3
  · rw [if_pos h3]
    have h2 : (s.node a).missRun = 2 := by omega
    cases hs : (s.node a).inService with
    | true =>
      have hl := s3.nodeLeave_leaves a 4 (hin.trans hs)
      refine ⟨⟨?_, fun b hb => (hl.others b hb).trans ((hnode b).trans (if_neg hb)), ht.trans hl.touches⟩, ?_⟩
      · rw [hl.node, hnode, if_pos rfl, missedNode_leaves hs h2]
      · exact ((s3.nodeLeave_keepsEntries a 4).odv hkey).trans hcount
    | false =>
      rw [show s3.nodeLeave a 4 = s3 from if_neg (by rw [hin, hs]; exact Bool.false_ne_true)]
      exact ⟨stays (by rw [hs]; simp), hcount⟩
  · rw [if_neg h3]
    exact ⟨stays (by omega), hcount⟩

end Nodes

theorem State.replyDue_lt {s : State} {a : Nat} (h : s.replyDue a = true) : a < 24 := by
  unfold State.replyDue State.present at h
  simp only [Bool.and_eq_true, decide_eq_true_eq] at h
  exact h.1.2.1

/-- Settles O17: a frame boundary drives what it may drive, and a reply changes its node alone. -/
theorem gangwayFrames : Obligations.GangwayFrames := by
  unfold Obligations.GangwayFrames
  refine ⟨fun b s hup => ?_, fun b s hm hr => ?_, fun a bits word0 status s hserv hdue hp u hu => ?_,
    fun a bits s hserv hdue hp => ?_, fun a bits s hserv hdue => ?_⟩
  · obtain ⟨u, h⟩ := State.frameBoundary_boundary { s with out := [] } b hup
    refine ⟨_, rfl, fun hm => h.driving.trans ?_⟩
    unfold State.drives
    rcases hm with hm | hm <;> rw [hm, Bool.and_true]
  · have hup : s.up = true := by unfold State.up; rw [hm]; rfl
    obtain ⟨u, h⟩ := State.frameBoundary_boundary { s with out := [] } b hup
    have hmode : (State.frameBoundary { s with out := [] } b).mode = .standbyCold :=
      h.after.mode.trans (u.judge_standby (h.before.mode.trans hm) ((congrArg Power.restart h.before.power).trans hr))
    have hd : (State.frameBoundary { s with out := [] } b).drives = false := by
      unfold State.drives
      rw [hmode, Bool.and_false]
    exact ⟨_, rfl, hmode, h.driving.trans hd, h.idle hd⟩
  · have hslot := State.replySlot_good { s with out := [] } a bits word0 status hdue hp
    have hexec (v : State) (hv : State.replyGood { s with out := [] } a word0 status = v) :
        exec (.replySlotReceive a (some bits)) s = .next v :=
      congrArg Host.Outcome.next ((if_pos hserv).trans (hslot.trans hv))
    have hn : u.node a = goodNode (s.node a) word0 status (s.powerSignal a word0) := by
      rw [hu, State.node_setNode, if_pos rfl]
      rfl
    have hgw (v : State) (n : Node) (h : NodeBecomes u v a n) :
        v.node a = n ∧ (∀ b, b ≠ a → v.node b = s.node b) ∧ Touches [.gw, .dictionary, .log, .host, .out] s v := by
      have hv := h.after hu
      exact ⟨hv.node, hv.others, (touch_out s []).andThen hv.touches⟩
    have served (hs : (s.node a).inService = true) := State.replyGood_served { s with out := [] } a word0 status hs u hu
    have unserved (hs : (s.node a).inService = false) :=
      State.replyGood_unserved { s with out := [] } a word0 status hs u hu
    extract_lets good
    refine ⟨fun hin hout => hexec u ?_, fun hin hbad => ?_, fun hin hgood hen hdiff => ?_⟩
    · cases hs : (s.node a).inService with
      | true =>
        obtain ⟨h0, h1⟩ := (Bool.and_eq_true ..).mp (hin hs)
        exact (served hs).trans ((if_neg (by rw [h0]; decide)).trans (if_neg (by rw [(Bool.not_eq_true' _).mp h1]; decide)))
      | false =>
        refine (unserved hs).trans (if_neg fun h => ?_)
        simp only [Bool.and_eq_true, Bool.not_eq_true'] at h
        obtain ⟨⟨⟨h0, h1⟩, hen⟩, hdiff⟩ := h
        rcases hout hs with hbad | hen' | hdiff'
        · exact absurd hbad (by simp [good, h0, h1])
        · exact absurd (hen'.symm.trans hen) Bool.false_ne_true
        · exact absurd (hdiff.symm.trans hdiff') Bool.false_ne_true
    · have hu' : (u.node a).inService = true := by rw [hn]; exact hin
      have leaves (r : Nat) := hgw _ _ (u.nodeLeave_leaves a r hu')
      cases h0 : bitAt status 0 with
      | false =>
        refine ⟨_, hexec _ ((served hin).trans (if_pos (by rw [h0]; rfl))), leaves 1⟩
      | true =>
        have h1 : bitAt status 1 = true := by simpa [good, h0] using hbad
        refine ⟨_, hexec _ ((served hin).trans ((if_neg (by rw [h0]; decide)).trans (if_pos h1))), leaves 2⟩
    · refine ⟨_, hexec _ ((unserved hin).trans (if_pos ?_)), hgw _ _ (u.nodeEnter_enters a)⟩
      rw [show (bitAt status 0 && !bitAt status 1) = true from hgood, show (State.node { s with out := [] } a) = s.node a from rfl,
        hen, hdiff]
      rfl
  · have ha := State.replyDue_lt hdue
    obtain ⟨hb, hcount⟩ := State.replyMissing_misses { s with out := [] } a ha
    have hslot := State.replySlot_missing { s with out := [] } a bits hdue hp
    refine ⟨_, congrArg Host.Outcome.next ((if_pos hserv).trans hslot), ?_, hcount, ?_, hb.others,
      (touch_out s []).andThen hb.touches⟩
    · rw [hb.node]; rfl
    · rw [hb.node]; rfl
  · refine congrArg Host.Outcome.next ((if_pos hserv).trans (if_pos ?_))
    rw [show State.replyDue { s with out := [] } a = false from hdue]
    rfl

end Sys2Proof.Machine

/-! ## Node management: an ENABLE can bring its node into service (R380, R382) -/

namespace Sys2Proof.Machine

open Sys2Proof

/-- Node 0 has sent a good reply in this frame, is not enabled, and waits for the answer to an ENABLE. -/
def nodeReady : State :=
  { State.reset with
    mode := .active
    power := { servicesUp := true }
    gw := { mgmtNode := some 0, mgmtOp := ⟨4, 1⟩, nodes := [(0, { fresh := true, lastStatus := 1 })] } }

/-- The frame of a management answer of node 0 with result 0. -/
def enableAnswer : Nat := 342259111003737489765580776

theorem parseMgmt_enableAnswer : parseMgmt enableAnswer = some (0, 0, 0, [0, 0, 0, 0]) := by decide +kernel

/-- The answer enables the node, which enters service at once (R382), and the entry is logged. -/
theorem nodeReady_logs : (nodeReady.mgmtReply 0 (some enableAnswer)).log.next = 2 := by decide +kernel

/-- Refutes O18: its clause on ENABLE allows no change but of the nodes and the outputs, and in `nodeReady` the good answer
brings the node into service, which is logged. -/
theorem not_nodeManagement : ¬ Obligations.NodeManagement := by
  unfold Obligations.NodeManagement
  rintro ⟨-, henable, -⟩
  obtain ⟨t, ht, -, -, -, htouch⟩ := henable 0 enableAnswer 0 1 _ nodeReady rfl rfl rfl parseMgmt_enableAnswer
  have hexec : exec (.managementReplyReceive 0 (some enableAnswer)) nodeReady =
      .next (nodeReady.mgmtReply 0 (some enableAnswer)) := congrArg Host.Outcome.next (if_pos rfl)
  obtain rfl : nodeReady.mgmtReply 0 (some enableAnswer) = t := Host.Outcome.next.inj (hexec.symm.trans ht)
  have hlog : (nodeReady.mgmtReply 0 (some enableAnswer)).log.next = 1 := congrArg Log.next htouch.log
  rw [nodeReady_logs] at hlog
  exact absurd hlog (by decide)

/-! ### SAFE_HOLD -/

/-- Settles O19: a due hold or release is taken at the next boundary, and the limit of the hold closes the gate. -/
theorem safeHold : Obligations.SafeHold := by
  unfold Obligations.SafeHold
  refine ⟨fun h => ⟨?_, ?_, fun s hm hlimit hconflict hrelease hl hlost b => ?_, fun s hm hclose hdue hl hlost b => ?_⟩,
    fun s hm hlimit htime => ?_⟩
  · exact rowDoes_of_execute State.presentStraps (by decide) (fun _ => rfl) (by decide) fun s => execute_hold s _ rfl
  · exact rowDoes_of_execute State.presentStraps (by decide) (fun _ => rfl) (by decide) fun s => execute_hold s _ rfl
  · have hup : s.up = true := by unfold State.up; rw [hm]; rfl
    obtain ⟨u, hb⟩ := State.frameBoundary_boundary { s with out := [] } b hup
    have hhold : u.hold = s.hold := hb.before.2 .hold (by decide)
    have hpower : u.power = s.power := hb.before.power
    have hred : u.red = s.red := hb.before.red
    have hj := u.judge_release (hb.before.mode.trans hm) (by rw [hhold, hlimit]) (by rw [hhold, hconflict])
      (by rw [hhold, hrelease]) (by rw [hpower, hl]) (by rw [hred, hlost])
    rw [← hb.after.mode] at hj
    exact ⟨_, rfl, hj⟩
  · have hup : s.up = true := by unfold State.up; rw [hm]; rfl
    obtain ⟨u, hb⟩ := State.frameBoundary_boundary { s with out := [] } b hup
    have hhold : u.hold = s.hold := hb.before.2 .hold (by decide)
    have hpower : u.power = s.power := hb.before.power
    have hred : u.red = s.red := hb.before.red
    have hj := u.judge_hold (hb.before.mode.trans hm) (by rw [hred, hclose]) (by rw [hhold, hdue]) (by rw [hpower, hl])
      (by rw [hred, hlost])
    exact ⟨_, rfl, hb.after.mode.trans hj⟩
  · have hup : s.up = true := by unfold State.up; rw [hm]; rfl
    exact congrArg Host.Outcome.next ((if_pos hup).trans (if_pos ⟨hm, hlimit, htime⟩))

end Sys2Proof.Machine

/-! ## Commands that the sequencer issues (R121, R156 to R169, R191, R226, R246) -/

namespace Sys2Proof.Machine

open Sys2Proof

/-- Without upsets the memories stay as they are. -/
theorem State.upsets_quiet (s : State) : s.upsets quiet.upsets = s := by
  unfold State.upsets quiet
  rfl

section Plain

variable {s u : State} {p : ProgRef} {c : Nat} {r : Machine.Run} {cmd : Blob}

theorem State.plainCommand_issued {op : Nat} (f : State → Nat → Machine.Run → Blob → State)
    (h : s.issue p = (u, some (c, r, cmd))) (ho : cmdOp cmd = op) : s.plainCommand p op f = f u c r cmd := by
  unfold State.plainCommand
  rw [h]
  exact if_neg (fun hne => hne ho)

end Plain

/-- What a SCALAR that is issued does, by its subcode. -/
def State.scalarWork (t : State) (p : ProgRef) (c : Nat) (r : Machine.Run) (cmd : Blob) : State :=
  let d := fld (cmdWord cmd 3) 0 4
  let put := fun (s : State) v => s.goOn p c { r with regs := tabPut 0 r.regs d v } (r.index + 1)
  match cmdSub cmd with
  | 0 => put t (cmdWord cmd 2)
  | 1 => put t ((r.reg d + cmdWord cmd 2) % 2 ^ 32)
  | 2 =>
    let g := t.operand p c r cmd 1 4
    if !g.ok || !g.s.coreRunning c then (g.s.failed p).settled else put g.s g.data
  | _ => put t (min (r.reg d) (cmdWord cmd 2))

theorem exec_scalar_issued {s u : State} {p : ProgRef} {c : Nat} {r : Machine.Run} {cmd : Blob}
    (h : State.issue { s with out := [] } p = (u, some (c, r, cmd))) (ho : cmdOp cmd = 0x05)
    (hw : State.waitsForSeal { s with out := [] } r cmd = false) (hin : r.inBounds cmd = true) :
    exec (.scalar p quiet) s = .next (u.scalarWork p c r cmd) := by
  change execScalar p quiet s = _
  unfold execScalar State.act
  dsimp -zeta only
  rw [State.upsets_quiet, h]
  dsimp only
  rw [if_neg (by rw [ho, hw]; decide), if_neg (by rw [hin]; decide)]
  rfl

theorem index_skipped (taken : Bool) (i k : Nat) : (if taken then i + k else i) = i + if taken then k else 0 := by
  cases taken <;> rfl

/-- Settles O22: each command's own branch of the sequencer. -/
theorem scalarCommands : Obligations.ScalarCommands := by
  unfold Obligations.ScalarCommands
  intro p s u c r cmd h
  refine ⟨fun ho => ?_, fun ho taken ht => ?_, fun ho hw hin => ?_⟩
  · exact congrArg Host.Outcome.next (State.plainCommand_issued _ h ho)
  · refine congrArg Host.Outcome.next ((State.plainCommand_issued _ h ho).trans ?_)
    rw [ht]
    exact congrArg (u.goOn p c r) (index_skipped ..)
  · have hexec := exec_scalar_issued h ho hw hin
    unfold State.scalarWork at hexec
    refine ⟨fun hs => ?_, fun hs => ?_, fun hs => ?_, fun hs g hg hok hrun => ?_⟩
    · rw [hexec, hs]; rfl
    · rw [hexec, hs]; rfl
    · rw [hexec, hs]; rfl
    · rw [hexec, hs]
      dsimp only
      rw [← hg, if_neg (by rw [hok, hrun]; decide)]
      rfl

/-! ### Commands that read, compute and write -/

section Array

variable {s u : State} {p : ProgRef} {c : Nat} {r : Machine.Run} {cmd : Blob}

/-- The beats of a command's write that take a credit. -/
def Work.beats (w : Work) (r : Machine.Run) (p : ProgRef) (cmd : Blob) : Nat :=
  match w.write with
  | some (i, n) => r.beats p cmd i n
  | none => 0

/-- A quiet command that is issued, checked and in bounds waits for a credit or runs. -/
theorem State.runCommand_issued {op : Nat} {extra : Machine.Run → Blob → Bool} {work : TeMode → Machine.Run → Blob → Work}
    (h : s.issue p = (u, some (c, r, cmd))) (ho : cmdOp cmd = op) (hw : s.waitsForSeal r cmd = false)
    (hin : r.inBounds cmd = true) (hheld : cmdOp cmd ≤ 2 → s.held r = false) (hextra : extra r cmd = true) (w : Work)
    (hwork : work (u.teMode p r) r cmd = w) :
    s.runCommand p op quiet extra work =
      if w.beats r p cmd ≠ 0 ∧ s.hbmFull c then s.awaitCredit p r 5 (w.beats r p cmd)
      else u.runIssued p c r cmd quiet w := by
  unfold State.runCommand
  rw [State.upsets_quiet, h]
  dsimp only
  rw [hwork, if_neg, if_neg (by rw [hin, hextra]; decide)]
  · rfl
  · rintro (hne | hseal | ⟨hle, hh⟩)
    · exact hne ho
    · exact Bool.false_ne_true (hw.symm.trans hseal)
    · exact Bool.false_ne_true ((hheld (by omega)).symm.trans hh)

/-- What a command with a write does: it waits for a credit, or it computes, writes and moves on. -/
structure Finishes (s : State) (p : ProgRef) (c : Nat) (r : Machine.Run) (cmd : Blob) (got : State × List Blob × Bool)
    (out : Blob × TeCount) (len : Nat) (t : State) : Prop where
  waits : r.beats p cmd 3 len ≠ 0 → s.hbmFull c = true → t = s.awaitCredit p r 5 (r.beats p cmd 3 len)
  writes : r.beats p cmd 3 len = 0 ∨ s.hbmFull c = false → got.2.2 = true → got.1.coreRunning c = true →
    ∀ x : Got × Machine.Run, x = got.1.result p c r cmd 3 len out.1 → x.1.ok = true → x.1.s.coreRunning c = true →
      t = (((x.1.s.takeBeats p c (r.beats p cmd 3 len) r.counted).teCount p c out.2).goOn p c x.2 (r.index + 1)).settled

theorem State.runCommand_finishes {op : Nat} {extra : Machine.Run → Blob → Bool}
    {work : TeMode → Machine.Run → Blob → Work} (h : s.issue p = (u, some (c, r, cmd))) (ho : cmdOp cmd = op)
    (hw : s.waitsForSeal r cmd = false) (hin : r.inBounds cmd = true) (hheld : cmdOp cmd ≤ 2 → s.held r = false)
    (hextra : extra r cmd = true) (w : Work) (hwork : work (u.teMode p r) r cmd = w) {len : Nat}
    (hwrite : w.write = some (3, len)) (got : State × List Blob × Bool) (hgot : got = u.operands p c r cmd w.reads) :
    Finishes s p c r cmd got (w.compute got.2.1) len (s.runCommand p op quiet extra work) := by
  have hrun := State.runCommand_issued h ho hw hin hheld hextra w hwork
  have hbeats : w.beats r p cmd = r.beats p cmd 3 len := by unfold Work.beats; rw [hwrite]
  rw [hbeats] at hrun
  refine ⟨fun hb hf => hrun.trans (if_pos ⟨hb, hf⟩), fun hb hok hrunning x hx hxok hxrun => ?_⟩
  refine hrun.trans ((if_neg ?_).trans ?_)
  · rintro ⟨hne, hfull⟩
    rcases hb with hb | hb
    · exact hne hb
    · exact Bool.false_ne_true (hb.symm.trans hfull)
  · unfold State.runIssued
    rw [if_neg (show ¬ quiet.residueFail = true by decide), ← hgot]
    dsimp only
    rw [if_neg (by rw [hok, hrunning]; decide), hwrite]
    dsimp only
    unfold State.finishCommand
    rw [← hx]
    exact if_pos (by rw [hxok, hxrun]; rfl)

/-- A command without a write reads, computes and moves on. -/
theorem State.runCommand_reads {op : Nat} {extra : Machine.Run → Blob → Bool}
    {work : TeMode → Machine.Run → Blob → Work} (h : s.issue p = (u, some (c, r, cmd))) (ho : cmdOp cmd = op)
    (hw : s.waitsForSeal r cmd = false) (hin : r.inBounds cmd = true) (hheld : cmdOp cmd ≤ 2 → s.held r = false)
    (hextra : extra r cmd = true) (w : Work) (hwork : work (u.teMode p r) r cmd = w) (hwrite : w.write = none)
    (got : State × List Blob × Bool) (hgot : got = u.operands p c r cmd w.reads) (hok : got.2.2 = true)
    (hrun : got.1.coreRunning c = true) :
    s.runCommand p op quiet extra work = (got.1.teCount p c (w.compute got.2.1).2).goOn p c r (r.index + 1) := by
  have hbeats : w.beats r p cmd = 0 := by unfold Work.beats; rw [hwrite]
  rw [State.runCommand_issued h ho hw hin hheld hextra w hwork, hbeats, if_neg (fun h => h.1 rfl)]
  unfold State.runIssued
  rw [if_neg (show ¬ quiet.residueFail = true by decide), ← hgot]
  dsimp only
  rw [if_neg (by rw [hok, hrun]; decide), hwrite]

end Array

/-- A byte of a list of single bytes is the one at its place. -/
theorem bytesAt_convertRows_int8 (m : TeMode) (rows cols e : Nat) (a : Nat → Acc72) (he : e < rows * cols) :
    bytesAt (convertRows m 5 0 rows cols a).1 e 1 = (convertOne m 5 0 e (a e)).1 % 256 := by
  unfold convertRows
  rw [if_neg (by decide)]
  have hl : e < ((upTo (rows * cols)).map (fun e => (convertOne m 5 0 e (a e)).1)).length := by
    rw [List.length_map]
    exact Nat.lt_of_lt_of_le he (Nat.le_of_eq (List.length_range ..).symm)
  have hb := bytesAt_pack_one _ e hl
  rw [List.map_map] at hb
  dsimp only
  rw [List.map_map]
  refine hb.trans ?_
  rw [List.getElem_map]
  simp [upTo]

/-- An element of an INT8 product is the sum of its products, saturated to INT8 (R115, R120, R126). -/
theorem matmul_int8 (m : TeMode) (sacc k h w i j : Nat) (a b : Blob) (hm : m.stochastic = false) (hk : k < 2 ^ 32)
    (hi : i < h) (hj : j < w) :
    signed 8 (bytesAt (matmul m 5 5 5 sacc 0 k h w a b none).1 (i * w + j) 1) =
      clampI ((upTo k).map (fun l =>
        signed 8 (bytesAt a (i * k + l) 1) * signed 8 (bytesAt b (j * k + l) 1))).sum (-128) 127 := by
  have he : i * w + j < h * w := by
    calc i * w + j < i * w + w := by omega
      _ = (i + 1) * w := (Nat.succ_mul i w).symm
      _ ≤ h * w := Nat.mul_le_mul_right w hi
  have hdiv : (i * w + j) / w = i := by
    rw [Nat.mul_comm, Nat.mul_add_div (by omega), Nat.div_eq_of_lt hj, Nat.add_zero]
  have hmod : (i * w + j) % w = j := by rw [Nat.mul_comm, Nat.mul_add_mod, Nat.mod_eq_of_lt hj]
  unfold matmul
  dsimp only
  rw [bytesAt_convertRows_int8 _ _ _ _ _ he, hdiv, hmod, Option.map_none, matCell_int8 _ _ _ _ _ _ _ hk,
    convertOne_int8, toInt_of, signed_unsigned _ (clamp_range _)]
  have hrm : m.rm (i * w + j) = none := by unfold TeMode.rm; rw [hm]; rfl
  rw [hrm, show (1 / 2 ^ 0 : Rat) = 1 by decide +kernel, Rat.mul_one, roundVal_int]

/-- The work of COPY: one operand, written as it is read. -/
def copyWork (_ : TeMode) (r : Machine.Run) (cmd : Blob) : Work :=
  { reads := [(1, countOf r.reg (cmdWord cmd 5))], write := some (3, countOf r.reg (cmdWord cmd 5))
    compute := fun d => (d.getD 0 0, {}) }

/-- The work of VECTOR: up to three operands, and one output. -/
def vectorWork (m : TeMode) (r : Machine.Run) (cmd : Blob) : Work :=
  let n := countOf r.reg (cmdWord cmd 5)
  let len := countOf r.reg (cmdWord cmd 6)
  let v := vecUses (cmdSub cmd)
  { reads := [(1, rowBytes (cmdFa cmd) n), (2, if v.2.1 then rowBytes (cmdFb cmd) n else 0),
              (4, if v.2.2 then rowBytes (cmdFo cmd) n else 0)]
    write := some (3, rowBytes (cmdFo cmd) (vecOut (cmdSub cmd) n len))
    compute := fun d => vector m (cmdSub cmd) (cmdFa cmd) (cmdFb cmd) (cmdFo cmd) (cmdParam cmd 5) n len (d.getD 0 0)
      (d.getD 1 0) (d.getD 2 0) }

/-- The work of MATMUL: its operands, and one output where it has rows and columns. -/
def matmulWork (m : TeMode) (r : Machine.Run) (cmd : Blob) : Work :=
  let k := countOf r.reg (cmdWord cmd 5)
  let rows := countOf r.reg (cmdWord cmd 6)
  let cols := countOf r.reg (cmdWord cmd 7)
  { reads := ((usesAt cmd r.reg).filter (fun u => !u.write)).map (fun u => (u.word, u.len))
    write := if rows = 0 ∨ cols = 0 then none else some (3, rows * rowBytes (cmdFo cmd) cols)
    compute := fun d => if rows = 0 ∨ cols = 0 then (0, {}) else
      matmul m (cmdFa cmd) (cmdFb cmd) (cmdFo cmd) (cmdParam cmd 5) (cmdParam cmd 6) k rows cols (d.getD 0 0) (d.getD 1 0)
        (if cmdFlag cmd then d[2]? else none) }

theorem exec_copy (p : ProgRef) (fx : ExecFx) (s : State) :
    exec (.copy p fx) s = .next (State.runCommand { s with out := [] } p 0x03 fx (fun _ _ => true) copyWork) := rfl

theorem exec_vector (p : ProgRef) (fx : ExecFx) (s : State) :
    exec (.vector p fx) s = .next (State.runCommand { s with out := [] } p 0x02 fx (fun _ _ => true) vectorWork) := rfl

/-- A B4 product needs rows of whole groups (R117). -/
def matmulExtra (r : Machine.Run) (cmd : Blob) : Bool :=
  !decide (cmdFa cmd = 6) || decide (countOf r.reg (cmdWord cmd 5) % 16 = 0)

theorem exec_matmul (p : ProgRef) (fx : ExecFx) (s : State) :
    exec (.matmul p fx) s = .next (State.runCommand { s with out := [] } p 0x01 fx matmulExtra matmulWork) := rfl

theorem matmulExtra_of {r : Machine.Run} {cmd : Blob} (h : cmdFa cmd ≠ 6 ∨ countOf r.reg (cmdWord cmd 5) % 16 = 0) :
    matmulExtra r cmd = true := by
  unfold matmulExtra
  rcases h with h | h <;> simp [h]

/-- Settles O23: each row is `runCommand` with the reads, the write and the arithmetic of its command. -/
theorem arrayCommands : Obligations.ArrayCommands := by
  unfold Obligations.ArrayCommands
  refine ⟨fun p s u c r cmd h hw hin hheld => ?_, fun m sacc k h w i j a b hm hk hi hj =>
    matmul_int8 m sacc k h w i j a b hm hk hi hj⟩
  extract_lets rows cols n finish
  have finishes {i : Instr} {t : State} {got : State × List Blob × Bool} {out : Blob × TeCount} {len : Nat}
      (hexec : exec i s = .next t) (hf : Finishes { s with out := [] } p c r cmd got out len t) : finish got out len i :=
    ⟨fun hb hfull => hexec.trans (congrArg _ (hf.waits hb hfull)), fun hb hok hrun x hx hxok hxrun =>
      hexec.trans (congrArg _ (hf.writes hb hok hrun x hx hxok hxrun))⟩
  refine ⟨fun ho got hgot => ?_, fun ho v hv got hgot => ?_, fun ho hrows hcols hb4 got hgot => ?_,
    fun ho hnone hb4 got hgot hok hrun => ?_⟩
  · exact finishes (exec_copy p quiet s)
      (State.runCommand_finishes h ho hw hin hheld rfl (copyWork (u.teMode p r) r cmd) rfl rfl got hgot)
  · subst hv
    exact finishes (exec_vector p quiet s)
      (State.runCommand_finishes h ho hw hin hheld rfl (vectorWork (u.teMode p r) r cmd) rfl rfl got hgot)
  · have hsome : ¬ (rows = 0 ∨ cols = 0) := fun h => h.elim hrows hcols
    have hf := State.runCommand_finishes h ho hw hin hheld (matmulExtra_of hb4) (matmulWork (u.teMode p r) r cmd) rfl
      (if_neg hsome) got hgot
    rw [show (matmulWork (u.teMode p r) r cmd).compute got.2.1 = _ from if_neg hsome] at hf
    exact finishes (exec_matmul p quiet s) hf
  · have hr := State.runCommand_reads h ho hw hin hheld (matmulExtra_of hb4) (matmulWork (u.teMode p r) r cmd) rfl
      (if_pos hnone) got hgot hok hrun
    rw [show (matmulWork (u.teMode p r) r cmd).compute got.2.1 = _ from if_pos hnone] at hr
    exact (exec_matmul p quiet s).trans (congrArg _ hr)

end Sys2Proof.Machine

/-! ## GATHER, the ordering commands, EMIT and END (R156 to R169, R188, R191, R226 to R229, R246) -/

namespace Sys2Proof.Machine

open Sys2Proof

section Gather

variable {s u : State} {p : ProgRef} {c : Nat} {r : Machine.Run} {cmd : Blob}

theorem exec_gather_issued (h : State.issue { s with out := [] } p = (u, some (c, r, cmd))) (ho : cmdOp cmd = 0x04)
    (hw : State.waitsForSeal { s with out := [] } r cmd = false) (hin : r.inBounds cmd = true)
    (hf : State.hbmFull { s with out := [] } c = false) : exec (.gather p quiet) s = .next (u.gather p c r cmd) := by
  change execGather p quiet s = _
  unfold execGather State.act
  dsimp -zeta only
  rw [State.upsets_quiet, h]
  dsimp only
  rw [if_neg (by rw [ho, hw]; decide), if_neg (by rw [hin]; decide), if_neg (by rw [hf]; simp)]

/-- Rows of some length are read one by one. -/
theorem State.rows_of_nonzero (s : State) (p : ProgRef) (c : Nat) (r : Machine.Run) (kind base : Nat) {row : Nat}
    (idx : List Nat) (h : row ≠ 0) : s.rows p c r kind base row idx =
      idx.foldl (fun (a : State × List Blob × Bool) i =>
        let g : Got := a.1.readArea p c r kind (base + i * row) row
        (g.s, a.2.1 ++ [g.data], a.2.2 && g.ok)) (s, [], true) := by
  unfold State.rows
  simp only [if_neg h]

end Gather

/-- Settles O24: the index that is out of the table ends the command before a row is read. -/
theorem gatherCommand : Obligations.GatherCommand := by
  unfold Obligations.GatherCommand
  intro p s u c r cmd b h ho hw hin hf hb
  extract_lets n row
  intro ix hix hok hrun hrow
  extract_lets idx
  have hexec := exec_gather_issued h ho hw hin hf
  unfold State.gather at hexec
  dsimp only at hexec
  rw [← hix, if_neg (by rw [hok, hrun]; decide), hb] at hexec
  dsimp only at hexec
  refine ⟨fun ⟨i, hi, hle⟩ => ?_, fun hall got hgot hgok hgrun x hx hxok hxrun => ?_⟩
  · rw [hexec, if_pos ⟨hrow, List.any_eq_true.mpr ⟨i, hi, decide_eq_true hle⟩⟩]
  · have hno : ¬ (row ≠ 0 ∧ idx.any (fun i => decide (r.tableLen cmd / row ≤ i)) = true) := by
      rintro ⟨-, hany⟩
      obtain ⟨i, hi, hle⟩ := List.any_eq_true.mp hany
      exact absurd (hall i hi) (Nat.not_lt.mpr (of_decide_eq_true hle))
    rw [hexec, if_neg hno, State.rows_of_nonzero _ _ _ _ _ _ _ hrow, ← hgot, if_neg (by rw [hgok, hgrun]; decide)]
    unfold State.finishCommand
    rw [← hx]
    exact congrArg _ (if_pos (by rw [hxok, hxrun]; rfl))

/-- Settles O25: each command's own branch of the sequencer. -/
theorem orderingCommands : Obligations.OrderingCommands := by
  unfold Obligations.OrderingCommands
  refine ⟨fun p s u c r cmd h => ⟨fun ho msg t hmsg ht => ?_, fun ho => ?_, fun ho => ⟨fun hp => ?_, fun ht hw => ?_⟩⟩,
    fun p ident q s hq => ⟨fun hne => ?_, fun heq mark hmark => ?_⟩⟩
  · subst hmsg ht
    exact congrArg Host.Outcome.next (State.plainCommand_issued _ h ho)
  · exact congrArg Host.Outcome.next (State.plainCommand_issued _ h ho)
  · refine congrArg Host.Outcome.next ((State.plainCommand_issued _ h ho).trans (if_pos ?_))
    rcases hp with hp | hp <;> simp [hp]
  · exact congrArg Host.Outcome.next ((State.plainCommand_issued _ h ho).trans (if_neg (by simp [ht, hw])))
  · refine congrArg Host.Outcome.next ?_
    dsimp only
    rw [hq]
    exact if_pos hne
  · subst hmark
    refine congrArg Host.Outcome.next ?_
    dsimp only
    rw [hq]
    exact if_neg (fun hne => hne heq)

/-! ### The store and END -/

/-- A result store that lists stream 0 twice: not the canonical form of a table, which the statement does not ask for. -/
def storeTwice (r : Result) : State := { State.reset with te := { store := [(0, r), (0, r)] } }

/-- Refutes O26: its clause on `storeResult` speaks of every state, and of a store that lists the stream twice (`storeTwice`)
the discard before the store takes both entries, where the statement's insertion replaces one. -/
theorem not_emitAndAccept : ¬ Obligations.EmitAndAccept := by
  unfold Obligations.EmitAndAccept
  rintro ⟨-, -, hstore, -⟩
  obtain ⟨h, -⟩ := hstore 0 (resultOf 0 0 0 0 0 false) (storeTwice (resultOf 0 0 0 0 0 false))
  have hlen : ((storeTwice (resultOf 0 0 0 0 0 false)).storeResult 0 (resultOf 0 0 0 0 0 false)).te.store.length = 1 := rfl
  rw [h] at hlen
  exact absurd hlen (by decide)

theorem State.stream_setStream (s : State) (n m : Nat) (f : Stream → Stream) :
    (s.setStream n f).stream m = if m = n then f (s.stream n) else s.stream m := tabGet_tabMod ..

theorem State.core_setCore (s : State) (c d : Nat) (f : Core → Core) :
    (s.setCore c f).core d = if d = c then f (s.core c) else s.core d := tabGet_tabMod ..

/-- A program issues on its core. -/
theorem State.issue_core {s u : State} {p : ProgRef} {c : Nat} {r : Machine.Run} {cmd : Blob}
    (h : s.issue p = (u, some (c, r, cmd))) : s.progCore p = some c := by
  unfold State.issue at h
  split at h
  next c' r' hc hr =>
    split at h
    · dsimp only at h
      split at h
      · simp only [Prod.mk.injEq, Option.some.injEq] at h
        rw [hc, h.2.1]
      · simp at h
    · simp at h
  · simp at h

/-- The end of a stream's run: the run ends, and the other streams stay. -/
theorem State.endStream_ends (s : State) (n : Nat) : ((s.endStream n).stream n).run = none ∧
    (∀ m, m ≠ n → (s.endStream n).stream m = s.stream m) ∧ Touches [.te] s (s.endStream n) := by
  have hstream (m : Nat) : (s.endStream n).stream m = if m = n then { s.stream n with run := none } else s.stream m := by
    have hset : (s.setStream n (fun t => { t with run := none })).stream m =
        if m = n then { s.stream n with run := none } else s.stream m := s.stream_setStream ..
    unfold State.endStream
    split
    · extract_lets s1
      split
      · exact hset
      · exact hset
    · exact hset
  refine ⟨by rw [hstream, if_pos rfl], fun m hm => by rw [hstream, if_neg hm], ?_⟩
  unfold State.endStream
  split
  · exact .ite (s.setStream_touches ..) ((s.setStream_touches ..).trans (State.setCore_touches ..))
  · exact s.setStream_touches ..

/-- Settles O27: each kind of program ends in its own way. -/
theorem programEnds : Obligations.ProgramEnds := by
  unfold Obligations.ProgramEnds
  refine ⟨fun s u c r cmd cycles ho => ⟨fun n h => ?_, fun d h => ?_, fun d h => ?_⟩, fun n s => s.endStream_ends n⟩
  · exact congrArg Host.Outcome.next (State.plainCommand_issued _ h ho)
  · obtain rfl : d = c := Option.some.inj (State.issue_core h)
    exact congrArg Host.Outcome.next (State.plainCommand_issued _ h ho)
  · obtain rfl : d = c := Option.some.inj (State.issue_core h)
    exact congrArg Host.Outcome.next (State.plainCommand_issued _ h ho)

end Sys2Proof.Machine

/-! ## Cores, fences, loads and other work of the tensor engine (R133 to R146, R181 to R190, R213, R244 to R268) -/

namespace Sys2Proof.Machine

open Sys2Proof

/-! ### Fences -/

section Fences

variable (s : State)

theorem State.keepWords_cores (before : State) (cores : List Nat) : (s.keepWords before cores).te.cores = s.te.cores := by
  unfold State.keepWords
  extract_lets spans now
  split <;> rfl

/-- Programs that leave a core leave the cores' states. -/
theorem State.dropPrograms_cores (c : Nat) : (s.dropPrograms c).te.cores = s.te.cores := by
  unfold State.dropPrograms
  extract_lets before te1 s1 te2 s2 queued te3 s3 s4
  have h1 : s1.te.cores = s.te.cores := by
    unfold s1
    split <;> rfl
  have h2 : s2.te.cores = s1.te.cores := by
    unfold s2
    split <;> rfl
  have h4 : s4.te.cores = s3.te.cores :=
    foldl_keeps (fun u => u.te.cores) (fun (u : State) (x : Nat × Machine.Run) => u.dropRipen c x.2) (fun _ _ => rfl) queued s3
  have h5 := foldl_keeps (fun u => u.te.cores) (fun (u : State) (n : Nat) => u.setStream n (fun t => { t with run := none }))
    (fun _ _ => rfl) (s4.streamsOn c) s4
  exact (State.keepWords_cores ..).trans (h5.trans (h4.trans (h2.trans h1)))

/-- A core that is fenced for a new cause. -/
theorem State.fenceOne_fences (c cause : Nat) (hst : (s.core c).st ≠ 0) (hc : cause ∉ (s.core c).causes) :
    ((s.fenceOne c cause).core c).st = 3 ∧ ((s.fenceOne c cause).core c).causes = (s.core c).causes ++ [cause] ∧
    ((s.fenceOne c cause).core c).newlyFenced = true := by
  have hno : ¬ ((s.core c).st = 0 ∨ cause ∈ (s.core c).causes) := fun h => h.elim hst hc
  have hlog : ((s.fenceOne c cause).core c) = (s.fenceCore c cause).core c := by
    unfold State.fenceOne
    rw [if_neg hno]
    unfold State.core
    rw [show ((s.fenceCore c cause).logFenced c cause).te = (s.fenceCore c cause).te from (State.logEvent_touches ..).te]
  rw [hlog]
  unfold State.fenceCore
  rw [if_neg hno]
  extract_lets s1 te s2
  have hcore : s2.core c = s.core c := congrArg (fun t : Tab Core => tabGet ({} : Core) t c) (s.dropPrograms_cores c)
  rw [State.core_setCore, if_pos rfl, hcore]
  exact ⟨rfl, rfl, rfl⟩

end Fences

/-! ### Fields of packed arguments -/

theorem fld_pack_head (n v : Nat) (l : List (Nat × Nat)) : fld (pack ((n, v) :: l)) 0 n = v % 2 ^ n := by
  unfold fld pack
  rw [Nat.shiftRight_zero, Nat.shiftLeft_eq, Nat.add_mul_mod_self_right, Nat.mod_mod]

theorem fld_pack_tail (n v lo k : Nat) (l : List (Nat × Nat)) : fld (pack ((n, v) :: l)) (n + lo) k = fld (pack l) lo k := by
  have hshift : (v % 2 ^ n + pack l <<< n) >>> n = pack l := by
    rw [Nat.shiftRight_eq_div_pow, Nat.shiftLeft_eq, Nat.add_mul_div_right _ _ (Nat.two_pow_pos n),
      Nat.div_eq_of_lt (Nat.mod_lt _ (Nat.two_pow_pos n)), Nat.zero_add]
  unfold fld
  rw [Nat.shiftRight_add]
  exact congrArg (fun x => (x >>> lo) % 2 ^ k) hshift

theorem fld_fenceArg (who op : Nat) (hwho : who < 256) (hop : op < 4) :
    fld (fenceArg who op) 0 8 = who ∧ fld (fenceArg who op) 8 2 = op := by
  unfold fenceArg
  exact ⟨(fld_pack_head ..).trans (Nat.mod_eq_of_lt hwho),
    (fld_pack_tail 8 who 0 2 _).trans ((fld_pack_head ..).trans (Nat.mod_eq_of_lt hop))⟩

/-- A command on the fences, by its operation. -/
theorem State.fenceCommand_arg (s : State) (who : Nat) (h : who < 256) :
    s.fenceCommand (fenceArg who 0) = s.fenceOne who 5 ∧
    s.fenceCommand (fenceArg who 1) = s.setCore who (fun k => { k with st := 1, causes := [] }) ∧
    s.fenceCommand (fenceArg who 2) = s.fenceCluster who 5 := by
  obtain ⟨w0, o0⟩ := fld_fenceArg who 0 h (by decide)
  obtain ⟨w1, o1⟩ := fld_fenceArg who 1 h (by decide)
  obtain ⟨w2, o2⟩ := fld_fenceArg who 2 h (by decide)
  unfold State.fenceCommand
  rw [o0, o1, o2, w0, w1, w2]
  exact ⟨rfl, rfl, rfl⟩

/-- Settles O28: the rows of the cores, and what a fence leaves of its core. -/
theorem coresAndFences : Obligations.CoresAndFences := by
  unfold Obligations.CoresAndFences
  refine ⟨fun core s hrun => ?_, fun n s hrun hidle => ?_, fun core s hcd hrun => ?_, fun core cause s hst hc =>
    s.fenceOne_fences core cause hst hc, fun h core hlt => ⟨?_, ?_⟩, fun h cluster hlt => ?_, fun core s hup hst => ⟨?_, ?_⟩⟩
  · exact congrArg Host.Outcome.next (if_pos hrun)
  · exact congrArg Host.Outcome.next (if_pos (by rw [hrun, hidle]; rfl))
  · exact congrArg Host.Outcome.next (if_pos ((Bool.and_eq_true ..).mpr ⟨hcd, hrun⟩))
  · refine rowDoes_of_execute State.presentStraps (by decide) (fun _ => rfl) (by decide) fun s =>
      (execute_fence s _ rfl).trans (congrArg (fun f => done 0x3102 0 f s) (funext fun s => ?_))
    exact congrArg State.settled (s.fenceCommand_arg core hlt).1
  · refine rowDoes_of_execute State.presentStraps (by decide) (fun _ => rfl) (by decide) fun s =>
      (execute_fence s _ rfl).trans (congrArg (fun f => done 0x3102 0 f s) (funext fun s => ?_))
    exact congrArg State.settled (s.fenceCommand_arg core hlt).2.1
  · refine rowDoes_of_execute State.presentStraps (by decide) (fun _ => rfl) (by decide) fun s =>
      (execute_fence s _ rfl).trans (congrArg (fun f => done 0x3102 0 f s) (funext fun s => ?_))
    exact congrArg State.settled (s.fenceCommand_arg cluster hlt).2.2
  · exact congrArg Host.Outcome.next ((if_pos hup).trans (congrArg State.settled (if_neg (fun hne => hne hst))))
  · exact congrArg Host.Outcome.next ((if_pos hup).trans (congrArg State.settled (if_neg (fun hne => hne hst))))

end Sys2Proof.Machine

/-! ## The mooring lease: renewals, claims, losses and the switch-over (R504 to R512, R520, R524, R525) -/

namespace Sys2Proof.Machine

open Sys2Proof

/-! ### Outputs that are not taken back -/

/-- What stands in the outputs of `s` stands in those of `t`. -/
def Sends (s t : State) : Prop := s.out ⊆ t.out

section Sends

variable (s : State)

theorem Sends.trans {s t u : State} (h : Sends s t) (k : Sends t u) : Sends s u := List.Subset.trans h k

theorem Sends.of_out {s t : State} (h : t.out = s.out) : Sends s t := fun _ ho => h.symm ▸ ho

theorem Sends.of_touches {ps : List Part} {s t : State} (h : Touches ps s t) (hp : Part.out ∉ ps := by decide) : Sends s t :=
  .of_out (h.2 .out hp)

theorem Sends.ite {c : Prop} [Decidable c] {s a b : State} (ha : Sends s a) (hb : Sends s b) : Sends s (if c then a else b) := by
  split
  · exact ha
  · exact hb

theorem State.emit_sends (o : Output) : Sends s (s.emit o) := .ite (.of_out rfl) (List.subset_append_left ..)

theorem State.emit_out (o : Output) (h : s.power.mateHigh = false) : o ∈ (s.emit o).out := by
  unfold State.emit
  rw [if_neg (by rw [h]; exact Bool.false_ne_true)]
  exact List.mem_append_right _ (List.mem_singleton_self o)

theorem State.sendVector_sends (v : Nat) : Sends s (s.sendVector v) := .ite (.of_out rfl) (s.emit_sends _)

theorem State.raise_sends (c : Nat) : Sends s (s.raise c) :=
  .ite (.trans (.of_touches (touch_host ..)) (State.sendVector_sends ..)) (.of_touches (touch_host ..))

theorem State.logForce_sends (e p : Nat) : Sends s (s.logForce e p) := by
  unfold State.logForce
  extract_lets l entry cursor reached lost s1 s2 hp s3 s4
  have h1 : Sends s s1 := .of_touches (touch_log ..)
  have h2 : Sends s s2 := h1.trans (.of_touches (ps := [.dictionary]) (.ite (s1.count_touches ..) (.refl ..)))
  have h3 : Sends s s3 := h2.trans (.of_touches (ps := [.host]) (.ite (touch_host ..) (.refl ..)))
  have h4 : Sends s s4 := h3.trans (.ite (s3.raise_sends _) (.of_out rfl))
  exact h4.trans (.ite (s4.raise_sends _) (.of_out rfl))

theorem State.logEvent_sends (e p : Nat) : Sends s (s.logEvent e p) :=
  .ite (s.logForce_sends ..) (.of_touches (s.count_touches ..))

theorem State.redLog_sends (e p : Nat) : Sends s (s.redLog e p) := (s.logEvent_sends ..).trans (State.raise_sends ..)

end Sends

/-! ### Frames of the peer lane -/

section Peer

variable (s : State) (l typ payload : Nat)

/-- Only a frame of budgets is counted where it replaces one that waits. -/
theorem State.peerSend_touches (h : typ ≠ 0x30) : Touches [.ferry, .out] s (s.peerSend l typ payload) := by
  unfold State.peerSend
  split
  · exact .refl ..
  · extract_lets n dup s1 q
    have h1 : s1 = s := if_neg fun hc => h hc.2
    rw [h1]
    exact (touch_ferry ..).andThen (State.emit_touches ..)

theorem State.peerSend_sends (h : typ ≠ 0x30) : Sends s (s.peerSend l typ payload) := by
  unfold State.peerSend
  split
  · exact .of_out rfl
  · extract_lets n dup s1 q
    have h1 : s1 = s := if_neg fun hc => h hc.2
    rw [h1]
    exact .trans (.of_touches (touch_ferry ..)) (State.emit_sends ..)

/-- On a peer link that is up the frame goes out where the connectors are mated. -/
theorem State.peerSend_out (h : typ ≠ 0x30) (hup : s.linkIsUp l = true) (hpeer : s.peerLink l = true)
    (hm : s.power.mateHigh = false) : .peer l typ (4 * unitsOf typ) payload ∈ (s.peerSend l typ payload).out := by
  unfold State.peerSend
  rw [if_neg (by simp [hup, hpeer])]
  extract_lets n dup s1 q
  have h1 : s1 = s := if_neg fun hc => h hc.2
  rw [h1]
  exact State.emit_out _ _ hm

end Peer

/-! ### Path flags and renewals -/

/-- Of the red part a change leaves all but the path flags. -/
structure FlagsPaths (s t : State) : Prop where
  touches : Touches (.red :: logParts) s t
  red : t.red = { s.red with lineFault := t.red.lineFault, laneFault := t.red.laneFault }
  sends : Sends s t

section Renewals

variable (s : State)

theorem FlagsPaths.refl : FlagsPaths s s := ⟨.refl .., rfl, .of_out rfl⟩

theorem FlagsPaths.trans {s t u : State} (h : FlagsPaths s t) (k : FlagsPaths t u) : FlagsPaths s u :=
  ⟨h.touches.trans k.touches, by rw [k.red, h.red], h.sends.trans k.sends⟩

theorem FlagsPaths.ite {c : Prop} [Decidable c] {s a b : State} (ha : FlagsPaths s a) (hb : FlagsPaths s b) :
    FlagsPaths s (if c then a else b) := by
  split
  · exact ha
  · exact hb

theorem State.pathFlag_flags (lane on : Bool) : FlagsPaths s (s.pathFlag lane on) := by
  unfold State.pathFlag
  extract_lets was s1
  have h1 : FlagsPaths s s1 := by cases lane <;> exact ⟨(touch_red ..).widen, rfl, .of_out rfl⟩
  have h2 := s1.redLog_touches 0x8104 (packBytes [(1, b2n lane), (1, b2n on)])
  exact .ite h1 (h1.trans ⟨h2.widen, by rw [h2.red], s1.redLog_sends ..⟩)

theorem State.pathsGood_flags : FlagsPaths s s.pathsGood :=
  .ite ((s.pathFlag_flags ..).trans (State.pathFlag_flags ..)) (.refl s)

theorem State.samplePeer_touches : Touches [.power, .free] s s.samplePeer :=
  (s.draw_touches).andThen (touch_power ..)

theorem State.fileLate_touches : Touches [.red] s s.fileLate := by
  unfold State.fileLate
  split
  · exact .ite (touch_red ..) (.refl ..)
  · exact .refl ..

/-- Filing late integrators leaves the lease as it is. -/
theorem State.fileLate_red :
    s.fileLate.red = { s.red with latched := s.fileLate.red.latched, ring := s.fileLate.red.ring } := by
  unfold State.fileLate
  split
  · split <;> rfl
  · rfl

theorem State.renew_touches : Touches [.red, .ferry, .out] s s.renew :=
  ((touch_red ..).andThen (rs := [.red, .ferry, .out]) (State.emit_touches ..)).trans
    (State.peerSend_touches _ _ _ _ (by decide)).widen

/-- A renewal is sent under the next number, and the lease timer starts anew. -/
theorem State.renew_red : s.renew.red.sentNo = nextSeq s.red.sentNo ∧ s.renew.red.timer = true ∧ s.renew.red.renewedAt = s.intake ∧
    s.renew.red.unacked = s.red.unacked + 1 ∧ s.renew.red.held = s.red.held ∧ s.renew.red.armed = s.red.armed ∧
    s.renew.red.claimFrame = s.red.claimFrame ∧ s.renew.red.step = s.red.step ∧ s.renew.red.handover = s.red.handover := by
  unfold State.renew
  extract_lets n s1
  have h := ((s1.emit_touches .leasePulse).andThen (rs := [.ferry, .out])
    (State.peerSend_touches _ 48 0x40 (s1.renewPayload n) (by decide))).red
  rw [h]
  exact ⟨rfl, rfl, rfl, rfl, rfl, rfl, rfl, rfl, rfl⟩

/-- With the connectors mated a renewal's pulse goes out, and on the peer lane its LEASE_RENEW. -/
theorem State.renew_out (hm : s.power.mateHigh = false) : .leasePulse ∈ s.renew.out ∧
    (s.linkIsUp 48 = true → s.peerLink 48 = true →
      .peer 48 0x40 16 (s.renewPayload (nextSeq s.red.sentNo)) ∈ s.renew.out) := by
  unfold State.renew
  extract_lets n s1
  have h1 : s1.power.mateHigh = false := hm
  have h := s1.emit_touches .leasePulse
  refine ⟨State.peerSend_sends _ _ _ _ (by decide) (s1.emit_out _ h1), fun hup hpeer => ?_⟩
  refine State.peerSend_out _ _ _ _ (by decide) ?_ ?_ ?_
  · unfold State.linkIsUp State.link at hup ⊢
    rw [h.ferry]
    exact hup
  · unfold State.peerLink State.linkMode
    rfl
  · rw [h.power]; exact h1

end Renewals

end Sys2Proof.Machine

namespace Sys2Proof.Machine

open Sys2Proof

section Losses

variable (s : State)

/-- A conflict: the gate closes and the lease is not held; a module in SAFE_HOLD marks the conflict there, any other the
lease as lost. -/
theorem State.conflict_yields (path : Nat) :
    (s.conflict path).mode = s.mode ∧ (s.conflict path).power.gate = false ∧ (s.conflict path).gw.driving = false ∧
    (s.conflict path).red = { s.red with held := false, armed := false, yielded := true, switching := false, closeDue := false,
                                         lost := if s.mode = .safeHold then s.red.lost else true } ∧
    (s.mode = .safeHold → (s.conflict path).hold.conflict = true) := by
  unfold State.conflict
  extract_lets s1 s2 s3
  have h : Touches logParts s.closeGate s2 :=
    ((State.redLog_touches ..).trans (State.count_touches ..).widen).trans (s1.redLog_touches ..)
  have hmode : s2.mode = s.mode := h.mode
  have hp : s2.power.gate = false := congrArg Power.gate h.power
  have hg : s2.gw.driving = false := by rw [h.gw]; rfl
  have hred : s2.red = s.red := h.red
  have hm3 : s3.mode = s.mode := hmode
  have hr3 : s3.red = { s.red with held := false, armed := false, yielded := true, switching := false, closeDue := false } := by
    unfold s3 State.setRed
    rw [hred]
  by_cases hh : s.mode = .safeHold
  · rw [if_pos (hm3.trans hh), if_pos hh]
    exact ⟨hmode, hp, hg, hr3, fun _ => rfl⟩
  · rw [if_neg (fun hc => hh (hm3.symm.trans hc)), if_neg hh]
    refine ⟨hmode, hp, hg, ?_, fun hc => absurd hc hh⟩
    unfold State.setRed
    rw [hr3]

/-- A lease that is lost: the gate closes, the lease is not held, and STANDBY_COLD is due. -/
theorem State.leaseLost_loses (cause : Nat) :
    (s.leaseLost cause).mode = s.mode ∧ (s.leaseLost cause).frame = s.frame ∧ (s.leaseLost cause).power.gate = false ∧
    (s.leaseLost cause).gw.driving = false ∧
    (s.leaseLost cause).red = { s.red with
      held := false, armed := false, timer := false
      lost := decide (s.mode = .takeover ∨ s.mode = .active ∨ s.mode = .degraded) } := by
  unfold State.leaseLost
  extract_lets s1
  have h : Touches logParts s.closeGate s1 := State.redLog_touches ..
  refine ⟨h.mode, h.frame, congrArg Power.gate h.power, by unfold State.setRed; rw [h.gw]; rfl, ?_⟩
  unfold State.setRed
  rw [h.red, h.mode]
  rfl

/-- A renewal that goes out, with fewer than three unanswered before it. -/
theorem State.renewSend_renews (hh : s.red.held = true) (ha : s.red.armed = true) (hg : s.power.gate = true)
    (hc : s.red.claimFrame < s.frame) (hf : (s.frame - s.red.claimFrame) % 12500 = 0) (hu : s.red.unacked < 3) :
    s.renewSend = s.samplePeer.renew := by
  unfold State.renewSend
  rw [if_pos (by simp [hh, ha, hg, hc, hf])]
  extract_lets s1 s2
  have h1 : s1.red.unacked = s.red.unacked := by rw [s.samplePeer_touches.red]
  exact congrArg State.renew (if_neg fun hcon => by
    have := of_decide_eq_true ((Bool.and_eq_true ..).mp hcon).1
    omega)

/-- A renewal heard by a module that does not hold the lease. -/
structure Heard (s t : State) : Prop where
  touches : Touches [.red] s t
  lastRecv : t.red.lastRecv = some s.intake
  freeSince : t.red.freeSince = s.intake
  handover : t.red.handover = false

theorem State.renewalIn_heard : Heard s s.fileLate.renewalIn where
  touches := s.fileLate_touches.trans (touch_red ..)
  lastRecv := congrArg some s.fileLate_touches.intake
  freeSince := s.fileLate_touches.intake
  handover := rfl

/-- What only the answer due, the latched integrators, the ring and the last number note leaves a renewal heard. -/
theorem Heard.noting {s t : State} (h : Heard s t) (f : Red → Red) (h1 : (f t.red).lastRecv = t.red.lastRecv)
    (h2 : (f t.red).freeSince = t.red.freeSince) (h3 : (f t.red).handover = t.red.handover) : Heard s (t.setRed f) :=
  ⟨h.touches.trans (touch_red ..), h1.trans h.lastRecv, h2.trans h.freeSince, h3.trans h.handover⟩

theorem State.pulseIn_heard (us : Nat) (hh : s.red.held = false) (h1 : 500 ≤ us) (h2 : us ≤ 2000) : Heard s (s.pulseIn us) := by
  unfold State.pulseIn
  rw [if_neg (by omega), if_neg (by rw [hh]; exact Bool.false_ne_true)]
  have h := s.renewalIn_heard
  extract_lets s1 valid
  split
  · exact h
  · split
    · split <;> exact h.noting _ rfl rfl rfl
    · exact h.noting _ rfl rfl rfl

theorem State.renewIn_heard (number : Nat) (hh : s.red.held = false) :
    Heard s (s.renewIn number) ∧ (s.renewIn number).red.recvNo = some number := by
  unfold State.renewIn
  rw [if_neg (by rw [hh]; exact Bool.false_ne_true)]
  have h := s.renewalIn_heard.noting (fun r => { r with recvNo := some number, lastNo := number }) rfl rfl rfl
  extract_lets s1 v a
  split
  · exact ⟨h, rfl⟩
  · exact ⟨h.noting _ rfl rfl rfl, rfl⟩

end Losses

/-- Settles O54: the renewal through what a renewal sends and notes, a holder's conflict through what it gives up, and a
pulse's length through the branches of its reception. -/
theorem leaseRenewals : Obligations.LeaseRenewals := by
  unfold Obligations.LeaseRenewals
  refine ⟨fun s hup hh ha hg hc hf hu => ?_, fun s hup hn => ?_, fun us s hs hus => ?_,
    fun us number st slot cp s hs hh h1 h2 => ⟨?_, ?_⟩, fun us number st slot cp s hs hh h1 h2 => ?_⟩
  · have hsend := State.renewSend_renews { s with out := [] } hh ha hg hc hf hu
    have hp := State.samplePeer_touches { s with out := [] }
    generalize hv : State.samplePeer { s with out := [] } = v at hsend hp
    have hpow : v.power = { s.power with peerOk := v.power.peerOk } := hv ▸ rfl
    have hr := v.renew_touches
    obtain ⟨r1, r2, r3, r4, -, -, -, -, -⟩ := v.renew_red
    rw [hp.red] at r1 r4
    rw [hp.intake] at r3
    have hm (h : s.power.mateHigh = false) : v.power.mateHigh = false := by rw [hpow]; exact h
    refine ⟨_, congrArg Host.Outcome.next ((if_pos hup).trans hsend), r1, r2, r3, r4, fun h => (v.renew_out (hm h)).1,
      fun h hl hpl => ?_, ?_, (touch_out s []).andThen (hp.andThen (rs := [.red, .ferry, .power, .free, .out]) hr)⟩
    · have := (v.renew_out (hm h)).2 (by unfold State.linkIsUp State.link at hl ⊢; rw [hp.ferry]; exact hl) rfl
      rwa [hp.red, show v.renewPayload _ = s.renewPayload (nextSeq s.red.sentNo) from by
        unfold State.renewPayload State.slotNo
        rw [hp.mode, hp.red, hpow]] at this
    · rw [hr.power]; exact hpow
  · refine congrArg Host.Outcome.next ((if_pos hup).trans (if_neg ?_))
    rcases hn with h | h | h <;> simp [h]
  · exact congrArg Host.Outcome.next ((if_pos hs).trans (if_pos hus))
  · have h := State.pulseIn_heard { s with out := [] } us hh h1 h2
    exact ⟨_, congrArg Host.Outcome.next (if_pos hs), h.freeSince, h.lastRecv, h.handover,
      (touch_out s []).andThen h.touches⟩
  · obtain ⟨h, hn⟩ := State.renewIn_heard { s with out := [] } number hh
    exact ⟨_, congrArg Host.Outcome.next (if_pos hs), h.freeSince, h.lastRecv, hn, h.handover,
      (touch_out s []).andThen h.touches⟩
  · have hpulse : exec (.leasePulseReceive us) s = .next ((State.renewalIn { s with out := [] }).conflict 0) :=
      congrArg Host.Outcome.next ((if_pos hs).trans ((if_neg (by omega)).trans (if_pos hh)))
    have hrenew : exec (.leaseRenewReceive number st slot cp) s = .next (((State.renewalIn { s with out := [] }).setRed
        (fun r => { r with recvNo := some number, lastNo := number })).conflict 1) :=
      congrArg Host.Outcome.next ((if_pos hs).trans (if_pos hh))
    obtain ⟨p1, p2, p3, p4, p5⟩ := (State.renewalIn { s with out := [] }).conflict_yields 0
    obtain ⟨r1, r2, r3, r4, -⟩ := ((State.renewalIn { s with out := [] }).setRed
      (fun r => { r with recvNo := some number, lastNo := number })).conflict_yields 1
    refine ⟨fun hm => ?_, fun hm => ⟨_, hpulse, p1.trans hm, p2, by rw [p4], by rw [p4], p5 hm⟩⟩
    have hn : ¬s.mode = .safeHold := by rcases hm with h | h | h <;> rw [h] <;> decide
    exact ⟨⟨_, hpulse, p1, p2, p3, by rw [p4], by rw [p4], by rw [p4], by rw [p4]; exact if_neg hn⟩,
      ⟨_, hrenew, r1, r2, r3, by rw [r4], by rw [r4], by rw [r4], by rw [r4]; exact if_neg hn, by rw [r4]; rfl, by rw [r4]; rfl⟩⟩

end Sys2Proof.Machine

namespace Sys2Proof.Machine

open Sys2Proof

section Answers

variable (s : State)

/-- The count of paths, without the flags that follow it. -/
def State.countPaths (s : State) (line lane : Bool) : State := s.setRed (fun r =>
  { r with noLine := if line then 0 else r.noLine + 1, noLane := if lane then 0 else r.noLane + 1,
           goodBoth := if line && lane then r.goodBoth + 1 else 0 })

theorem State.superviseWaiting_flags (line lane : Bool) : FlagsPaths (s.countPaths line lane) (s.superviseWaiting line lane) := by
  unfold State.superviseWaiting
  extract_lets s1 s2 s3
  have h2 : FlagsPaths s1 s2 := .ite (s1.pathFlag_flags ..) (.refl _)
  have h3 : FlagsPaths s1 s3 := h2.trans (.ite (s2.pathFlag_flags ..) (.refl _))
  exact h3.trans s3.pathsGood_flags

/-- Latched integrators are filed under the number of the renewal that is answered. -/
def State.fileLatched (s : State) (number : Nat) : State :=
  match s.red.latched with
  | some l => s.setRed (fun r => ({ r with latched := none } : Red).file number l.2)
  | none => s

theorem State.fileLatched_touches (number : Nat) : Touches [.red] s (s.fileLatched number) ∧
    (s.fileLatched number).red.noLine = s.red.noLine ∧ (s.fileLatched number).red.noLane = s.red.noLane := by
  unfold State.fileLatched
  split
  · exact ⟨touch_red .., rfl, rfl⟩
  · exact ⟨.refl .., rfl, rfl⟩

/-- The message of an answer. -/
def State.sendAnswerOf (s : State) (a : AckDue) (line : Bool) : State :=
  (s.fileLatched a.number).peerSend 48 0x41
    (packBytes [(4, a.number), (1, b2n line + 2 * b2n a.lane), (1, modeCode (s.fileLatched a.number).mode), (2, 0)])

variable (a : AckDue) (line : Bool)

theorem State.ackSend_of_due (hm : s.mode = .standbyCold) (ha : s.red.ackDue = some a)
    (hline : line = (a.line && decide (a.lineAt ≤ s.intake))) :
    s.ackSend = if (line = true ∧ a.lane = true) ∨ a.at_ + 3000 ≤ s.intake then
      ((s.sendAnswerOf a line).setRed (fun r => { r with ackDue := none })).superviseWaiting line a.lane else s := by
  have hc : (a.line && a.lane && decide (a.lineAt ≤ s.intake) || decide (a.at_ + 3000 ≤ s.intake)) = true ↔
      (line = true ∧ a.lane = true) ∨ a.at_ + 3000 ≤ s.intake := by
    rw [hline]
    simp only [Bool.or_eq_true, Bool.and_eq_true, decide_eq_true_eq, and_right_comm]
  unfold State.ackSend
  rw [ha]
  refine (if_neg (not_not_intro hm)).trans (ite_congr (propext hc) (fun _ => ?_) fun _ => rfl)
  rw [hline]
  rfl

theorem State.sendAnswerOf_touches : Touches [.red, .ferry, .out] s (s.sendAnswerOf a line) ∧
    (s.sendAnswerOf a line).red = (s.fileLatched a.number).red :=
  have h := (s.fileLatched a.number).peerSend_touches 48 0x41
    (packBytes [(4, a.number), (1, b2n line + 2 * b2n a.lane), (1, modeCode (s.fileLatched a.number).mode), (2, 0)]) (by decide)
  ⟨(s.fileLatched_touches _).1.andThen h, h.red⟩

theorem State.sendAnswerOf_out (hm : s.mode = .standbyCold) (hmate : s.power.mateHigh = false) (hup : s.linkIsUp 48 = true) :
    .peer 48 0x41 8 (packBytes [(4, a.number), (1, b2n line + 2 * b2n a.lane), (1, 2), (2, 0)]) ∈
      (s.sendAnswerOf a line).out := by
  have h := (s.fileLatched_touches a.number).1
  have hout := (s.fileLatched a.number).peerSend_out 48 0x41
    (packBytes [(4, a.number), (1, b2n line + 2 * b2n a.lane), (1, modeCode (s.fileLatched a.number).mode), (2, 0)]) (by decide)
    (by unfold State.linkIsUp State.link at hup ⊢; rw [h.ferry]; exact hup) rfl (by rw [h.power]; exact hmate)
  rw [h.mode, hm] at hout
  unfold State.sendAnswerOf
  rw [h.mode, hm]
  exact hout

/-- The answer that is sent is no longer due; the paths that delivered the renewal are counted. -/
theorem State.answer_sends (hm : s.mode = .standbyCold) (t : State)
    (ht : t = ((s.sendAnswerOf a line).setRed (fun r => { r with ackDue := none })).superviseWaiting line a.lane) :
    Touches [.red, .ferry, .dictionary, .log, .host, .out] s t ∧ t.red.ackDue = none ∧
    t.red.noLine = (if line then 0 else s.red.noLine + 1) ∧ t.red.noLane = (if a.lane then 0 else s.red.noLane + 1) ∧
    (s.power.mateHigh = false → s.linkIsUp 48 = true → .peer 48 0x41 8
      (packBytes [(4, a.number), (1, b2n line + 2 * b2n a.lane), (1, 2), (2, 0)]) ∈ t.out) := by
  obtain ⟨h1, hr⟩ := s.sendAnswerOf_touches a line
  obtain ⟨-, hl, hn⟩ := s.fileLatched_touches a.number
  have hout := s.sendAnswerOf_out a line hm
  generalize s.sendAnswerOf a line = v at ht h1 hr hout
  have hl' : v.red.noLine = s.red.noLine := hr ▸ hl
  have hn' : v.red.noLane = s.red.noLane := hr ▸ hn
  have h2 := State.superviseWaiting_flags (v.setRed (fun r => { r with ackDue := none })) line a.lane
  rw [← ht] at h2
  refine ⟨(h1.trans (touch_red ..).widen).andThen ((touch_red ..).andThen (rs := .red :: logParts) h2.touches), ?_, ?_, ?_,
    fun hmate hup => h2.sends (hout hmate hup)⟩
  · rw [h2.red]; rfl
  · rw [h2.red]; exact congrArg (fun n => if line then 0 else n + 1) hl'
  · rw [h2.red]; exact congrArg (fun n => if a.lane then 0 else n + 1) hn'

/-- The holder's count of paths at the answer to its latest renewal. -/
theorem State.ackIn_counts (number paths : Nat) (hh : s.red.held = true) (hn : number = s.red.sentNo)
    (hu : s.red.unacked ≠ 0) :
    Touches (.red :: logParts) s (s.ackIn number paths) ∧ (s.ackIn number paths).red.unacked = 0 ∧
    (s.ackIn number paths).red.noLine = (if bitAt paths 0 then 0 else s.red.noLine + 1) ∧
    (s.ackIn number paths).red.held = true := by
  unfold State.ackIn
  rw [if_neg (by simp [hh, hn, hu])]
  extract_lets ln la s1 s2
  have h2 : FlagsPaths s1 s2 := .ite (s1.pathFlag_flags ..) (.refl _)
  have h := h2.trans s2.pathsGood_flags
  refine ⟨(touch_red s s1.red).widen.trans h.touches, ?_, ?_, ?_⟩
  · rw [h.red]; rfl
  · rw [h.red]; rfl
  · rw [h.red]; exact hh

end Answers

/-- Settles O55: the answer that is due by the one condition it waits for, and the holder's count by what the flags that
follow it leave. -/
theorem renewalAnswers : Obligations.RenewalAnswers := by
  unfold Obligations.RenewalAnswers
  refine ⟨fun s hs hn => ?_, fun a line s hs hm ha hline => ?_, fun number paths st s hs => ⟨fun hn => ?_, fun hh hn hu => ?_⟩⟩
  · refine congrArg Host.Outcome.next ((if_pos hs).trans ?_)
    have (v : State) (h : v.red.ackDue = none) : v.ackSend = v := by unfold State.ackSend; rw [h]
    exact this _ hn
  · have h := State.ackSend_of_due { s with out := [] } a line hm ha hline
    refine ⟨fun hdue => ?_, fun hwait hlt => congrArg Host.Outcome.next ((if_pos hs).trans (h.trans (if_neg ?_)))⟩
    · obtain ⟨ht, h1, h2, h3, h4⟩ := State.answer_sends { s with out := [] } a line hm _ rfl
      exact ⟨_, congrArg Host.Outcome.next ((if_pos hs).trans (h.trans (if_pos hdue))), h1, h2, h3,
        fun hmate hup _ => h4 hmate hup, (touch_out s []).andThen ht⟩
    · rintro (⟨hl, hn⟩ | hle)
      · rcases hwait with h | h
        · exact absurd (h.symm.trans hl) Bool.false_ne_true
        · exact absurd (h.symm.trans hn) Bool.false_ne_true
      · exact absurd hlt (Nat.not_lt.mpr hle)
  · refine congrArg Host.Outcome.next ((if_pos hs).trans (if_pos ?_))
    rcases hn with h | h | h <;> simp [h]
  · obtain ⟨ht, h1, h2, h3⟩ := State.ackIn_counts { s with out := [] } number paths hh hn hu
    exact ⟨_, congrArg Host.Outcome.next (if_pos hs), h1, h2, h3, (touch_out s []).andThen ht⟩

end Sys2Proof.Machine

namespace Sys2Proof.Machine

open Sys2Proof

section Claims

variable (s : State)

/-- A transition into TAKEOVER from STANDBY_COLD: an open image transfer is abandoned, and the change of state logged. -/
theorem State.moveTo_takeover (c t : Nat) (hm : s.mode = .standbyCold) : s.moveTo .takeover c t = s.abandonImage.transition .takeover c t := by
  unfold State.moveTo
  rw [hm]
  rfl

theorem State.transition_keepsEntries (m : Mode) (c t : Nat) : KeepsEntries logCounters s (s.transition m c t) := by
  unfold State.transition
  extract_lets old nvr s1
  have h1 : KeepsEntries logCounters s s1 := .of_od rfl
  exact (h1.trans (s1.logForce_keepsEntries ..)).trans (.of_od (State.raise_touches ..).od)

theorem State.redLog_keepsEntries (e p : Nat) : KeepsEntries logCounters s (s.redLog e p) :=
  (s.logEvent_keepsEntries ..).trans (.of_od (State.raise_touches ..).od)

/-- The state of a claim before its renewal is sent. -/
def State.claimed (s : State) : State :=
  let u := s.fileLate.moveTo .takeover 0 3
  { u with
    power := { u.power with gate := true }
    notRunning := decide (u.odv 0x3000 0 ≠ 3)
    cd := { u.cd with stage3Failed := false, due := true }
    ce := { u.ce with inService := false, restored := false }
    red := { u.red with held := true, armed := true, claimFrame := u.frame, sentNo := u.red.recvNo.getD 0, handover := false,
                        yielded := false, gaveUp := false, outcome := if s.red.gaveUp then 1 else u.red.outcome, unacked := 0,
                        noLine := 0, noLane := 0, goodBoth := 0, own := none, cpKnown := false, writing := none,
                        cpFails := 0, step := 1, ring := s.fileLate.red.ring, ackDue := none, latched := none, tables := 0 } }

theorem State.claim_of_allowed (h : s.claimAllowed = true) :
    s.claim = ((s.claimed.renew.emit .storeReset).count 0x8030 1).redLog 0x8101
      (packBytes [(4, s.claimed.renew.red.sentNo), (1, b2n s.red.handover)]) := by
  unfold State.claim
  rw [if_neg (by simp [h])]
  rfl

/-- A claim: the gate is open and the lease is held from this frame on. -/
structure Claims (s t : State) : Prop where
  mode : t.mode = .takeover
  trigger : t.lastTrigger = 3
  transition : t.lastTransition = s.frame
  intake : t.intake = s.intake
  gate : t.power.gate = true
  mate : t.power.mateHigh = s.power.mateHigh
  red : t.red.held = true ∧ t.red.armed = true ∧ t.red.claimFrame = s.frame ∧ t.red.step = 1 ∧
    t.red.sentNo = s.red.recvNo.getD 0 ∧ t.red.handover = false
  due : t.cd.due = true
  service : t.ce.inService = false
  entries : KeepsEntries logCounters s t

theorem State.claimed_claims (hm : s.mode = .standbyCold) : Claims s s.claimed := by
  unfold State.claimed
  extract_lets u
  have hf := s.fileLate_touches
  have hred : u.red.recvNo = s.red.recvNo := by
    rw [show u.red = s.fileLate.red from ?_, s.fileLate_red]
    unfold u
    rw [State.moveTo_takeover _ _ _ (hf.mode.trans hm)]
    exact (State.transition_touches ..).red
  have hu : u = s.fileLate.abandonImage.transition .takeover 0 3 := State.moveTo_takeover _ _ _ (hf.mode.trans hm)
  obtain ⟨h1, h2, h3, -⟩ := s.fileLate.abandonImage.transition_notes .takeover 0 3
  have ht := s.fileLate.abandonImage.transition_touches .takeover 0 3
  have he := s.fileLate.abandonImage.transition_keepsEntries .takeover 0 3
  rw [← hu] at h1 h2 h3 ht he
  have hframe : u.frame = s.frame := ht.frame.trans hf.frame
  have hpow : u.power.mateHigh = s.power.mateHigh := by
    have h0 : s.fileLate.abandonImage.power.mateHigh = s.fileLate.power.mateHigh := rfl
    rw [ht.power, h0, hf.power]
  have hentries : KeepsEntries logCounters s u :=
    KeepsEntries.trans (t := s.fileLate.abandonImage) (.of_od hf.od) he
  have hintake : u.intake = s.intake := ht.intake.trans hf.intake
  clear_value u
  exact ⟨h1, h3, h2.trans hf.frame, hintake, rfl, hpow,
    ⟨rfl, rfl, hframe, rfl, congrArg (Option.getD · 0) hred, rfl⟩, rfl, rfl, hentries.trans (.of_od rfl)⟩

end Claims

/-- Settles O56: the claim through the state before its renewal is sent; when one is allowed by the branches of that rule. -/
theorem leaseClaims : Obligations.LeaseClaims := by
  unfold Obligations.LeaseClaims
  refine ⟨fun s hs ha => ?_, fun s hs hn => ?_, fun s ha => ?_⟩
  · have hm : s.mode = .standbyCold := by
      unfold State.claimAllowed at ha
      simp only [Bool.and_eq_true, decide_eq_true_eq] at ha
      exact ha.1.1.1.1
    have hclaim := State.claim_of_allowed { s with out := [] } ha
    have hc := State.claimed_claims { s with out := [] } hm
    generalize State.claimed { s with out := [] } = v at hclaim hc
    have hr := v.renew_touches
    have hnotes := v.renew_red
    obtain ⟨r1, r2, r3, -, r5, r6, r7, r8, r9⟩ := v.renew_red
    obtain ⟨hheld, harmed, hframe, hstep, hno, hhand⟩ := hc.red
    have h1 := v.renew.emit_touches .storeReset
    have h2 := (v.renew.emit .storeReset).count_touches 0x8030 1 1
    have he2 : ((v.renew.emit .storeReset).count 0x8030 1).odv 0x8030 1 = min (s.odv 0x8030 1 + 1) u32Max := by
      rw [State.count_odv, if_pos rfl]
      exact congrArg (sat32 · 1) ((KeepsEntries.of_od (ks := []) (hr.andThen (rs := [.red, .ferry, .out]) h1).od).odv
        (List.not_mem_nil) |>.trans (hc.entries.odv (by decide)))
    have hs2 : Sends (v.renew.emit .storeReset) ((v.renew.emit .storeReset).count 0x8030 1) := .of_touches h2
    have ht : Touches [.red, .ferry, .dictionary, .out] v ((v.renew.emit .storeReset).count 0x8030 1) :=
      (hr.andThen (rs := [.red, .ferry, .dictionary, .out]) h1).trans h2.widen
    have hred : ((v.renew.emit .storeReset).count 0x8030 1).red = v.renew.red := (h1.andThen (rs := [.dictionary, .out]) h2).red
    have hsend : v.power.mateHigh = false →
        .leasePulse ∈ ((v.renew.emit .storeReset).count 0x8030 1).out ∧
        .storeReset ∈ ((v.renew.emit .storeReset).count 0x8030 1).out := fun hmate =>
      ⟨hs2 (State.emit_sends _ _ (v.renew_out hmate).1), hs2 (State.emit_out _ _ (by rw [hr.power]; exact hmate))⟩
    generalize (v.renew.emit .storeReset).count 0x8030 1 = w at hclaim he2 ht hred hsend
    have hl := w.redLog_touches 0x8101 (packBytes [(4, v.renew.red.sentNo), (1, b2n s.red.handover)])
    have hle := w.redLog_keepsEntries 0x8101 (packBytes [(4, v.renew.red.sentNo), (1, b2n s.red.handover)])
    have hls := w.redLog_sends 0x8101 (packBytes [(4, v.renew.red.sentNo), (1, b2n s.red.handover)])
    have hx := ht.andThen (rs := [.red, .ferry, .dictionary, .log, .host, .out]) hl
    have hrl := hl.red.trans hred
    obtain ⟨hmode, htrans, htrig⟩ := hx.2 .mode (by decide)
    refine ⟨_, congrArg Host.Outcome.next ((if_pos hs).trans hclaim), hmode.trans hc.mode, htrig.trans hc.trigger,
      htrans.trans hc.transition, by rw [hx.power]; exact hc.gate, by rw [hrl, r5]; exact hheld, by rw [hrl, r6]; exact harmed,
      by rw [hrl, r2], by rw [hrl, r3]; exact hc.intake, by rw [hrl, r7]; exact hframe, by rw [hrl, r8]; exact hstep,
      by rw [hrl, r1]; exact congrArg nextSeq hno, by rw [hrl, r9]; exact hhand, by rw [hx.cd]; exact hc.due,
      by rw [hx.ce]; exact hc.service, fun hmate => ?_, (hle.odv (by decide)).trans he2⟩
    obtain ⟨hp, hst⟩ := hsend (hc.mate.trans hmate)
    exact ⟨hls hp, hls hst⟩
  · exact congrArg Host.Outcome.next ((if_pos hs).trans (if_pos (by
      rw [show State.claimAllowed { s with out := [] } = false from hn]; rfl)))
  · unfold State.claimAllowed at ha
    simp only [Bool.and_eq_true, decide_eq_true_eq] at ha
    obtain ⟨⟨⟨⟨hm, -⟩, -⟩, -⟩, hfree⟩ := ha
    refine ⟨hm, fun hh => ?_⟩
    rw [if_neg (by rw [hh]; exact Bool.false_ne_true)] at hfree
    have := of_decide_eq_true hfree
    unfold State.guard at this
    omega

end Sys2Proof.Machine

namespace Sys2Proof.Machine

open Sys2Proof

section Ends

variable (s : State)

/-- STANDBY_COLD stops the CD. -/
theorem State.moveTo_standby_running (c t : Nat) : (s.moveTo .standbyCold c t).cd.running = false := by
  unfold State.moveTo
  extract_lets old s1 s2 s3 s4
  exact (State.cdStop_cd ..).1

/-- A transition to STANDBY_COLD closes the gate. -/
theorem State.moveTo_standby_gate (c t : Nat) : (s.moveTo .standbyCold c t).power.gate = false :=
  congrArg (·.2.2.1) (s.moveTo_standby_gv c t)

theorem State.leaseExpires_of_timer (straps : List Nat) (ht : s.red.timer = true) (h : s.red.renewedAt + 200000 ≤ s.intake) :
    s.leaseExpires straps =
      let u := s.setRed (fun r => { r with timer := false })
      if s.mode = .safeHold then
        if s.hold.conflict then u.moduleRestart 0x0E straps else (u.leaseLost 1).moduleRestart 0x0D straps
      else if s.red.held then u.leaseLost 1 else u := by
  unfold State.leaseExpires
  rw [if_neg (by simp [ht, h])]
  rfl

/-- A module restart within the input range: BOOT, with the gate closed. -/
theorem State.moduleRestart_boots (trigger : Nat) (straps : List Nat) (hl : s.power.leaving = false) :
    (s.moduleRestart trigger straps).mode = .boot ∧ (s.moduleRestart trigger straps).power.gate = false ∧
    (s.moduleRestart trigger straps).gw.driving = false ∧ (s.moduleRestart trigger straps).frame = s.frame := by
  have h := s.moduleRestart_gv trigger straps
  rw [if_neg (by rw [hl]; exact Bool.false_ne_true)] at h
  exact ⟨congrArg (·.2.1) h, congrArg (·.2.2.1) h, congrArg (·.2.2.2) h, congrArg (·.1.2) h⟩

/-- The holder after its handover checkpoint: what it gives up at the frame boundary. -/
theorem State.switchFrame_closes (hm : s.mode = .active ∨ s.mode = .degraded) (hc : s.red.closeDue = true)
    (hl : s.power.leaving = false) :
    s.switchFrame.mode = .standbyCold ∧ s.switchFrame.power.gate = false ∧ s.switchFrame.red.held = false ∧
    s.switchFrame.red.gaveUp = true ∧ s.switchFrame.red.timer = false := by
  unfold State.switchFrame
  rw [if_neg (by rcases hm with h | h <;> simp [h]), if_pos hc]
  extract_lets last seq s1 s2 s3 s4
  have h2 : s2 = s1.moveTo .standbyCold 0 0x0F := s1.move_of_staying _ _ _ hl
  have h3 : Touches logParts s2 s3 := (State.redLog_touches ..).trans (State.count_touches ..).widen
  have h5 := (touch_red s3 s4.red).andThen (rs := .red :: .ferry :: logParts)
    (s4.peerSend_touches 48 0x42 (packBytes [(4, last), (4, seq), (4, 0)]) (by decide))
  have hr := (s4.peerSend_touches 48 0x42 (packBytes [(4, last), (4, seq), (4, 0)]) (by decide)).red
  obtain ⟨-, -, -, hheld⟩ := s1.moveTo_standby 0 0x0F
  have hgate := s1.moveTo_standby_gate 0 0x0F
  have hmode := s1.moveTo_mode .standbyCold 0 0x0F
  rw [← h2] at hheld hgate hmode
  refine ⟨h5.mode.trans (h3.mode.trans hmode), by rw [h5.power, h3.power]; exact hgate, ?_, by rw [hr]; rfl, by rw [hr]; rfl⟩
  rw [hr]
  exact (congrArg Red.held h3.red).trans hheld

theorem State.judge_close (hm : s.mode = .active ∨ s.mode = .degraded) (hc : s.red.closeDue = true)
    (hl : s.power.leaving = false) (hlost : s.red.lost = false) :
    s.judge = State.switchFrame { s with notRunning := s.noForecast && holdsLeaseMode s.mode } := by
  unfold State.judge
  extract_lets s1 s2
  have h1 : s1.mode = .active ∨ s1.mode = .degraded := hm
  have h2 : s1.power.leaving = false := hl
  have h3 : s1.red.lost = false := hlost
  have h4 : s1.red.closeDue = true := hc
  obtain ⟨k1, -⟩ := s1.switchFrame_closes h1 h4 h2
  have hact : s1.acting = true := by unfold State.acting; rcases h1 with h | h <;> rw [h] <;> rfl
  have hns : s1.mode ≠ .standbyCold := by rcases h1 with h | h <;> rw [h] <;> decide
  have hnh : s1.mode ≠ .safeHold := by rcases h1 with h | h <;> rw [h] <;> decide
  have hact2 : s2.acting = false := by unfold State.acting; rw [show s2.mode = .standbyCold from k1]; rfl
  rw [if_neg (by rw [h2]; exact Bool.false_ne_true), if_neg (by rw [h3]; exact Bool.false_ne_true), if_neg hns, if_neg hnh,
    if_pos hact, if_pos (by rw [hact2]; rfl)]

theorem State.leaseLost_leaving (cause : Nat) : (s.leaseLost cause).power.leaving = s.power.leaving := by
  unfold State.leaseLost
  extract_lets s1
  have h1 : s1.power = s.closeGate.power := (State.redLog_touches s.closeGate _ _).power
  have h2 : s1.power.leaving = s.power.leaving := by rw [h1]; rfl
  exact h2

/-- A takeover that has lasted too long restarts the module. -/
theorem State.takeoverFails_restarts (straps : List Nat) (hm : s.mode = .takeover) (hl : s.power.leaving = false)
    (hf : s.red.claimFrame + 10000 ≤ s.frame) : ∃ v : State,
    s.takeoverFails straps = v.moduleRestart 0x05 straps ∧ v.power.leaving = s.power.leaving ∧ v.frame = s.frame := by
  unfold State.takeoverFails
  rw [if_pos ⟨hm, by simp [hl], hf⟩]
  extract_lets s1 s2 s3
  have h := State.redLog_touches s.closeGate 0x8108
    (packBytes [(4, 4 * (s.frame - s.red.claimFrame)), (1, s.red.step)])
  have h1 : s1.power.leaving = s.power.leaving := by rw [show s1.power = s.closeGate.power from h.power]; rfl
  exact ⟨_, rfl, h1, h.frame⟩

/-- The pin's free value beside a peer that reports at this instant (log entry 44). -/
theorem State.peerStateIn_samples (state flags : Nat) : s.peerStateIn state flags = { s with
    free := s.free + 1
    red := { s.red with peerState := state, peerFlags := flags, peerAt := s.intake }
    power := { s.power with
      peerOk := decide (2 ≤ state ∧ state ≤ 6) && decide (Config.freeValue s.free % 2 = 1) } } := by
  unfold State.peerStateIn State.samplePeer State.draw
  dsimp only
  rw [decide_eq_false (not_not_intro rfl), Bool.false_or]

end Ends

/-- Settles O57: the expiries by their branches; STANDBY_COLD at the frame boundary through what the boundary's judgement
leaves to the rest of it. -/
theorem leaseEnds : Obligations.LeaseEnds := by
  unfold Obligations.LeaseEnds
  refine ⟨fun b s hup h => ?_, fun b s hup ht he hm hh => ?_, fun d s hl hlost hm => ?_, fun b s hup ht he hl hm => ?_,
    fun b s hm hl hf => ?_, fun b s hup hm => ?_⟩
  · refine congrArg Host.Outcome.next ((if_pos hup).trans (if_pos ?_))
    rcases h with h | h <;> simp [h]
  · have hn : ¬s.mode = .safeHold := by rcases hm with h | h | h <;> rw [h] <;> decide
    have h := State.leaseExpires_of_timer { s with out := [] } b.straps ht he
    obtain ⟨h1, h2, h3, h4, h5⟩ := (State.setRed { s with out := [] } (fun r => { r with timer := false })).leaseLost_loses 1
    refine ⟨_, congrArg Host.Outcome.next ((if_pos hup).trans (h.trans ((if_neg hn).trans (if_pos hh)))), h1, h3, h4,
      by rw [h5], by rw [h5], by rw [h5], ?_, h2⟩
    rw [h5]
    exact decide_eq_true hm
  · have hup : s.up = true := by unfold State.up; rcases hm with h | h | h <;> rw [h] <;> rfl
    obtain ⟨u, h⟩ := State.frameBoundary_boundary { s with out := [] } d hup
    have hj := u.judge_lost (by rw [h.before.power]; exact hl) (by rw [h.before.red]; exact hlost)
    generalize ({ u with notRunning := u.noForecast && holdsLeaseMode u.mode } : State) = v at hj
    have hmode : (State.frameBoundary { s with out := [] } d).mode = .standbyCold := by
      rw [h.after.mode, hj, State.moveTo_mode]
    have hd : (State.frameBoundary { s with out := [] } d).drives = false := by
      unfold State.drives
      rw [hmode, Bool.and_false]
    obtain ⟨k1, -, -, k2⟩ := v.moveTo_standby 0 0x0E
    refine ⟨_, rfl, hmode, ?_, ?_, h.driving.trans hd, ?_, ?_⟩
    · rw [(h.after.2 .mode (by decide)).2.2, hj]; exact k1
    · rw [h.gate, hj]; exact v.moveTo_standby_gate 0 0x0E
    · rw [h.after.red, hj]; exact k2
    · rw [h.cd.running, hj]; exact v.moveTo_standby_running 0 0x0E
  · have h := State.leaseExpires_of_timer { s with out := [] } b.straps ht he
    refine ⟨_, congrArg Host.Outcome.next ((if_pos hup).trans (h.trans (if_pos hm))), ?_⟩
    split
    · exact State.moduleRestart_boots (State.setRed { s with out := [] } _) 0x0E b.straps hl
    · have hleave := (State.setRed { s with out := [] } (fun r => { r with timer := false })).leaseLost_leaving 1
      obtain ⟨k1, k2, k3, k4⟩ := State.moduleRestart_boots _ 0x0D b.straps (hleave.trans hl)
      exact ⟨k1, k2, k3, k4.trans (State.leaseLost_loses _ 1).2.1⟩
  · have hup : s.up = true := by unfold State.up; rw [hm]; rfl
    obtain ⟨v, hv, hleave, hframe⟩ := State.takeoverFails_restarts { s with out := [] } b.straps hm hl hf
    obtain ⟨k1, k2, k3, k4⟩ := v.moduleRestart_boots 0x05 b.straps (hleave.trans hl)
    exact ⟨_, congrArg Host.Outcome.next ((if_pos hup).trans hv), k1, k2, k3, k4.trans hframe⟩
  · exact congrArg Host.Outcome.next ((if_pos hup).trans (if_neg fun hc => hm hc.1))

/-- Settles O60: the frame boundary through the judgement that closes the holder's gate; the peer's messages by their
branches. -/
theorem switchOver : Obligations.SwitchOver := by
  unfold Obligations.SwitchOver
  refine ⟨fun h => ?_, fun d s hm hc hdue hl hlost => ?_, fun number cp s hs => ⟨fun hm => ?_, fun hm => ?_⟩, fun s hs hm => ?_,
    fun s hm => ?_, fun state flags s hs => ?_⟩
  · exact rowDoes_of_execute State.presentStraps (by decide) (fun _ => rfl) (by decide) fun s => execute_switch s _ rfl
  · have hup : s.up = true := by unfold State.up; rcases hm with h | h <;> rw [h] <;> rfl
    obtain ⟨u, h⟩ := State.frameBoundary_boundary { s with out := [] } d hup
    have hmu : u.mode = .active ∨ u.mode = .degraded := by rw [h.before.mode]; exact hm
    have hlu : u.power.leaving = false := by rw [h.before.power]; exact hl
    have hcu : u.red.closeDue = true := by rw [h.before.red]; exact hc
    have hj := u.judge_close hmu hcu hlu (by rw [h.before.red]; exact hlost)
    have hk := State.switchFrame_closes { u with notRunning := u.noForecast && holdsLeaseMode u.mode } hmu hcu hlu
    rw [← hj] at hk
    obtain ⟨k1, k2, k3, k4, k5⟩ := hk
    have hmode := h.after.mode.trans k1
    have hd : (State.frameBoundary { s with out := [] } d).drives = false := by
      unfold State.drives
      rw [hmode, Bool.and_false]
    exact ⟨_, rfl, hmode, h.gate.trans k2, h.driving.trans hd, by rw [h.after.red]; exact k3, by rw [h.after.red]; exact k4,
      by rw [h.after.red]; exact k5⟩
  · exact congrArg Host.Outcome.next ((if_pos hs).trans (if_neg (not_not_intro hm)))
  · exact congrArg Host.Outcome.next ((if_pos hs).trans (if_pos hm))
  · exact congrArg Host.Outcome.next (if_pos ((Bool.and_eq_true ..).mpr ⟨hs, decide_eq_true hm⟩))
  · refine congrArg Host.Outcome.next (if_neg fun hc => ?_)
    exact absurd hm (of_decide_eq_true ((Bool.and_eq_true ..).mp hc).2)
  · exact congrArg Host.Outcome.next ((if_pos hs).trans (State.peerStateIn_samples ..))

end Sys2Proof.Machine

namespace Sys2Proof.Machine

open Sys2Proof

/-- A holder whose next slice holds one word whose valid bit is lost. -/
def lostSliceWord : State :=
  { mode := .active, frame := 1250, power := { gate := true }
    cd := { sram := { errs := [(768 * 2 ^ 20, 3)] } }
    ce := { inService := true, kept := { rcs := [(0, { table := [(0, 5)] })] } }
    red := { held := true, cpKnown := true, step := 6 } }

/-- The slice data that go to the store. -/
def Output.sliceData : Output → Option Nat
  | .storeWrite _ n b => if n = 0x40000 then some b else none
  | _ => none

theorem lostSliceWord_sends : (State.checkpointTake lostSliceWord).out.filterMap Output.sliceData = [0] := by
  decide +kernel

/-- Refutes O59: the slice goes to the store as its words are read (R204), and a word whose valid bit is lost reads zero; the
statement has the table itself in the slice. -/
theorem not_checkpointWrites : ¬ Obligations.CheckpointWrites := by
  unfold Obligations.CheckpointWrites
  rintro ⟨-, htake, -⟩
  obtain ⟨t, ht, w, u, -, -, -, -, -, -, -, hout, -⟩ := (htake lostSliceWord rfl rfl rfl).2 rfl rfl
  have hexec : exec .checkpointTake lostSliceWord = .next (State.checkpointTake lostSliceWord) := rfl
  obtain rfl := Host.Outcome.next.inj (hexec.symm.trans ht)
  have hsent := (List.mem_filterMap (f := Output.sliceData)).mpr ⟨_, (hout rfl).1, rfl⟩
  rw [lostSliceWord_sends] at hsent
  exact absurd (List.mem_singleton.mp hsent) (by decide +kernel)

end Sys2Proof.Machine

/-! ## What a takeover restores (R311, R465, R519 to R521) -/

namespace Sys2Proof.Machine

open Sys2Proof

theorem bitAt_setBit_false (v i : Nat) : bitAt (setBit v i false) i = false := by
  unfold setBit
  split
  case isTrue h => exact h
  case isFalse h =>
    have hb : v.testBit i = true := by simpa [bitAt] using h
    have hodd : v / 2 ^ i % 2 = 1 := by simpa [Nat.testBit_eq_decide_div_mod_eq] using hb
    have hdiv := Nat.sub_mul_div v (2 ^ i) 1
    rw [Nat.mul_one] at hdiv
    unfold bitAt
    rw [if_neg Bool.false_ne_true, Nat.testBit_eq_decide_div_mod_eq, hdiv]
    exact decide_eq_false (by omega)

/-- A table filled from a list of indices reads the value of each index in the list. -/
theorem tabGet_filled {α : Type} [DecidableEq α] (d : α) (f : Nat → α) (l : List Nat) (t : Tab α) (i : Nat) :
    tabGet d (l.foldl (fun t j => tabPut d t j (f j)) t) i = if i ∈ l then f i else tabGet d t i := by
  induction l generalizing t with
  | nil => rfl
  | cons j l ih =>
    rw [List.foldl_cons, ih, tabGet_tabPut]
    by_cases hj : i = j
    · subst hj
      simp
    · by_cases hl : i ∈ l <;> simp [hj, hl]

theorem CeDyn.rc_setRc (d : CeDyn) (r q : Nat) (f : Rc → Rc) : (d.setRc r f).rc q = if q = r then f (d.rc r) else d.rc q := by
  unfold CeDyn.setRc CeDyn.rc
  exact tabGet_tabMod ..

section Restores

variable (s : State)

/-- The parts that a restored state changes beside the control engine's. -/
abbrev restoredParts : List Part := .bm :: .se :: .free :: .ferry :: .cells :: logParts

theorem State.grantsFresh_touches : Touches [.bm] s s.grantsFresh := touch_bm ..

theorem State.grantsFrom_touches (b : Blob) : Touches [.bm, .dictionary] s (s.grantsFrom b) :=
  Touches.foldl _ _ (.refl ..) fun u _ => (u.setGroup_touches ..).andThen (State.odPut_touches ..)

theorem State.energyFrom_touches (b : Blob) : Touches [.ferry, .dictionary] s (s.energyFrom b) := by
  unfold State.energyFrom
  extract_lets e s1
  have h1 : Touches [.ferry] s s1 := Touches.foldl _ _ (.refl ..) fun u l => .ite (.refl ..) (u.setLanding_touches ..)
  exact h1.andThen (s1.count_touches ..)

theorem State.seAdopt_touches (b : Blob) : Touches [.se, .free] s (s.seAdopt b) := by
  unfold State.seAdopt
  extract_lets r
  refine .ite (.refl ..) (Touches.foldl _ _ (.refl ..) fun u ch => ?_)
  extract_lets at_ p cls
  have hp : Touches [.free] u p.2 := by
    unfold p
    split
    · exact .refl ..
    · exact u.draw_touches
  exact hp.andThen (p.2.setChan_touches ..)

theorem State.bridgeDone_touches : Touches (.se :: logParts) s s.bridgeDone := by
  unfold State.bridgeDone
  extract_lets mask s1
  have h1 : Touches [.se] s s1 := Touches.foldl _ _ (.refl ..) fun u ch => u.setChan_touches ..
  exact (h1.andThen (rs := .se :: logParts) (s1.seLog_touches ..)).trans (touch_se ..).widen

theorem State.cellsTakeover_touches : Touches [.cells] s s.cellsTakeover :=
  Touches.foldl _ _ (.refl ..) fun u _ => u.setPort_touches ..

theorem State.ceRestore_touches (d : CeDyn) : Touches [.ce, .cd, .power] s (s.ceRestore d) :=
  ((s.sramRewrite_touches _).andThen (rs := [.ce, .cd, .power]) (State.wroteSiod_touches ..)).trans (touch_ce ..).widen

theorem State.ceRestore_restored (d : CeDyn) : (s.ceRestore d).ce.restored = true := rfl

/-- The last step of a restored takeover: its case, its step and the cleared ring. -/
theorem State.takeoverRestored_red (c : Nat) :
    (s.takeoverRestored c).red = { s.red with cpCase := c, step := 3, ring := [] } ∧ (s.takeoverRestored c).ce = s.ce := by
  unfold State.takeoverRestored
  extract_lets s1 s2
  have h1 := s.bridgeDone_touches
  have h2 := s2.cellsTakeover_touches
  refine ⟨h2.red.trans ?_, h2.ce.trans h1.ce⟩
  show ({ s1.red with cpCase := c, step := 3, ring := [] } : Red) = _
  rw [show s1.red = s.red from h1.red]

/-- What the last step notes, and what it leaves. -/
theorem State.takeoverRestored_notes (c : Nat) :
    (s.takeoverRestored c).red.step = 3 ∧ (s.takeoverRestored c).red.ring = [] ∧
    (s.takeoverRestored c).red.cpSeq = s.red.cpSeq ∧ (s.takeoverRestored c).red.cpSlot = s.red.cpSlot ∧
    (s.takeoverRestored c).red.cpCase = c ∧ (s.takeoverRestored c).ce.restored = s.ce.restored := by
  obtain ⟨hr, hc⟩ := s.takeoverRestored_red c
  rw [hr, hc]
  exact ⟨rfl, rfl, rfl, rfl, rfl, rfl⟩

theorem State.takeoverCold_restores : s.takeoverCold.red = { s.red with cpCase := 0, step := 3, ring := [] } ∧
    s.takeoverCold.ce.restored = true := by
  unfold State.takeoverCold
  obtain ⟨hr, hc⟩ := (s.ceRestore s.ceCold).grantsFresh.takeoverRestored_red 0
  have hf := (s.ceRestore s.ceCold).grantsFresh_touches
  rw [hr, hc, hf.red, hf.ce, (s.ceRestore_touches s.ceCold).red]
  exact ⟨rfl, s.ceRestore_restored _⟩

/-- The case of a takeover from a checkpoint (R521). -/
def State.cpCaseOf (s : State) (b : Blob) : Nat :=
  if bytesAt b 0x20 64 ≠ s.digest then 3 else if (s.ringAt (bytesAt b 0x18 4)).2 then 1 else 2

theorem State.takeoverFrom_restores (slot : Nat) (b : Blob) :
    (s.takeoverFrom slot b).red.step = 3 ∧ (s.takeoverFrom slot b).red.ring = [] ∧
    (s.takeoverFrom slot b).red.cpSeq = bytesAt b 4 4 ∧ (s.takeoverFrom slot b).red.cpSlot = slot ∧
    (s.takeoverFrom slot b).red.cpCase = s.cpCaseOf b ∧ (s.takeoverFrom slot b).ce.restored = true := by
  unfold State.takeoverFrom
  extract_lets seq s1 differs current copies s2 s3 s4 s5 s6
  have h2 : Touches logParts s1 s2 := .ite (s1.redLog_touches ..) (.refl ..)
  have h4 : Touches (.ce :: .cd :: .power :: restoredParts) s1 s4 ∧ s4.ce.restored = true := by
    have h3 : Touches (.ce :: .cd :: .power :: restoredParts) s1 s3 := h2.andThen s2.grantsFresh_touches
    have h (d : CeDyn) := h3.trans (s3.ceRestore_touches d).widen
    unfold s4
    split
    · have hg := (s3.ceRestore (s3.ceFrom b)).grantsFrom_touches b
      exact ⟨(h _).trans hg.widen, (congrArg Ce.restored hg.ce).trans (State.ceRestore_restored ..)⟩
    · exact ⟨h _, State.ceRestore_restored ..⟩
  have h5 : Touches [.se, .free, .ferry, .dictionary] s4 s5 :=
    (s4.energyFrom_touches b).andThen (State.seAdopt_touches ..)
  have hr5 : s5.red = s1.red := h5.red.trans h4.1.red
  have hc5 : s5.ce.restored = true := (congrArg Ce.restored h5.ce).trans h4.2
  have hseq : s1.red.cpSeq = bytesAt b 4 4 := rfl
  have hslot : s1.red.cpSlot = slot := rfl
  have hcase : (if current then 1 else if differs then 3 else 2) = s.cpCaseOf b := by
    have hring : (s1.ringAt (bytesAt b 0x18 4)).2 = (s.ringAt (bytesAt b 0x18 4)).2 := rfl
    unfold current differs State.cpCaseOf
    rw [hring, show s1.digest = s.digest from rfl]
    by_cases hd : bytesAt b 0x20 64 = s.digest <;> simp [hd]
  obtain ⟨k1, k2, k3, k4, k5, k6⟩ := s6.takeoverRestored_notes (if current then 1 else if differs then 3 else 2)
  have h6 (u : State) (f : Red → Red) (hf : ∀ r, (f r).cpSeq = r.cpSeq ∧ (f r).cpSlot = r.cpSlot) :
      (u.setRed f).red.cpSeq = u.red.cpSeq ∧ (u.setRed f).red.cpSlot = u.red.cpSlot ∧ (u.setRed f).ce = u.ce :=
    ⟨(hf _).1, (hf _).2, rfl⟩
  obtain ⟨hq, hs, he⟩ := h6 s5 (fun r => { r with tables := copies }) fun _ => ⟨rfl, rfl⟩
  exact ⟨k1, k2, k3.trans (hq.trans ((congrArg Red.cpSeq hr5).trans hseq)),
    k4.trans (hs.trans ((congrArg Red.cpSlot hr5).trans hslot)), k5.trans hcase,
    k6.trans ((congrArg Ce.restored he).trans hc5)⟩

/-- A complete copy that waits becomes its corrector's table. -/
theorem State.tableRestore_restores (r : Nat) (b : Blob) (hh : s.red.held = true) (hi : s.ce.inService = true)
    (hw : bitAt s.red.tables r = true) (hm : (s.ce.kept.rc r).mask = 0xFF) :
    (∀ i, i < s.odv (0x2600 + r) 1 → tabGet 0 ((s.tableRestore r b).ce.kept.rc r).table i = signed 16 (item 2 b i)) ∧
    ((s.tableRestore r b).ce.kept.rc r).mask = 0xFF ∧ bitAt (s.tableRestore r b).red.tables r = false ∧
    (∀ q, q ≠ r → (s.tableRestore r b).ce.kept.rc q = s.ce.kept.rc q) ∧ Touches [.ce, .red, .cd] s (s.tableRestore r b) := by
  unfold State.tableRestore
  rw [if_pos (by simp [hh, hi, hw, hm])]
  extract_lets n table words s1 s2
  have hrc (q : Nat) : s2.ce.kept.rc q = if q = r then
      { s.ce.kept.rc r with table := table, valid := words.foldl ordInsert (s.ce.kept.rc r).valid } else s.ce.kept.rc q :=
    CeDyn.rc_setRc ..
  have h1 : Touches [.ce, .red, .cd] s s2 := (s.sramRewrite_touches _).andThen (touch_ce ..)
  have hr : (s2.setRed (fun x => { x with tables := setBit x.tables r false, step := max x.step 6 })).ce = s2.ce := rfl
  have ht : s2.red.tables = s.red.tables := rfl
  clear_value s2
  refine ⟨fun i hlt => ?_, ?_, bitAt_setBit_false .., fun q hq => ?_, h1.trans (touch_red ..).widen⟩
  · rw [hr, hrc r, if_pos rfl]
    exact (tabGet_filled 0 (fun i => signed 16 (item 2 b i)) (upTo n) [] i).trans (if_pos (List.mem_range.mpr hlt))
  · rw [hr, hrc r, if_pos rfl]
    exact hm
  · rw [hr, hrc q, if_neg hq]

theorem State.checkpointRead_cold (a b : Option Blob) (hm : s.mode = .takeover) (hst : s.red.step = 1)
    (hn : newestCp a b = none) : s.checkpointRead a b = s.takeoverCold := by
  unfold State.checkpointRead
  rw [if_pos ⟨hm, hst⟩, hn]

theorem State.checkpointRead_from (a b : Option Blob) (hm : s.mode = .takeover) (hst : s.red.step = 1) (c : Nat × Blob)
    (hn : newestCp a b = some c) : s.checkpointRead a b = s.takeoverFrom c.1 c.2 := by
  unfold State.checkpointRead
  rw [if_pos ⟨hm, hst⟩, hn]

end Restores

/-- Settles O58: the takeover through what each of its parts leaves of the lease's record and of the engine's restored mark;
the table through the reads of a table filled entry by entry. -/
theorem takeoverRestores : Obligations.TakeoverRestores := by
  unfold Obligations.TakeoverRestores
  refine ⟨fun a b s hm hst => ?_, fun s hm hst => ⟨fun hf => ?_, fun hf => ?_⟩, fun r b s hup => ⟨fun hh hi hw hmask => ?_, fun hw => ?_⟩⟩
  · have hup : s.up = true := by unfold State.up; rw [hm]; rfl
    have hexec : exec (.checkpointReadComplete a b) s = .next (State.checkpointRead { s with out := [] } a b) :=
      congrArg Host.Outcome.next (if_pos hup)
    have hgv := State.checkpointRead_gv { s with out := [] } a b
    refine ⟨_, hexec, (congrArg (·.2.1) hgv).trans hm, ?_⟩
    have hgate := congrArg (·.2.2.1) hgv
    cases hn : newestCp a b with
    | none =>
      have hread := State.checkpointRead_cold { s with out := [] } a b hm hst hn
      obtain ⟨hr, hc⟩ := State.takeoverCold_restores { s with out := [] }
      rw [← hread] at hr hc
      exact ⟨by rw [hr], by rw [hr], hc, hgate, fun _ => by rw [hr], fun c h => nomatch h⟩
    | some c =>
      have hread := State.checkpointRead_from { s with out := [] } a b hm hst c hn
      obtain ⟨h1, h2, h3, h4, h5, h6⟩ := State.takeoverFrom_restores { s with out := [] } c.1 c.2
      rw [← hread] at h1 h2 h3 h4 h5 h6
      refine ⟨h1, h2, h6, hgate, fun h => absurd h (Option.some_ne_none _), fun c' h => ?_⟩
      cases h
      exact ⟨h3, h4, h5⟩
  · have hup : s.up = true := by unfold State.up; rw [hm]; rfl
    have hgv := State.takeoverCold_gv { s with out := [] }
    obtain ⟨hr, hc⟩ := State.takeoverCold_restores { s with out := [] }
    exact ⟨_, congrArg Host.Outcome.next ((if_pos hup).trans (if_pos ⟨hm, hst, hf⟩)), (congrArg (·.2.1) hgv).trans hm, by rw [hr],
      by rw [hr], hc, congrArg (·.2.2.1) hgv⟩
  · have hup : s.up = true := by unfold State.up; rw [hm]; rfl
    exact congrArg Host.Outcome.next ((if_pos hup).trans (if_neg fun h => Nat.not_le.mpr hf h.2.2))
  · obtain ⟨h1, h2, h3, h4, h5⟩ := State.tableRestore_restores { s with out := [] } r b hh hi hw hmask
    exact ⟨_, congrArg Host.Outcome.next (if_pos hup), h1, h2, h3, h4, (touch_out s []).andThen h5⟩
  · refine congrArg Host.Outcome.next ((if_pos hup).trans (if_neg ?_))
    simp [hw]

end Sys2Proof.Machine

/-! ## The control engine's commands and boundaries (R276, R289, R307, R308, R311) -/

namespace Sys2Proof.Machine

open Sys2Proof

section LoopCommands

variable {s : State} {a : Ask}

theorem execute_loop (n : Nat) (hn : n < 64) (h : a.index = 0x2200 + n) :
    s.execute a = done a.index a.sub (fun s => s.loopCommand n a.value) s := by
  unfold State.execute
  extract_lets v ok
  have hb : 0x2200 ≤ a.index ∧ a.index < 0x2240 := by omega
  split
  any_goals omega
  rw [if_pos hb, show a.index - 0x2200 = n by omega]
  rfl

/-- What a command of a repetitive corrector does to it, by its subindex. -/
def State.rcCommand (s : State) (r k v : Nat) : State :=
  if k = 7 then s.clearTable r
  else if k = 8 then s.ceAll (fun d => d.setRc r (fun c => { c with nudge := some (c.nudge.getD 0 + signed 16 v) }))
  else s.ceAll (fun d => d.setRc r (fun c => { c with setIndex := some v }))

theorem execute_rc (r : Nat) (hr : r < 4) (h : a.index = 0x2600 + r) :
    s.execute a = done a.index a.sub (fun s => s.rcCommand r a.sub a.value) s := by
  unfold State.execute State.rcCommand
  extract_lets v ok
  have hb : 0x2600 ≤ a.index ∧ a.index < 0x2604 := by omega
  split
  any_goals omega
  rw [if_neg (by omega), if_pos hb, show a.index - 0x2600 = r by omega]
  dsimp only [done]
  split
  · rfl
  · split <;> rfl

theorem CeDyn.loop_setLoop (d : CeDyn) (n m : Nat) (f : Loop → Loop) :
    (d.setLoop n f).loop m = if m = n then f (d.loop n) else d.loop m := by
  unfold CeDyn.setLoop CeDyn.loop
  exact tabGet_tabMod ..

theorem State.clearTable_rc (s : State) (r q : Nat) : (s.clearTable r).ce.kept.rc q = if q = r then
    { s.ce.kept.rc r with table := [], generation := ((s.ce.kept.rc r).generation + 1) % 2 ^ 32, mask := 0 }
    else s.ce.kept.rc q := CeDyn.rc_setRc ..

theorem isCmd_loop : ∀ n < 64, isCmd (0x2200 + n) 1 = true := by decide +kernel

theorem isCmd_rc : ∀ r < 4, isCmd (0x2600 + r) 7 = true ∧ isCmd (0x2600 + r) 8 = true ∧ isCmd (0x2600 + r) 9 = true := by
  decide +kernel

theorem entryLen_loop : ∀ n < 64, entryLen (0x2200 + n) 1 = 1 := by decide +kernel

theorem entryLen_rc : ∀ r < 4, entryLen (0x2600 + r) 1 = 4 ∧ entryLen (0x2600 + r) 7 = 1 ∧ entryLen (0x2600 + r) 8 = 2 ∧
    entryLen (0x2600 + r) 9 = 4 := by decide +kernel

theorem State.commandTo_of_len {i k n : Nat} (hl : entryLen i k = n) (s : State) (h : ReqHead) (v : Nat) :
    (Host.Outcome.next (s.commandTo h i k v) : Out) = Host.Outcome.next (s.command h i k n v s.presentStraps) := by
  unfold State.commandTo
  rw [hl]

theorem isSetting_period : ∀ r < 4, isSetting (0x2600 + r) 1 true = true := by decide +kernel

end LoopCommands

theorem afterWrite_period (s : State) (r old : Nat) (hr : r < 4) : s.afterWrite (0x2600 + r) 1 old = s.clearTable r := by
  unfold State.afterWrite
  rw [if_neg (by omega), if_pos (by omega), Nat.add_sub_cancel_left]

/-- Settles O37: the command rows through what their entries execute; the period through what a write of a setting stores
and what follows from it. -/
theorem loopCommands : Obligations.LoopCommands := by
  unfold Obligations.LoopCommands
  refine ⟨fun h n hn => ?_, fun h r hr => ?_, fun r s => ?_⟩
  · have hcmd := isCmd_loop n hn
    have hlen := entryLen_loop n hn
    refine ⟨rowDoes_of_execute State.presentStraps hcmd
        (fun s => State.commandTo_of_len hlen { s with out := [] } h _) (by omega) fun s => execute_loop n hn rfl,
      rowDoes_of_execute State.presentStraps hcmd
        (fun s => State.commandTo_of_len hlen { s with out := [] } h _) (by omega) fun s => execute_loop n hn rfl,
      rowDoes_of_execute State.presentStraps hcmd
        (fun s => State.commandTo_of_len hlen { s with out := [] } h _) (by omega) fun s => execute_loop n hn rfl,
      fun mode s => ?_⟩
    have hloop (m : Nat) := s.ce.kept.loop_setLoop n m (fun l => { l with command := some mode, counted := l.counted || decide (mode = 2) })
    exact ⟨(congrArg Loop.command ((hloop n).trans (if_pos rfl))), fun m hm => (hloop m).trans (if_neg hm), rfl⟩
  · obtain ⟨h7, h8, h9⟩ := isCmd_rc r hr
    obtain ⟨l1, l7, l8, l9⟩ := entryLen_rc r hr
    refine ⟨rowDoes_of_execute State.presentStraps h7
        (fun s => State.commandTo_of_len l7 { s with out := [] } h _) (by omega) fun s => execute_rc r hr rfl,
      fun arg => rowDoes_of_execute State.presentStraps h8
        (fun s => State.commandTo_of_len l8 { s with out := [] } h _) (by omega) fun s => execute_rc r hr rfl,
      fun arg => rowDoes_of_execute State.presentStraps h9
        (fun s => State.commandTo_of_len l9 { s with out := [] } h _) (by omega) fun s => execute_rc r hr rfl,
      fun arg s ha => runs_of_commit (State.presentStraps { s with out := [] }) ha
        (State.commandTo_of_len l1 { s with out := [] } h arg) (by omega) fun t hc => ?_⟩
    rw [commit_setting (isSetting_period r hr)] at hc
    obtain ⟨u, hu, hod, -, htouch⟩ := (s.arrival h (0x2600 + r) 1 4 arg).setValue_stores (0x2600 + r) 1 arg true
    rw [hu, afterWrite_period _ _ _ hr] at hc
    have hce : u.ce = s.ce := htouch.ce.trans (s.arrival_keeps h (0x2600 + r) 1 4 arg).1.ce
    have hrc (q : Nat) := u.clearTable_rc r q
    rw [hce] at hrc
    have hodc : (u.clearTable r).odv (0x2600 + r) 1 = arg := (hod _).trans (if_pos rfl)
    generalize u.clearTable r = c at *
    obtain ⟨host, net, out, free, ch, rfl⟩ := hc
    refine ⟨hodc, ?_, ?_, fun q hq => (hrc q).trans (if_neg hq)⟩
    · exact congrArg Rc.table ((hrc r).trans (if_pos rfl))
    · exact congrArg Rc.generation ((hrc r).trans (if_pos rfl))
  · have h := (s.clearTable_rc r r).trans (if_pos rfl)
    exact ⟨congrArg Rc.table h, congrArg Rc.mask h⟩

section Boundaries

variable (s : State)

theorem State.senseCurrents_touches : Touches [.se] s s.senseCurrents := by
  unfold State.senseCurrents
  refine Touches.foldl _ _ (.refl ..) fun u ch => ?_
  exact (u.setChan_touches ..).trans (.ite (.refl ..) (State.setChan_touches ..))

theorem State.ceRuns_congr {s t : State} (hc : t.ce = s.ce) (hm : t.mode = s.mode) : t.ceRuns = s.ceRuns := by
  unfold State.ceRuns
  rw [hc, hm]

/-- A running engine's snapshot opens branch A. -/
theorem State.ceSnapshot_opens (h : s.ceRuns = true) : s.ceSnapshot.ce.branchA.isSome = true := by
  unfold State.ceSnapshot
  rw [if_neg (by rw [h]; decide)]
  extract_lets x run s1 ws s2 s3
  split
  · extract_lets r s4 s5 a
    split <;> rfl
  · rfl

theorem State.senseCurrents_ceRuns : s.senseCurrents.ceRuns = s.ceRuns :=
  State.ceRuns_congr s.senseCurrents_touches.ce s.senseCurrents_touches.mode

theorem State.tick600_rests (h : s.ceRuns = false) : s.tick600 = s.senseCurrents := by
  unfold State.tick600 State.ceSnapshot
  rw [if_pos (by rw [s.senseCurrents_ceRuns, h]; rfl)]

theorem State.tick600_opens (h : s.ceRuns = true) : s.tick600.ce.branchA.isSome = true := by
  unfold State.tick600
  exact s.senseCurrents.ceSnapshot_opens (s.senseCurrents_ceRuns.trans h)

/-- The following-error timer of a loop that meets it. -/
theorem State.followTimeout_marks (n : Nat) (hr : s.ceRuns = true) (hn : n < 64) (h0 : s.odv (0x2100 + n) 19 ≠ 0)
    (ht : s.odv (0x2100 + n) 19 ≤ (s.ce.kept.loop n).timer) (hf : (s.ce.kept.loop n).fired = false)
    (hm : (s.ce.kept.loop n).mode = 2) (hs : (s.ce.kept.loop n).stale = false) :
    ((s.followTimeout n).ce.kept.loop n).followErr = true ∧ ((s.followTimeout n).ce.kept.loop n).fired = true ∧
    (s.followTimeout n).ce.followSeen = true ∧
    (s.odv (0x2100 + n) 20 = 1 → ((s.followTimeout n).ce.kept.loop n).command = some 3) ∧
    (∀ m, m ≠ n → (s.followTimeout n).ce.kept.loop m = s.ce.kept.loop m) ∧
    Touches (.ce :: logParts) s (s.followTimeout n) := by
  unfold State.followTimeout
  extract_lets l b mark s1 ce s2
  rw [if_neg (by simp only [hr, l, b, hf, hm, hs]; simp; omega)]
  have hloop (m : Nat) : s2.ce.kept.loop m = if m = n then mark l else s.ce.kept.loop m :=
    CeDyn.loop_setLoop ..
  have hl : Touches logParts s2 ((s2.logEvent 0x2001
      (packBytes [(1, n), (3, 0), (4, unsigned 32 l.sp), (4, unsigned 32 l.meas)])).raise irqControl) :=
    (s2.logEvent_touches ..).andThen (State.raise_touches ..)
  have h2 : Touches [.ce] s s2 := (touch_ce ..).trans (touch_ce s1 _)
  have hseen : s2.ce.followSeen = true := rfl
  have hn := (hloop n).trans (if_pos rfl)
  rw [hl.ce]
  refine ⟨by rw [hn], by rw [hn], hseen, fun h => ?_, fun m hm => (hloop m).trans (if_neg hm), h2.andThen hl⟩
  rw [hn]
  exact if_pos h

end Boundaries

/-- Settles O36: the snapshot by whether the engine runs; the timer through what it marks. -/
theorem ceBoundaries : Obligations.CeBoundaries := by
  unfold Obligations.CeBoundaries
  refine ⟨fun s hup hr => ?_, fun s hup hr => ?_, fun n s hup hr hn h0 ht hf hm hs => ?_⟩
  · exact congrArg Host.Outcome.next ((if_pos hup).trans (State.tick600_rests { s with out := [] } hr))
  · have hgv := State.tick600_gv { s with out := [] }
    have hopen := State.tick600_opens { s with out := [] } hr
    have hexec : exec .ceSnapshot s = .next (State.tick600 { s with out := [] }) := congrArg Host.Outcome.next (if_pos hup)
    generalize State.tick600 { s with out := [] } = t at hgv hopen hexec
    exact ⟨_, hexec, hopen, congrArg (·.2.1) hgv, congrArg (·.2.2.1) hgv⟩
  · obtain ⟨h1, h2, h3, h4, h5, h6⟩ := State.followTimeout_marks { s with out := [] } n hr hn h0 ht hf hm hs
    exact ⟨_, congrArg Host.Outcome.next (if_pos hup), h1, h2, h3, h4, h5, (touch_out s []).andThen h6⟩

end Sys2Proof.Machine

namespace Sys2Proof.Machine

open Sys2Proof

section Enter

variable (s : State)

/-- A takeover that ends in service only changes the state. -/
theorem State.moveTo_of_takeover (m : Mode) (c t : Nat) (h : s.mode = .takeover) (hm : m = .active ∨ m = .degraded) :
    s.moveTo m c t = s.transition m c t := by
  unfold State.moveTo
  rw [h]
  rcases hm with rfl | rfl <;> rfl

theorem State.transition_notRunning (m : Mode) (c t : Nat) : (s.transition m c t).notRunning = s.notRunning := by
  unfold State.transition
  extract_lets old nvr s1
  have h : Touches logParts s1 ((s1.logState old m t c).raise irqState) :=
    (s1.logState_touches ..).andThen (State.raise_touches ..)
  exact (h.2 .causes (by decide)).2

/-- The engine in service, its references queued for every node. -/
def State.inServiceNow (s : State) : State :=
  let u : State := { s with ce := { s.ce with inService := true, restored := false, holding := false, awaitMeas := true } }
  u.queueNodes u.presentNodes

theorem State.inServiceNow_touches : Touches [.ce, .gw] s s.inServiceNow ∧
    s.inServiceNow.ce.inService = true ∧ s.inServiceNow.ce.restored = false ∧
    s.inServiceNow.gw.driving = s.gw.driving := by
  unfold State.inServiceNow
  extract_lets c u
  have h := u.queueNodes_touches u.presentNodes
  have hg : (u.queueNodes u.presentNodes).gv = u.gv := State.queueNodes_gv ..
  have h1 : u.ce.inService = true := rfl
  have h2 : u.ce.restored = false := rfl
  have hu : Touches [.ce] s u := touch_ce ..
  have hd : (u.queueNodes u.presentNodes).gw.driving = s.gw.driving := congrArg (·.2.2.2) hg
  exact ⟨hu.andThen h, (congrArg Ce.inService h.ce).trans h1, (congrArg Ce.restored h.ce).trans h2, hd⟩

theorem State.ceEnter_serves (hr : s.ce.restored = true) (hlost : s.red.lost = false) (hl : s.power.leaving = false)
    (hm : s.mode ≠ .takeover) : s.ceEnter = s.inServiceNow := by
  unfold State.ceEnter State.inServiceNow
  rw [if_neg (by simp [hr, hlost, hl])]
  extract_lets c u v
  have hv : v.mode ≠ .takeover := by
    rw [show v.mode = s.mode from (u.queueNodes_touches u.presentNodes).mode]
    exact hm
  exact if_neg hv

/-- The causes in force as a takeover ends. -/
def State.entryCauses (s : State) : Nat :=
  b2n s.cdStoppedNow + 2 * b2n (!decide (s.odv 0x3000 0 = 3)) + 4 * b2n s.reducedNow

theorem State.entryCauses_congr {s t : State} (h : Touches [.ce, .gw] s t) : t.entryCauses = s.entryCauses := by
  unfold State.entryCauses State.cdStoppedNow State.cdBlocked State.cdRailLatched State.reducedNow State.unplaced State.odv
    State.odk
  rw [h.cd, h.power, h.te, h.od]
  unfold State.rail
  rw [h.mpc]

/-- The takeover's record of its end, and FORECAST_NOT_RUNNING. -/
def State.takeoverTimed (s : State) : State :=
  { s.setRed (fun r => { r with
      step := 4
      toService := 4 * (s.frame - s.red.claimFrame)
      silence := min (s.since (max (s.red.lastRecv.getD 0) (s.red.lastHandover.getD 0))) u32Max }) with
    notRunning := !decide (s.odv 0x3000 0 = 3) }

/-- The first frame of a module that enters service. -/
def State.firstFrame (s : State) : State := (if s.gw.driving then s else s.gangwayFrame s.gw.readBack).commitGrants

/-- A takeover that ends: its record, the state it ends in, the log's entry and the first frame. -/
def State.takeoverEnds (s : State) : State :=
  let u := s.takeoverTimed.move (if s.entryCauses = 0 then .active else .degraded) s.entryCauses 4
  (u.redLog 0x8106 (packBytes [(4, 4 * (s.frame - s.red.claimFrame)),
    (4, min (s.since (max (s.red.lastRecv.getD 0) (s.red.lastHandover.getD 0))) u32Max), (1, u.red.cpCase)])).firstFrame

theorem State.ceEnter_takeover (hr : s.ce.restored = true) (hlost : s.red.lost = false) (hl : s.power.leaving = false)
    (hm : s.mode = .takeover) : s.ceEnter = s.inServiceNow.takeoverEnds := by
  obtain ⟨h, -, -, -⟩ := s.inServiceNow_touches
  have hmode := h.mode.trans hm
  unfold State.ceEnter
  rw [if_neg (by simp [hr, hlost, hl])]
  unfold State.inServiceNow at hmode ⊢
  extract_lets +onlyGivenNames c u v
  have hends (w : State) (hw : w.mode = .takeover) : ∀ x y : State, (if w.mode = .takeover then x else y) = x :=
    fun _ _ => if_pos hw
  exact hends v hmode _ _

theorem State.takeoverTimed_touches : Touches [.red, .causes] s s.takeoverTimed :=
  (touch_red s _).andThen (touch_notRunning ..)

theorem State.firstFrame_touches : Touches (.bm :: .ferry :: nodeParts) s s.firstFrame := by
  unfold State.firstFrame
  exact (Touches.ite (.refl ..) (s.gangwayFrame_touches _)).andThen (rs := .bm :: .ferry :: nodeParts)
    (State.commitGrants_touches _)

/-- From its first frame a module drives where it may. -/
theorem State.firstFrame_driving : s.firstFrame.gw.driving = (s.gw.driving || s.drives) := by
  unfold State.firstFrame
  rw [(State.commitGrants_touches _).gw]
  cases h : s.gw.driving with
  | true => exact h
  | false => exact (s.gangwayFrame_drives _).1

/-- The state that a takeover ends in, before the log's entry and the first frame. -/
structure EndsTakeover (s u : State) : Prop where
  mode : u.mode = if s.entryCauses = 0 then .active else .degraded
  trigger : u.lastTrigger = 4
  causes : u.causes = s.entryCauses
  notRunning : u.notRunning = !decide (s.odv 0x3000 0 = 3)
  time : u.red.toService = 4 * (s.frame - s.red.claimFrame)
  ce : u.ce = s.ce
  power : u.power = s.power
  gw : u.gw = s.gw

theorem State.takeoverTimed_ends (hm : s.mode = .takeover) (hl : s.power.leaving = false) :
    EndsTakeover s (s.takeoverTimed.move (if s.entryCauses = 0 then .active else .degraded) s.entryCauses 4) := by
  have htimed := s.takeoverTimed_touches
  have hnote : s.takeoverTimed.notRunning = (!decide (s.odv 0x3000 0 = 3)) := rfl
  have hred : s.takeoverTimed.red.toService = 4 * (s.frame - s.red.claimFrame) := rfl
  generalize s.takeoverTimed = v at htimed hnote hred
  rw [v.move_of_staying _ _ _ ((congrArg Power.leaving htimed.power).trans hl),
    v.moveTo_of_takeover _ _ _ (htimed.mode.trans hm) (by split <;> simp)]
  obtain ⟨hmode, -, htrig, hcauses⟩ := v.transition_notes (if s.entryCauses = 0 then .active else .degraded) s.entryCauses 4
  have htouch := v.transition_touches (if s.entryCauses = 0 then .active else .degraded) s.entryCauses 4
  exact ⟨hmode, htrig, hcauses, (v.transition_notRunning ..).trans hnote, by rw [htouch.red]; exact hred,
    htouch.ce.trans htimed.ce, htouch.power.trans htimed.power, htouch.gw.trans htimed.gw⟩

theorem EndsTakeover.drives {s u : State} (h : EndsTakeover s u) : u.drives = s.power.gate := by
  unfold State.drives
  rw [h.power, h.mode]
  by_cases hc : s.entryCauses = 0
  · rw [if_pos hc]
    exact Bool.and_true _
  · rw [if_neg hc]
    exact Bool.and_true _

/-- What the log's entry and the first frame leave of it. -/
theorem EndsTakeover.first {s u : State} (h : EndsTakeover s u) (e p : Nat) :
    (u.redLog e p).firstFrame.mode = (if s.entryCauses = 0 then .active else .degraded) ∧
    (u.redLog e p).firstFrame.lastTrigger = 4 ∧ (u.redLog e p).firstFrame.causes = s.entryCauses ∧
    (u.redLog e p).firstFrame.notRunning = (!decide (s.odv 0x3000 0 = 3)) ∧ (u.redLog e p).firstFrame.ce = s.ce ∧
    (u.redLog e p).firstFrame.gw.driving = (s.gw.driving || s.power.gate) ∧ (u.redLog e p).firstFrame.power = s.power ∧
    (u.redLog e p).firstFrame.red.toService = 4 * (s.frame - s.red.claimFrame) := by
  have hlog := u.redLog_touches e p
  have ht := hlog.andThen (rs := .bm :: .ferry :: nodeParts) (u.redLog e p).firstFrame_touches
  obtain ⟨hmode, -, htrig⟩ := ht.2 .mode (by decide)
  obtain ⟨hcauses, hnr⟩ := ht.2 .causes (by decide)
  refine ⟨hmode.trans h.mode, htrig.trans h.trigger, hcauses.trans h.causes, hnr.trans h.notRunning, ht.ce.trans h.ce, ?_,
    ht.power.trans h.power, by rw [ht.red]; exact h.time⟩
  rw [State.firstFrame_driving, State.drives_congr (s := u) hlog.widen, h.drives, hlog.gw, h.gw]

end Enter

/-- Settles O38: the engine's entry into service, and the takeover that ends with it. -/
theorem ceEntersService : Obligations.CeEntersService := by
  unfold Obligations.CeEntersService
  refine ⟨fun s hup hr hlost hl hm c hc => ?_, fun s hup hr hlost hl hm => ?_, fun s hup h => ?_⟩
  · obtain ⟨hv, hin, hres, hdrive⟩ := State.inServiceNow_touches { s with out := [] }
    have hexec := State.ceEnter_takeover { s with out := [] } hr hlost hl hm
    have hcauses : (State.inServiceNow { s with out := [] }).entryCauses = c := by
      rw [State.entryCauses_congr hv, hc]
      unfold State.entryCauses
      rw [decide_not]
      rfl
    generalize State.inServiceNow { s with out := [] } = v at hv hin hres hdrive hexec hcauses
    obtain ⟨h1, h2, h3, h4, h5, h6, h7, h8⟩ := (v.takeoverTimed_ends (hv.mode.trans hm)
      ((congrArg Power.leaving hv.power).trans hl)).first 0x8106 (packBytes [(4, 4 * (v.frame - v.red.claimFrame)),
        (4, min (v.since (max (v.red.lastRecv.getD 0) (v.red.lastHandover.getD 0))) u32Max),
        (1, (v.takeoverTimed.move (if v.entryCauses = 0 then .active else .degraded) v.entryCauses 4).red.cpCase)])
    refine ⟨_, congrArg Host.Outcome.next ((if_pos hup).trans hexec), h1.trans (by rw [hcauses]), h2, h3.trans hcauses, ?_, ?_, ?_, ?_, ?_, ?_⟩
    · refine h4.trans ?_
      rw [decide_not, show v.odv 0x3000 0 = s.odv 0x3000 0 from (KeepsEntries.of_od (ks := []) hv.od).odv List.not_mem_nil]
    · exact (congrArg Ce.inService h5).trans hin
    · exact (congrArg Ce.restored h5).trans hres
    · refine h6.trans ?_
      rw [hdrive, hv.power]
    · exact congrArg Power.gate (h7.trans hv.power)
    · refine h8.trans ?_
      rw [hv.frame, hv.red]
  · obtain ⟨h, h1, h2, -⟩ := State.inServiceNow_touches { s with out := [] }
    exact ⟨_, congrArg Host.Outcome.next ((if_pos hup).trans (State.ceEnter_serves { s with out := [] } hr hlost hl hm)), h.mode,
      h1, h2, (touch_out s []).andThen h⟩
  · refine congrArg Host.Outcome.next ((if_pos hup).trans (if_pos ?_))
    rcases h with h | h | h <;> simp [h]

end Sys2Proof.Machine

/-! ## Ferry links and landings (R322 to R345) -/

namespace Sys2Proof.Machine

open Sys2Proof

/-- A module whose links 0 and 1 are UP, with a TIME frame waiting at berth 0 of link 1. -/
def neighbourBerth : State :=
  { mode := .active, power := { servicesUp := true }, clk := { serdes := true }, od := [(okey 0x9001 0, 0x0101)]
    ferry := { links := [(0, { st := 4 }), (1, { st := 4 })], berths := [(128, { time := true })] } }

theorem neighbourBerth_stays : (State.linkFails neighbourBerth 0 1).berth 0 128 = { time := true } := by
  decide +kernel

/-- Refutes O39: the berths of a link that fails are emptied, but the statement speaks of every number `b`, and berth 128 of
link 0 is berth 0 of link 1 in the model's table, which the failure of link 0 leaves as it is. -/
theorem not_linkTraining : ¬ Obligations.LinkTraining := by
  unfold Obligations.LinkTraining
  intro h
  obtain ⟨-, -, -, -, -, hdown⟩ := h 0 neighbourBerth (by decide +kernel)
  obtain ⟨t, ht, -, -, hb, -⟩ := hdown (by decide +kernel) 1
  have hexec : exec (.linkDown 0 1) neighbourBerth = .next (State.linkFails neighbourBerth 0 1) := rfl
  obtain rfl := Host.Outcome.next.inj (hexec.symm.trans ht)
  exact absurd (neighbourBerth_stays.symm.trans (hb 128)) (by decide)

end Sys2Proof.Machine

/-! ## The mailbox and the transfers of the field network (R355 to R365) -/

namespace Sys2Proof.Machine

open Sys2Proof

section Raise

variable (s : State) (c : Nat)

theorem State.sendVector_host (v : Nat) : (s.sendVector v).host = { s.host with pba := (s.sendVector v).host.pba } := by
  unfold State.sendVector
  extract_lets ctl
  split
  · rfl
  · rw [(s.emit_touches _).host]

/-- Raising a cause sets its bit; of the host's port nothing else changes but the pending vectors. -/
theorem State.raise_host :
    (s.raise c).host = { s.host with intStatus := s.host.intStatus ||| 2 ^ c, pba := (s.raise c).host.pba } := by
  unfold State.raise
  extract_lets s1
  split
  · rw [State.sendVector_host]
  · rfl

theorem bitAt_or_pow (v c : Nat) : bitAt (v ||| 2 ^ c) c = true := by
  unfold bitAt
  rw [Nat.testBit_or, Nat.testBit_two_pow_self, Bool.or_true]

theorem State.raise_sets : bitAt (s.raise c).host.intStatus c = true := by
  rw [State.raise_host]
  exact bitAt_or_pow ..

end Raise

section Mailbox

/-- The request that ends: STATUS, DONE and the interrupt. -/
structure MailboxEnds (u t : State) (d : Done) : Prop where
  status : t.host.status = d.status
  done : t.host.done = true
  busy : t.host.busy = false
  interrupt : bitAt t.host.intStatus irqMailbox = true
  touches : Touches [.host, .out] u t

theorem State.mailboxDone_ends (d : Done) (read : Bool) : MailboxEnds d.state (State.mailboxDone d read) d := by
  unfold State.mailboxDone
  extract_lets u h0 h h2 u2
  have hraise := u2.raise_touches irqMailbox
  have hemit := (u2.raise irqMailbox).emit_touches (.answer .host d.status d.len d.value)
  have hh : u2.host.status = d.status ∧ u2.host.done = true ∧ u2.host.busy = false := by
    show h2.status = d.status ∧ h2.done = true ∧ h2.busy = false
    unfold h2
    split <;> exact ⟨rfl, rfl, rfl⟩
  obtain ⟨h1, h2, h3⟩ := hh
  refine ⟨?_, ?_, ?_, ?_, ((touch_host u _).andThen (rs := [.host, .out]) hraise).trans hemit.widen⟩
  all_goals rw [hemit.host]
  · rw [State.raise_host]; exact h1
  · rw [State.raise_host]; exact h2
  · rw [State.raise_host]; exact h3
  · exact State.raise_sets ..

/-- A read that ends leaves the object's size and value. -/
theorem State.mailboxDone_reads (d : Done) (h : d.status = stOk) :
    (State.mailboxDone d true).host.length = d.len ∧
    bytesAt (State.mailboxDone d true).host.area 0 d.len = d.value % 2 ^ (8 * d.len) ∧
    (d.state.power.mateHigh = false → .answer .host d.status d.len d.value ∈ (State.mailboxDone d true).out) := by
  unfold State.mailboxDone
  extract_lets u b0 b b2 u2
  have hb2 : b2 = { b with length := d.len, area := setBytes b.area 0 d.len d.value } := if_pos ⟨rfl, h⟩
  have hu2 : u2.host = b2 := rfl
  have hpow : u2.power = u.power := rfl
  clear_value u2
  refine ⟨?_, ?_, fun hm => State.emit_out _ _ ?_⟩
  · rw [(State.emit_touches _ _).host, State.raise_host, hu2, hb2]
  · rw [(State.emit_touches _ _).host, State.raise_host, hu2, hb2]
    exact bytesAt_setBytes ..
  · rw [(u2.raise_touches _).power, hpow]
    exact hm

/-- The read that a host's request asks for. -/
def readOf (r : Req) : Ask :=
  { index := r.index, sub := r.sub, write := false, len := 0, value := 0, signed := none, source := sourceFor .host false r.index }

variable (s : State)

/-- A host's read through the mailbox: the request is counted, carried out and ends. -/
theorem State.hostRequest_reads (r : Req) (hreach : s.hostReaches = true) (hs : r.signed = false) (hi : r.index < 65536)
    (hk : r.sub < 256) : s.hostRequest 1 r [] = State.mailboxDone
      ((State.count { s with host := s.host.mailboxSet 1 r } 0x1001 6).doRead (readOf r)) true := by
  have hset : s.host.mailboxSet 1 r = { s.host with op := 1, sign := false, index := r.index, sub := r.sub } := by
    unfold HostPort.mailboxSet
    dsimp only
    rw [hs, Nat.mod_eq_of_lt hi, Nat.mod_eq_of_lt hk, if_neg (by decide), if_neg (by decide)]
  unfold State.hostRequest
  rw [if_pos hreach, hset]
  rfl

theorem State.doRead_good (a : Ask) {e : Entry} (he : entryOf a.index a.sub = some e) (h : s.readStatus a = stOk)
    (hsec : a.secure = false) : s.doRead a = ⟨stOk, e.readBytes, s.odRead a.index a.sub e, s⟩ := by
  unfold State.doRead State.accepted
  rw [he, hsec]
  exact if_pos h

theorem State.doRead_refused (a : Ask) (h : s.readStatus a ≠ stOk) :
    s.doRead a = ⟨s.readStatus a, 0, 0, s.refuse a.index a.sub (s.readStatus a) a.source⟩ := by
  unfold State.doRead
  dsimp only
  split
  · rfl
  · exact if_neg h

end Mailbox

/-- Settles O43: a read that passes its checks, and one that does not, through what the end of a mailbox request leaves. -/
theorem dictionaryReads : Obligations.DictionaryReads := by
  unfold Obligations.DictionaryReads
  intro r a u s hv hsign hreach hi hk hu ha
  have hreq := State.hostRequest_reads { s with out := [] } r hreach hsign hi hk
  rw [show State.count { s with out := [], host := s.host.mailboxSet 1 r } 0x1001 6 = u from hu.symm] at hreq
  have hexec : exec (.dictionaryRead r) s = .next (State.mailboxDone (u.doRead (readOf r)) true) := by
    refine congrArg Host.Outcome.next ?_
    show State.requestRead { s with out := [] } r = _
    unfold State.requestRead
    rw [hv]
    exact hreq
  have hut : Touches [.dictionary, .host, .out] s u := by
    rw [hu]
    exact ((touch_out s []).andThen (rs := [.host, .out]) (touch_host _ _)).andThen (State.count_touches ..)
  have hread : u.readStatus (readOf r) = u.readStatus a := by rw [ha]; rfl
  refine ⟨fun e he hst => ?_, fun hst => ?_⟩
  · have hdo := State.doRead_good u (readOf r) he (hread.trans hst) rfl
    rw [hdo] at hexec
    have hend := State.mailboxDone_ends ⟨stOk, e.readBytes, u.odRead r.index r.sub e, u⟩ true
    obtain ⟨hlen, hval, hans⟩ := State.mailboxDone_reads ⟨stOk, e.readBytes, u.odRead r.index r.sub e, u⟩ rfl
    exact ⟨_, hexec, hend.status, hend.done, hlen, hval, hend.interrupt,
      fun hm => hans ((congrArg Power.mateHigh hut.power).trans hm), hend.touches.od,
      hut.andThen (rs := [.dictionary, .host, .out]) hend.touches⟩
  · have hdo := State.doRead_refused u (readOf r) (by rw [hread]; exact hst)
    rw [hdo] at hexec
    have hend := State.mailboxDone_ends ⟨u.readStatus (readOf r), 0, 0,
      u.refuse r.index r.sub (u.readStatus (readOf r)) (readOf r).source⟩ true
    exact ⟨_, hexec, hend.status.trans hread, hend.done,
      (hut.andThen (rs := [.dictionary, .log, .host, .out]) (u.refuse_touches ..)).trans hend.touches.widen⟩

end Sys2Proof.Machine

namespace Sys2Proof.Machine

open Sys2Proof

section Transfers

variable (s : State)

theorem State.badOp_ends : Touches logParts s s.badOp ∧ s.badOp.host.status = stRange ∧
    s.badOp.host.done = true ∧ s.badOp.host.busy = false ∧ bitAt s.badOp.host.intStatus irqMailbox = true := by
  unfold State.badOp State.mailboxGo
  extract_lets h0 h1 s1 h2 trailer source a d
  have hop : h2.op ≠ 1 ∧ h2.op ≠ 2 := by
    show h1.op ≠ 1 ∧ h1.op ≠ 2
    unfold h1
    split
    · exact ⟨show (0 : Nat) ≠ 1 by decide, show (0 : Nat) ≠ 2 by decide⟩
    · next hn => exact not_or.mp hn
  rw [if_neg hop.1, if_neg hop.2]
  have hend := State.mailboxDone_ends ⟨stRange, 0, 0, s1.refuse h2.index h2.sub stRange source⟩ false
  have hs1 : Touches [.host, .dictionary] s s1 := (touch_host s _).andThen (State.count_touches ..)
  exact ⟨(hs1.andThen (rs := logParts) (s1.refuse_touches ..)).trans hend.touches.widen, hend.status, hend.done, hend.busy,
    hend.interrupt⟩

theorem State.sendDap_touches (port dest : Nat) (h : DapHead) (len : Nat) (data : Blob) :
    Touches [.out] s (s.sendDap port dest h len data) := s.emit_touches _

theorem State.sendAnswer_touches (k : Kept) : Touches [.out] s (s.sendAnswer k) := by
  unfold State.sendAnswer
  extract_lets n
  exact .ite (s.sendDap_touches ..) (Touches.foldl _ _ (.refl ..) fun u _ => u.sendDap_touches ..)

/-- An answer leaves the transfers that are open. -/
theorem State.dapAnswer_open (d : Done) (p m g : Nat) (w : Bool) (e : Echo) :
    (State.dapAnswer d p m g w e).net.open_ = d.state.net.open_ := by
  unfold State.dapAnswer State.keepAnswer
  extract_lets k old
  have h := (d.state.sendAnswer_touches k).net
  exact congrArg (·.open_) h

theorem State.abandon_open (x : Transfer) : (s.abandon x).net.open_ = s.net.open_.filter (fun y => !x.same y) := by
  unfold State.abandon
  extract_lets s1 s2
  have h : Touches logParts (s.closeTransfer x) s2 :=
    ((State.refuse_touches ..).trans (s1.count_touches ..).widen).trans (State.raise_touches ..).widen
  rw [State.dapAnswer_open, h.net]
  rfl

/-- A segment that goes on a transfer, and does not end it. -/
theorem State.dapSegment_extends (p m g : Nat) (d n : Nat) (straps : List Nat) {x : Transfer} (h : s.transferOf p m g = some x)
    (hn : x.got + n < streamLen x.len x.signed) (u : Transfer)
    (hu : u = { x with data := x.data + bytesAt d 0 n <<< (8 * x.got), got := x.got + n }) :
    s.dapSegment p m g x.got d n straps = State.sendAck { s.count 0x1020 1 with
      net := { s.net with open_ := s.net.open_.map (fun y => if x.same y then u else y) } } u := by
  unfold State.dapSegment
  rw [h, hu]
  dsimp only
  rw [if_neg (by omega), if_neg (by omega)]
  rfl

theorem State.dapSegment_elsewhere (p m g o d n : Nat) (straps : List Nat) {x : Transfer} (h : s.transferOf p m g = some x)
    (ho : o ≠ x.got) : s.dapSegment p m g o d n straps = (s.count 0x1020 1).abandon x := by
  unfold State.dapSegment
  rw [h]
  exact if_pos (.inl ho)

theorem State.dapSegment_dropped (p m g o d n : Nat) (straps : List Nat) (h : s.transferOf p m g = none) :
    s.dapSegment p m g o d n straps = s.dapDrop := by
  unfold State.dapSegment
  rw [h]

theorem State.dapAbort_dropped (p m g : Nat) (h : s.transferOf p m g = none) : s.dapAbort p m g = s.dapDrop := by
  unfold State.dapAbort
  rw [h]

theorem State.dapAbort_abandons (p m g : Nat) {x : Transfer} (h : s.transferOf p m g = some x) :
    s.dapAbort p m g = (s.count 0x1020 1).abandon x := by
  unfold State.dapAbort
  rw [h]

theorem State.dapTimeout_stays (p m g : Nat) (h : s.transferOf p m g = none) : s.dapTimeout p m g = s := by
  unfold State.dapTimeout
  rw [h]

theorem State.dapTimeout_abandons (p m g : Nat) {x : Transfer} (h : s.transferOf p m g = some x) :
    s.dapTimeout p m g = s.abandon x := by
  unfold State.dapTimeout
  rw [h]

end Transfers

/-- Settles O45: the illegal operation through the end of a mailbox request; a frame of a transfer by whether the transfer is
open. -/
theorem mailboxAndDap : Obligations.MailboxAndDap := by
  unfold Obligations.MailboxAndDap
  refine ⟨fun s h => ?_, fun p m g s hans => ⟨fun hx o d n => ⟨?_, ?_, ?_, ?_⟩,
    fun x hx => ⟨?_, ?_, fun d n hn u hu => ?_, fun o d n ho => ?_⟩,
    fun x => s.abandon_open x⟩⟩
  · obtain ⟨h0, h1, h2, h3, h4⟩ := State.badOp_ends { s with out := [] }
    exact ⟨_, congrArg Host.Outcome.next (if_pos h), h1, h2, h3, h4, (touch_out s []).andThen h0⟩
  · exact congrArg Host.Outcome.next ((if_pos hans).trans (State.dapSegment_dropped { s with out := [] } _ _ _ _ _ _ _ hx))
  · exact congrArg Host.Outcome.next ((if_pos hans).trans (State.dapAbort_dropped { s with out := [] } p m g hx))
  · exact congrArg Host.Outcome.next ((if_pos hans).trans (State.dapTimeout_stays { s with out := [] } p m g hx))
  · exact congrArg Host.Outcome.next (if_pos hans)
  · exact congrArg Host.Outcome.next ((if_pos hans).trans (State.dapAbort_abandons { s with out := [] } p m g hx))
  · exact congrArg Host.Outcome.next ((if_pos hans).trans (State.dapTimeout_abandons { s with out := [] } p m g hx))
  · exact congrArg Host.Outcome.next ((if_pos hans).trans (State.dapSegment_extends { s with out := [] } p m g d n _ hx hn u hu))
  · exact congrArg Host.Outcome.next ((if_pos hans).trans (State.dapSegment_elsewhere { s with out := [] } p m g o d n _ hx ho))

end Sys2Proof.Machine

/-! ## The host port (R9, R353, R359, R410, R411) -/

namespace Sys2Proof.Machine

open Sys2Proof

section Port

variable (s : State) (o w v : Nat)

theorem State.mirrorRead_touches : Touches logParts s (s.mirrorRead o w).2 := by
  unfold State.mirrorRead
  extract_lets x e val
  exact .ite s.violation_touches.widen (.refl ..)

theorem State.tableRead_touches : Touches (.hold :: fenceParts) s (s.tableRead o w).2 := by
  unfold State.tableRead
  extract_lets x r off a p s1 t
  split
  · exact (s.violation_touches ..).widen
  · exact s.siodWords_touches p

theorem State.readLo_touches (r : LoReg) : Touches [.host] s (s.readLo r).2 := by cases r <;> exact touch_host ..

theorem State.readHi_touches : Touches [.host] s (s.readHi o).2 := by
  unfold State.readHi
  extract_lets h
  split
  · exact touch_host ..
  · split <;> exact touch_host ..

/-- A regular read may count, log and fence what the words it reads meet, and latch or take a high half. -/
theorem State.bar0Read_touches : Touches (.hold :: fenceParts) s (s.bar0Read o w).2 := by
  have hlo (r : LoReg) : Touches (.hold :: fenceParts) s (s.readLo r).2 := (s.readLo_touches r).widen
  unfold State.bar0Read
  split
  · exact (s.mirrorRead_touches o w).widen
  split
  · exact s.tableRead_touches o w
  split
  · exact .refl ..
  split
  · exact .refl ..
  split
  · exact hlo _
  split
  · exact hlo _
  split
  · exact hlo _
  split
  · exact (s.readHi_touches o).widen
  · exact .refl ..

/-- A write of one word that is regular and not held. -/
theorem State.hostWrite_word (hr : s.hostReaches = true) (hreg : irregular o 4 true = false) (hh : s.heldWord o = false) :
    s.hostWrite o 4 v = s.writeWord o (v % 2 ^ 32) := by
  unfold State.hostWrite
  have hal : alignedAccess o 4 = true := by
    unfold irregular at hreg
    simpa using (Bool.or_eq_false_iff.mp hreg).1
  rw [if_neg (by rw [hr]; decide)]
  extract_lets s1
  have hs1 : s1 = s := if_neg (by rw [hreg]; simp [accessWords, hh])
  rw [hs1, if_neg (by rw [hal]; decide), if_neg (by decide)]

/-- A write of a held word is counted and dropped. -/
theorem State.hostWrite_held (hr : s.hostReaches = true) (hreg : irregular o 4 true = false) (hh : s.heldWord o = true) :
    s.hostWrite o 4 v = s.count 0x1001 7 := by
  unfold State.hostWrite
  have hal : alignedAccess o 4 = true := by
    unfold irregular at hreg
    simpa using (Bool.or_eq_false_iff.mp hreg).1
  rw [if_neg (by rw [hr]; decide)]
  extract_lets s1
  have hs1 : s1 = s.count 0x1001 7 := if_pos (by rw [hreg]; simp [accessWords, hh])
  have hh1 : s1.heldWord o = true := by rw [hs1]; exact hh
  rw [if_neg (by rw [hal]; decide), if_neg (by decide)]
  unfold State.writeWord
  rw [hh1, if_neg (by simp)]
  exact hs1

/-- A regular write of two words, neither of them held. -/
theorem State.hostWrite_words (hr : s.hostReaches = true) (hreg : irregular o 8 true = false) (hh : s.heldWord o = false)
    (hh4 : s.heldWord (o + 4) = false) :
    s.hostWrite o 8 v = (s.writeWord o (v % 2 ^ 32)).writeWord (o + 4) (v / 2 ^ 32 % 2 ^ 32) := by
  unfold State.hostWrite
  have hal : alignedAccess o 8 = true := by
    unfold irregular at hreg
    simpa using (Bool.or_eq_false_iff.mp hreg).1
  rw [if_neg (by rw [hr]; decide)]
  extract_lets s1
  have hs1 : s1 = s := if_neg (by rw [hreg]; simp [accessWords, hh, hh4])
  rw [hs1, if_neg (by rw [hal]; decide), if_pos rfl]

theorem State.hostRead_irregular (hr : s.hostReaches = true) (hi : irregular o w false = true) :
    s.hostRead o w = (s.count 0x1001 7).emit (.bar0 0) := by
  unfold State.hostRead
  rw [if_neg (by rw [hr]; decide), if_pos hi]

theorem State.hostRead_regular (hr : s.hostReaches = true) (hi : irregular o w false = false) :
    s.hostRead o w = (s.bar0Read o w).2.emit (.bar0 (s.bar0Read o w).1) := by
  unfold State.hostRead
  rw [if_neg (by rw [hr]; decide), if_neg (by rw [hi]; decide)]

theorem State.writeEnables_stores : Touches [.host, .out] s (s.writeEnables v) ∧
    (s.writeEnables v).host.intEnable = v % 2 ^ 16 ∧ (s.writeEnables v).host.intStatus = s.host.intStatus := by
  unfold State.writeEnables
  extract_lets old h0 s1
  have h1 : Touches [.host, .out] s s1 := (touch_host s _).widen
  have h (l : List Nat) := foldl_keeps (fun u : State => (u.host.intEnable, u.host.intStatus))
    (fun (s : State) n => s.sendVector (s.vectorOf n)) (fun u n => by rw [State.sendVector_host]) l s1
  refine ⟨Touches.foldl _ _ h1 fun u n => u.sendVector_touches _, ?_, ?_⟩
  · exact congrArg Prod.fst (h _)
  · exact congrArg Prod.snd (h _)

/-- A reset of the function. -/
theorem State.ctlReset_resets (k : CtlReset) (ha : s.answers = true) :
    Touches [.dictionary, .host, .free] s (s.ctlReset k) ∧
    (s.ctlReset k).odv 0x1001 5 = min (s.odv 0x1001 5 + 1) u32Max ∧
    (s.ctlReset k).host.d3hot = false ∧ (s.ctlReset k).host.busy = false ∧ (s.ctlReset k).host.done = false ∧
    (s.ctlReset k).host.intStatus = 0 ∧ (s.ctlReset k).host.intEnable = 0 ∧ (s.ctlReset k).host.msix = [] ∧
    (s.ctlReset k).host.pba = 0 ∧ (s.ctlReset k).host.intMap = s.host.intMap ∧
    (k = .flr → (s.ctlReset k).host.linkRate = s.host.linkRate ∧ (s.ctlReset k).host.linkWidth = s.host.linkWidth) := by
  unfold State.ctlReset
  rw [if_neg (by rw [ha]; decide)]
  extract_lets h s1 s2
  have h2 : Touches [.dictionary, .host, .free] s s2 := (touch_host s s1.host).andThen (s1.count_touches ..)
  have hod : s2.odv 0x1001 5 = min (s.odv 0x1001 5 + 1) u32Max := (s1.count_odv 0x1001 5 1 0x1001 5).trans (if_pos rfl)
  have hl := (h2.trans s2.hostLinkUp_touches.widen)
  have hlod : s2.hostLinkUp.odv 0x1001 5 = s2.odv 0x1001 5 := rfl
  cases k
  case flr => exact ⟨h2, hod, rfl, rfl, rfl, rfl, rfl, rfl, rfl, rfl, fun _ => ⟨rfl, rfl⟩⟩
  all_goals exact ⟨hl, hlod.trans hod, rfl, rfl, rfl, rfl, rfl, rfl, rfl, rfl, nofun⟩

end Port

/-- Settles O46: reads and writes by the branch of the port that their offset and width select; resets and power states by
what they set. -/
theorem hostPort : Obligations.HostPort := by
  unfold Obligations.HostPort
  refine ⟨fun o w s hr hi => ⟨?_, ?_⟩, fun o w s hr hi => ?_, fun o w s hr hi => ⟨?_, ?_⟩, fun s hr => ⟨?_, ?_, ?_⟩, fun f s hf => ?_,
    fun mask s hr => ?_, fun v s hr => ?_, fun o v s hr hi => ⟨fun hh => ?_, fun hh => ?_⟩, fun o v s hr hi hh hh4 => ?_,
    fun v s hr => ?_, fun s ha => ?_, fun k s ha => ?_, fun s ha => ⟨?_, ?_⟩⟩
  · exact congrArg Host.Outcome.next (State.hostRead_irregular { s with out := [] } o w hr hi)
  · exact congrArg Host.Outcome.next ((if_pos hr).trans ((if_pos hi).trans (if_neg Bool.false_ne_true)))
  · exact congrArg Host.Outcome.next ((if_pos hr).trans ((if_pos hi).trans (if_pos rfl)))
  · exact congrArg Host.Outcome.next (State.hostRead_regular { s with out := [] } o w hr hi)
  · refine ⟨_, congrArg Host.Outcome.next (State.hostRead_regular { s with out := [] } o w hr hi), ?_⟩
    exact (touch_out s []).andThen ((State.bar0Read_touches { s with out := [] } o w).trans (State.emit_touches ..).widen)
  · exact congrArg Host.Outcome.next (if_pos hr)
  · exact congrArg Host.Outcome.next (if_pos hr)
  · exact congrArg Host.Outcome.next (if_pos hr)
  · have hval : (s.readHi 0xC).1 = s.host.latchFrame.getD (hiHalf s.frame) := rfl
    exact ⟨hval.trans (by rw [hf]; rfl), rfl⟩
  · exact congrArg Host.Outcome.next (if_pos hr)
  · obtain ⟨h1, h2, h3⟩ := State.writeEnables_stores { s with out := [] } v
    exact ⟨_, congrArg Host.Outcome.next (if_pos hr), h2, h3, (touch_out s []).andThen h1⟩
  · exact congrArg Host.Outcome.next (State.hostWrite_word { s with out := [] } o v hr hi hh)
  · exact congrArg Host.Outcome.next (State.hostWrite_held { s with out := [] } o v hr hi hh)
  · exact congrArg Host.Outcome.next (State.hostWrite_words { s with out := [] } o v hr hi hh hh4)
  · refine congrArg Host.Outcome.next ((State.hostWrite_word { s with out := [] } 0 v hr (by decide) rfl).trans ?_)
    unfold State.writeWord
    exact if_pos rfl
  · obtain ⟨-, -, -, -, -, -, -, -, -, -, h⟩ := State.ctlReset_resets { s with out := [] } .flr ha
    exact ⟨_, rfl, h rfl⟩
  · obtain ⟨h1, h2, h3, h4, h5, h6, h7, h8, h9, h10, -⟩ := State.ctlReset_resets { s with out := [] } k ha
    exact ⟨_, rfl, h3, h4, h5, h6, h7, h8, h9, h10, h2, (touch_out s []).andThen h1⟩
  · exact congrArg Host.Outcome.next (if_pos ha)
  · exact congrArg Host.Outcome.next (if_pos ha)

end Sys2Proof.Machine

/-! ## The field network (R358, R370, R394, R407) -/

namespace Sys2Proof.Machine

open Sys2Proof

section Publications

variable (s : State)

theorem State.publishAll_touches : Touches [.ferry, .dictionary, .out] s s.publishAll := by
  unfold State.publishAll
  extract_lets p head group s1 s2
  have h1 : Touches [.out, .dictionary] s s1 :=
    ((s.sendDap_touches ..).trans (State.sendDap_touches ..)).andThen (State.count_touches ..)
  have h2 : Touches [.ferry] s1 s2 := by
    refine Touches.foldl _ _ (.refl ..) fun u l => ?_
    split
    · exact .ite (touch_ferry ..) (.refl ..)
    · exact .refl ..
  have h3 := Touches.foldl (ps := [.ferry, .out]) (fun (s : State) l => s.peerSend l 0x31 p) (upTo 49) (.refl _ s2)
    fun u l => u.peerSend_touches l 0x31 p (by decide)
  exact (h1.andThen (rs := [.ferry, .dictionary, .out]) h2).trans h3.widen

/-- A change that is due for publication goes out, and waits no more. -/
theorem State.publishChange_publishes (hm : s.mode ≠ .boot)
    (hd : s.net.pubDigest ≠ s.digest ∨ s.net.pubGeneration ≠ s.generation ∨ s.net.pubDue = true)
    (ht : s.net.pubTime = 0 ∨ s.net.pubTime + 100000 ≤ s.intake) :
    s.publishChange.net.pubDigest = s.digest ∧ s.publishChange.net.pubGeneration = s.generation ∧
    s.publishChange.net.pubDue = false ∧ s.publishChange.net.pubTime = s.intake := by
  have htouch := s.noteChange_touches
  have hnote : s.noteChange.net = { s.net with pubDigest := s.digest, pubGeneration := s.generation, pubDue := true } := by
    unfold State.noteChange
    extract_lets n
    split
    · rfl
    next hn =>
      obtain ⟨h1, h2⟩ := not_or.mp hn
      have hdue : n.pubDue = true := (hd.resolve_left h1).resolve_left h2
      rw [show ({ s.net with pubDigest := s.digest, pubGeneration := s.generation, pubDue := true } : FieldNet) =
        { s.net with pubDigest := n.pubDigest, pubGeneration := n.pubGeneration, pubDue := n.pubDue } from by
          rw [Classical.not_not.mp h1, Classical.not_not.mp h2, hdue]]
  unfold State.publishChange
  generalize s.noteChange = u at htouch hnote
  have hu : u.mode ≠ .boot ∧ u.net.pubDue = true ∧ (u.net.pubTime = 0 ∨ u.net.pubTime + 100000 ≤ u.intake) := by
    rw [htouch.mode, htouch.intake, hnote]
    exact ⟨hm, rfl, ht⟩
  have hpub : u.publishAll.net = u.net := u.publishAll_touches.net
  have hintake : u.publishAll.intake = s.intake := u.publishAll_touches.intake.trans htouch.intake
  dsimp only
  rw [if_pos hu]
  dsimp only
  rw [hpub, hnote, hintake]
  exact ⟨rfl, rfl, rfl, rfl⟩

theorem isSetting_cursor : ∀ c < 3, isSetting 0xC102 (c + 1) false = true ∧ entryLen 0xC102 (c + 1) = 8 := by decide +kernel

theorem State.afterWrite_cursor (k old : Nat) : s.afterWrite 0xC102 k old = s := by
  unfold State.afterWrite
  simp

end Publications

/-- Settles O47: links, publications, and the two command rows. -/
theorem fieldNetwork : Obligations.FieldNetwork := by
  unfold Obligations.FieldNetwork
  refine ⟨fun up s hs hu => ?_, fun up s hs hu => ?_, fun s hs hm ht => ?_, fun s hs hm ht => ?_, fun s hs hm hd ht => ?_,
    fun h arg => ?_, fun h c v s hc ha => ?_⟩
  · have hraise := State.raise_touches { s with out := [], net := { s.net with linkA := up } } irqField
    refine ⟨_, congrArg Host.Outcome.next (if_neg ?_), hraise.net, State.raise_sets _ irqField, ?_⟩
    · rw [show State.services { s with out := [] } = true from hs]
      simpa using hu
    · have hnet : Touches [.net, .out] s { s with out := [], net := { s.net with linkA := up } } :=
        (touch_out s []).andThen (touch_net _ _)
      exact hnet.andThen hraise
  · exact congrArg Host.Outcome.next (if_pos (by simp [hu]))
  · exact congrArg Host.Outcome.next ((if_pos hs).trans (if_pos ⟨hm, ht⟩))
  · exact congrArg Host.Outcome.next ((if_pos hs).trans (if_neg fun h => ht h.2))
  · obtain ⟨h1, h2, h3, h4⟩ := State.publishChange_publishes { s with out := [] } hm hd ht
    exact ⟨_, congrArg Host.Outcome.next (if_pos hs), h1, h2, h3, h4⟩
  · exact rowDoes_of_execute State.presentStraps (by decide) (fun _ => rfl) (by decide) fun s => execute_describe s _ rfl
  · obtain ⟨hset, hlen⟩ := isSetting_cursor c hc
    refine runs_of_commit (State.presentStraps { s with out := [] }) ha (State.commandTo_of_len hlen { s with out := [] } h v)
      (by decide) fun t hc => ?_
    rw [commit_setting hset] at hc
    obtain ⟨u, hu, hod, -, -⟩ := (s.arrival h 0xC102 (c + 1) 8 v).setValue_stores 0xC102 (c + 1) v false
    rw [hu, State.afterWrite_cursor] at hc
    have hkeep := (s.arrival_keeps h 0xC102 (c + 1) 8 v).2
    obtain ⟨host, net, out, free, ch, rfl⟩ := hc
    refine ⟨(hod _).trans (if_pos rfl), fun j m h1 h2 h3 => ((hod _).trans (if_neg h1)).trans ?_⟩
    exact hkeep.entry _ (by simp [requestCounters, h2, h3])

end Sys2Proof.Machine

/-! ## The Cell Link (R426, R428, R430, R432) -/

namespace Sys2Proof.Machine

open Sys2Proof

section Ports

variable (s : State) (p : Nat)

theorem State.logLimited_keepsEntries (n src e q : Nat) : KeepsEntries logCounters s (s.logLimited n src e q) := by
  unfold State.logLimited
  extract_lets l0 l key s1 s2
  have h1 : KeepsEntries logCounters s s1 := .of_od rfl
  have h2 : KeepsEntries logCounters s s2 := .of_od rfl
  exact .ite (h2.trans (s2.logEvent_keepsEntries ..)) h1

/-- Taking a status leaves the port's stage, and the dictionary but for the counters of log entries. -/
theorem State.takeStatus_keeps (v : Nat) :
    ((s.takeStatus p v).port p).st = (s.port p).st ∧ KeepsEntries logCounters s (s.takeStatus p v) := by
  unfold State.takeStatus
  extract_lets onset s1
  have h1 : (s1.port p).st = (s.port p).st := by rw [State.setPort_port, if_pos rfl]
  have hod : KeepsEntries logCounters s s1 := .of_od rfl
  have h2 : Touches logParts s1 ((s1.cellLog 0x5108 p p).raise irqCell) :=
    (s1.logLimited_touches ..).andThen (State.raise_touches ..)
  split
  · refine ⟨?_, hod.trans ((s1.logLimited_keepsEntries ..).trans (.of_od (State.raise_touches ..).od))⟩
    unfold State.port at h1 ⊢
    rw [h2.cells]
    exact h1
  · exact ⟨h1, hod⟩

variable (f : CellFrame)

theorem State.helloAck_other {typ n : Nat} (h : (s.port p).waiting = some (typ, n)) (ht : typ ≠ 1) :
    s.helloAck p f = s.answerDropped p typ := by
  unfold State.helloAck
  rw [h]
  split
  case h_1 heq => exact absurd (congrArg Prod.fst (Option.some.inj heq)) ht
  case h_2 heq => rw [(Prod.mk.inj (Option.some.inj heq)).1]
  case h_3 heq => exact nomatch heq

theorem State.configureAck_other {typ n : Nat} (h : (s.port p).waiting = some (typ, n)) (ht : typ ≠ 2) :
    s.configureAck p f = s.answerDropped p typ := by
  unfold State.configureAck
  rw [h]
  split
  case h_1 heq => exact absurd (congrArg Prod.fst (Option.some.inj heq)) ht
  case h_2 heq => rw [(Prod.mk.inj (Option.some.inj heq)).1]
  case h_3 heq => exact nomatch heq

theorem State.cellData_other {typ n : Nat} (h : (s.port p).waiting = some (typ, n)) (ht : typ ≠ 4) :
    s.cellData p f = s.answerDropped p typ := by
  unfold State.cellData
  dsimp only
  rw [h]
  split
  case h_1 heq => exact absurd (congrArg Prod.fst (Option.some.inj heq)) ht
  case h_2 heq => rw [(Prod.mk.inj (Option.some.inj heq)).1]
  case h_3 heq => exact nomatch heq

/-- A good HELLO answer of the board that the dictionary describes. -/
theorem State.helloAck_greets {n : Nat} (h : (s.port p).waiting = some (1, n)) (hg : s.answerGood p 0x81 8 f = true)
    (hst : (s.port p).st = 1) (h7 : bytesAt f.payload 0 1 = s.odv (0x5100 + p) 7)
    (h6 : bytesAt f.payload 1 1 = s.odv (0x5100 + p) 6) (h8 : bytesAt f.payload 2 1 = s.odv (0x5100 + p) 8) :
    s.helloAck p f = (State.setPort (State.takeStatus (State.setPort s p (fun o =>
      { o with waiting := none, delay := (f.turnaround - 4000) / 2, firmware := bytesAt f.payload 4 2,
               boardType := bytesAt f.payload 0 1, boardN := bytesAt f.payload 1 1,
               boardT := bytesAt f.payload 2 1 })) p
      (bytesAt f.payload 6 2)) p (fun o => { o with greeted := true })).sendConfigure p := by
  unfold State.helloAck
  rw [h]
  dsimp only
  rw [if_pos hg]
  have hset := s.setPort_port p (fun o =>
      { o with waiting := none, delay := (f.turnaround - 4000) / 2, firmware := bytesAt f.payload 4 2,
               boardType := bytesAt f.payload 0 1, boardN := bytesAt f.payload 1 1,
               boardT := bytesAt f.payload 2 1 }) p
  have hod (k : Nat) : (State.setPort s p (fun o =>
      { o with waiting := none, delay := (f.turnaround - 4000) / 2, firmware := bytesAt f.payload 4 2,
               boardType := bytesAt f.payload 0 1, boardN := bytesAt f.payload 1 1,
               boardT := bytesAt f.payload 2 1 })).odv (0x5100 + p) k = s.odv (0x5100 + p) k := rfl
  generalize State.setPort s p _ = u at hset hod ⊢
  obtain ⟨kst, kod⟩ := u.takeStatus_keeps p (bytesAt f.payload 6 2)
  have hkey (k : Nat) (hk : 5 ≤ k) (hk2 : k < 256) : okey (0x5100 + p) k ∉ logCounters := by
    simp only [logCounters, okey, List.mem_cons, List.not_mem_nil, or_false]
    omega
  rw [if_pos ⟨h7.trans ((kod.odv (hkey 7 (by omega) (by omega))).trans (hod 7)).symm,
    h6.trans ((kod.odv (hkey 6 (by omega) (by omega))).trans (hod 6)).symm,
    h8.trans ((kod.odv (hkey 8 (by omega) (by omega))).trans (hod 8)).symm⟩,
    if_pos (kst.trans ((congrArg Port.st (hset.trans (if_pos rfl))).trans hst))]
  rfl

theorem State.configureAck_goesOn {n : Nat} (h : (s.port p).waiting = some (2, n)) (hg : s.answerGood p 0x82 2 f = true)
    (hz : f.payload % 65536 = 0) : s.configureAck p f = (s.setPort p (fun o => { o with waiting := none })).portGoOn p := by
  unfold State.configureAck
  rw [h]
  dsimp only
  rw [if_pos hg, if_pos hz]
  rfl

theorem State.cellData_kept {n : Nat} (h : (s.port p).waiting = some (4, n))
    (hg : s.answerGood p 0x84 (8 + 2 * (s.port p).cfg.n + 2 * (s.port p).cfg.t) f = true) :
    s.cellData p f = (s.setPort p (fun o => { o with
      waiting := none, data := some f.payload,
      configure := o.configure || bitAt (bytesAt f.payload 2 2) 4 })).takeStatus p (bytesAt f.payload 2 2) := by
  unfold State.cellData
  dsimp only
  rw [h]
  exact if_pos hg

theorem State.unanswered (h : (s.port p).waiting = none) :
    s.cellTimeout p = s ∧ s.helloAck p f = s ∧ s.configureAck p f = s ∧ s.cellData p f = s := by
  unfold State.cellTimeout State.helloAck State.configureAck State.cellData
  dsimp only
  rw [h]
  exact ⟨rfl, rfl, rfl, rfl⟩

theorem State.cellTimeout_fails {typ n : Nat} (h : (s.port p).waiting = some (typ, n)) :
    s.cellTimeout p = (s.count (0x5100 + p) 13).answerFailed p typ 1 := by
  unfold State.cellTimeout
  rw [h]

/-! ### Sweeps -/

/-- The sweep that is open, and its number, stay. -/
def KeepsSweep (s t : State) : Prop := t.cells.inSweep = s.cells.inSweep ∧ t.cells.sweep = s.cells.sweep

theorem KeepsSweep.trans {s t u : State} (h : KeepsSweep s t) (k : KeepsSweep t u) : KeepsSweep s u :=
  ⟨k.1.trans h.1, k.2.trans h.2⟩

theorem KeepsSweep.of_touches {ps : List Part} {s t : State} (h : Touches ps s t) (hp : Part.cells ∉ ps := by decide) :
    KeepsSweep s t := ⟨by rw [h.cells hp], by rw [h.cells hp]⟩

theorem KeepsSweep.ite {c : Prop} [Decidable c] {s a b : State} (ha : KeepsSweep s a) (hb : KeepsSweep s b) :
    KeepsSweep s (if c then a else b) := by
  split
  · exact ha
  · exact hb

theorem State.setPort_keepsSweep (g : Port → Port) : KeepsSweep s (s.setPort p g) := ⟨rfl, rfl⟩

theorem State.cellSend_keepsSweep (typ len payload : Nat) (b : Bool) : KeepsSweep s (s.cellSend p typ len payload b) := by
  unfold State.cellSend
  extract_lets q crc s1
  exact (s.setPort_keepsSweep ..).trans (.of_touches (ps := [.dictionary, .out]) ((s1.count_touches ..).andThen (State.emit_touches ..)))

theorem State.onLine_keepsSweep (g : State → State) (h : KeepsSweep s (g s)) : KeepsSweep s (s.onLine p g) :=
  .ite h ⟨rfl, rfl⟩

theorem State.sendHello_keepsSweep : KeepsSweep s (s.sendHello p) := s.onLine_keepsSweep p _ (s.cellSend_keepsSweep ..)

theorem State.sendConfigure_keepsSweep : KeepsSweep s (s.sendConfigure p) :=
  s.onLine_keepsSweep p _ ((s.cellSend_keepsSweep ..).trans (State.setPort_keepsSweep ..))

theorem State.sendSample_keepsSweep : KeepsSweep s (s.sendSample p) :=
  s.onLine_keepsSweep p _ ((s.cellSend_keepsSweep ..).trans (State.setPort_keepsSweep ..))

theorem State.portGoOn_keepsSweep : KeepsSweep s (s.portGoOn p) := by
  unfold State.portGoOn
  extract_lets o
  exact .ite ⟨rfl, rfl⟩ (.ite (s.sendConfigure_keepsSweep p) (s.sendSample_keepsSweep p))

theorem KeepsSweep.foldl {α : Type} (g : State → α → State) (h : ∀ s x, KeepsSweep s (g s x)) (l : List α) (s : State) :
    KeepsSweep s (l.foldl g s) := by
  induction l generalizing s with
  | nil => exact ⟨rfl, rfl⟩
  | cons x l ih => exact (h s x).trans (ih _)

/-- A sweep begins under its number. -/
theorem State.sweepSample_begins : s.sweepSample.cells.inSweep = true ∧ s.sweepSample.cells.sweep = (s.frame + 625) / 2500 := by
  unfold State.sweepSample
  extract_lets n c s1
  refine KeepsSweep.foldl _ (fun u q => ?_) (upTo 32) s1
  refine .ite (.ite ⟨rfl, rfl⟩ (u.setPort_keepsSweep ..)) ?_
  extract_lets u1 u2 o u3
  have h1 : KeepsSweep u u1 := .ite (u.setPort_keepsSweep ..) ⟨rfl, rfl⟩
  have h2 : KeepsSweep u u2 := h1.trans (u1.setPort_keepsSweep ..)
  have h3 : KeepsSweep u u3 := h2.trans (u2.setPort_keepsSweep ..)
  exact .ite (.ite (h3.trans (u3.sendHello_keepsSweep q)) (h3.trans (u3.portGoOn_keepsSweep q))) h2

/-- SWEEP_READ begins by ending the wait of every SAMPLE not yet sent (log entry 108). -/
def State.samplesEnded (s : State) : State :=
  { s with cells := { s.cells with ports := tabMap {} (fun o => { o with sampleDue := false }) s.cells.ports } }

theorem State.sweepRead_nobody (h : s.populatedPorts = []) : s.sweepRead = s.samplesEnded := by
  unfold State.sweepRead
  extract_lets c u
  rw [show u.populatedPorts = [] from h]
  rfl

theorem State.sweepRead_one (h : s.populatedPorts = [p]) (hst : (s.samplesEnded.port p).st = 2)
    (hs : (s.samplesEnded.port p).sample ≠ none) :
    s.sweepRead = (s.samplesEnded.setPort p (fun o => { o with reads := 0 })).sendRead p := by
  unfold State.sweepRead
  extract_lets c u
  rw [show u.populatedPorts = [p] from h]
  exact if_pos ⟨.inr hst, hs⟩

end Ports

/-- Settles O48: each answer by what its port waits for; the sweep by what its steps leave of its number. -/
theorem cellLink : Obligations.CellLink := by
  unfold Obligations.CellLink
  have ran {c : Instr} {s : State} {f : State → State} {v : State} (hs : s.sweeping = true)
      (hc : exec c s = .next (State.ifSweeping { s with out := [] } f)) (hv : f { s with out := [] } = v) : exec c s = .next v :=
    hc.trans (congrArg Host.Outcome.next ((if_pos hs).trans hv))
  refine ⟨fun p f s hs => ⟨fun hw => ?_, fun typ n hw => ⟨?_, fun ht => ?_, fun ht => ?_, fun ht => ?_⟩,
      fun n hw hg hst h7 h6 h8 => ?_, fun n hw hg hz => ?_, fun n hw hg => ?_, fun hp hst => ?_⟩,
    fun s hs => ?_, fun s hs u hu => ⟨fun hp => ?_, fun p hp hst hsm => ?_⟩, fun s hs hin => ?_, fun s hs => ?_⟩
  · obtain ⟨h1, h2, h3, h4⟩ := State.unanswered { s with out := [] } p f hw
    exact ⟨ran hs rfl h1, ran hs rfl h2, ran hs rfl h3, ran hs rfl h4⟩
  · exact ran hs rfl (State.cellTimeout_fails { s with out := [] } p hw)
  · exact ran hs rfl (State.helloAck_other { s with out := [] } p f hw ht)
  · exact ran hs rfl (State.configureAck_other { s with out := [] } p f hw ht)
  · exact ran hs rfl (State.cellData_other { s with out := [] } p f hw ht)
  · exact ran hs rfl (State.helloAck_greets { s with out := [] } p f hw hg hst h7 h6 h8)
  · exact ran hs rfl (State.configureAck_goesOn { s with out := [] } p f hw hg hz)
  · exact ran hs rfl (State.cellData_kept { s with out := [] } p f hw hg)
  · exact ran hs rfl (if_pos ⟨hp, hst⟩)
  · obtain ⟨h1, h2⟩ := State.sweepSample_begins { s with out := [] }
    have hgv := State.sweepSample_gv { s with out := [] }
    have hexec : exec .sweepSample s = .next (State.sweepSample { s with out := [] }) := ran hs rfl rfl
    generalize State.sweepSample { s with out := [] } = t at h1 h2 hgv hexec
    exact ⟨_, hexec, h1, h2, congrArg (·.2.1) hgv, congrArg (·.2.2.1) hgv⟩
  · exact ran hs rfl ((State.sweepRead_nobody { s with out := [] } hp).trans hu.symm)
  · have hu' : State.samplesEnded { s with out := [] } = u := hu.symm
    rw [← hu'] at hst hsm ⊢
    exact ran hs rfl (State.sweepRead_one { s with out := [] } p hp hst hsm)
  · exact ran hs rfl (if_pos hin)
  · have idle {c : Instr} {f : State → State} (hc : exec c s = .next (State.ifSweeping { s with out := [] } f)) :
        exec c s = .next { s with out := [] } :=
      hc.trans (congrArg Host.Outcome.next (if_neg (by rw [show State.sweeping { s with out := [] } = false from hs]; decide)))
    exact ⟨idle rfl, idle rfl, idle rfl⟩

end Sys2Proof.Machine

/-! ## Stored energy (R445 to R462) -/

namespace Sys2Proof.Machine

open Sys2Proof

section Channels

variable (s : State) (ch : Nat)

/-- Every channel but one stays, and that one's class. -/
structure OneChan (ch : Nat) (s t : State) : Prop where
  touches : Touches (.se :: logParts) s t
  others : ∀ j, j ≠ ch → t.chan j = s.chan j
  cls : (t.chan ch).cls = (s.chan ch).cls

variable {ch} in
theorem OneChan.trans {s t u : State} (h : OneChan ch s t) (k : OneChan ch t u) : OneChan ch s u :=
  ⟨h.touches.trans k.touches, fun j hj => (k.others j hj).trans (h.others j hj), k.cls.trans h.cls⟩

theorem OneChan.refl : OneChan ch s s := ⟨.refl .., fun _ _ => rfl, rfl⟩

variable {ch} in
theorem OneChan.ite {c : Prop} [Decidable c] {s a b : State} (ha : OneChan ch s a) (hb : OneChan ch s b) :
    OneChan ch s (if c then a else b) := by
  split
  · exact ha
  · exact hb

theorem State.setChan_one (f : SeChan → SeChan) (hf : ∀ c, (f c).cls = c.cls) : OneChan ch s (s.setChan ch f) :=
  ⟨(s.setChan_touches ..).widen, fun j hj => by rw [State.setChan_chan, if_neg hj], by rw [State.setChan_chan, if_pos rfl, hf]⟩

theorem State.chan_of_se {s t : State} (h : t.se = s.se) (j : Nat) : t.chan j = s.chan j := by
  unfold State.chan
  rw [h]

theorem OneChan.of_touches {s t : State} (h : Touches logParts s t) : OneChan ch s t :=
  ⟨h.widen, fun j _ => State.chan_of_se h.se j, by rw [State.chan_of_se h.se]⟩

theorem State.fullClear_one : OneChan ch s (s.fullClear ch) := by
  unfold State.fullClear
  extract_lets c
  split
  · exact .ite (s.setChan_one ch _ fun _ => rfl) (.refl ..)
  · exact .refl ..

theorem State.reserveCheck_one : OneChan ch s (s.reserveCheck ch) := by
  have h (b : Bool) (p : Nat) : OneChan ch s ((s.setChan ch (fun c => { c with reserve := b })).seLog 0x6109 ch p) :=
    (s.setChan_one ch (fun c => { c with reserve := b }) fun _ => rfl).trans
      (.of_touches ch (State.seLog_touches (s.setChan ch fun c => { c with reserve := b }) 0x6109 ch p))
  unfold State.reserveCheck
  extract_lets c v
  split
  · split
    · exact h true _
    · split
      · exact h false _
      · exact .refl ..
  · split
    · exact h false _
    · exact .refl ..

/-- The limits of one channel. -/
def State.limitStep (s : State) (ch : Nat) : State :=
  if s.chUsed ch then
    let s := (s.fullClear ch).reserveCheck ch
    let l := s.limitsOf ch
    s.setChan ch (fun c => { c with disLimit := l.1, chgLimit := l.2.1, contLimit := l.2.2 })
  else s.setChan ch (fun c => { c with disLimit := 0, chgLimit := 0, contLimit := 0 })

theorem State.limitStep_one : OneChan ch s (s.limitStep ch) :=
  .ite (((s.fullClear_one ch).trans (State.reserveCheck_one ..)).trans (State.setChan_one _ _ _ fun _ => rfl))
    (s.setChan_one ch _ fun _ => rfl)

/-- A channel's limits are zero. -/
def SeChan.unlimited (c : SeChan) : Prop := c.disLimit = 0 ∧ c.chgLimit = 0 ∧ c.contLimit = 0

/-- The limits of an unused channel are zero once the update has reached it. -/
theorem State.limitSteps_unused (l : List Nat) (h : s.chUsed ch = false) (hl : ch ∈ l ∨ (s.chan ch).unlimited) :
    ((l.foldl State.limitStep s).chan ch).unlimited := by
  induction l generalizing s with
  | nil => exact hl.resolve_left List.not_mem_nil
  | cons c l ih =>
    have hone := s.limitStep_one c
    by_cases hc : ch = c
    · subst hc
      have hz : (s.limitStep ch).chan ch = { s.chan ch with disLimit := 0, chgLimit := 0, contLimit := 0 } := by
        unfold State.limitStep
        rw [if_neg (by rw [h]; exact Bool.false_ne_true), State.setChan_chan, if_pos rfl]
      refine ih (s.limitStep ch) ?_ (.inr ?_)
      · unfold State.chUsed State.chClass at h ⊢
        rw [hone.cls]
        exact h
      · rw [hz]
        exact ⟨rfl, rfl, rfl⟩
    · refine ih (s.limitStep c) ?_ (hl.imp (fun hm => (List.mem_cons.mp hm).resolve_left hc) fun hz => ?_)
      · unfold State.chUsed State.chClass at h ⊢
        rw [hone.others ch hc]
        exact h
      · rw [hone.others ch hc]
        exact hz

theorem State.limitUpdate_limits : Touches (.se :: logParts) s s.limitUpdate ∧
    ∀ ch, ch < 8 → s.chUsed ch = false → (s.limitUpdate.chan ch).unlimited := by
  unfold State.limitUpdate
  extract_lets s1 served bulk dis chg cont soc
  have h1 : Touches (.se :: logParts) s s1 := Touches.foldl _ _ (.refl ..) fun u c => (u.limitStep_one c).touches
  clear_value soc cont chg dis
  have h2 (ch : Nat) (hch : ch < 8) (hu : s.chUsed ch = false) : (s1.chan ch).unlimited :=
    s.limitSteps_unused ch (upTo 8) hu (.inl (List.mem_range.mpr hch))
  clear_value s1
  exact ⟨h1.trans (touch_se ..).widen, h2⟩

/-- A bit of the current-sense stream. -/
theorem State.senseBit_counts (bit : Bool) (h : (s.chan ch).csLost = false) :
    let d : Int := if bit then (s.odv (0x6100 + ch) 5 : Int) else -(s.odv (0x6100 + ch) 5 : Int)
    s.senseBit ch bit = (s.addCharge ch d).setChan ch (fun c => { c with bits := c.bits + d }) := by
  unfold State.senseBit
  exact if_neg (by rw [h]; exact Bool.false_ne_true)

/-- The full point of a channel whose conditions have held. -/
theorem State.fullDetect_anchors (hf : s.fullNow ch = true) (ht : s.taperDone ch = true) (hn : (s.chan ch).full = false) :
    OneChan ch s (s.fullDetect ch) ∧ ((s.fullDetect ch).chan ch).full = true ∧
    ((s.fullDetect ch).chan ch).q = (s.capacity ch : Int) * 100000 ∧
    ((s.fullDetect ch).chan ch).anchor = some (s.chan ch).integ := by
  unfold State.fullDetect
  rw [if_pos (by simp [hf, ht, hn])]
  extract_lets cap s1
  have h1 : OneChan ch s s1 := s.setChan_one ch _ fun _ => rfl
  have hc : s1.chan ch = { s.chan ch with
      full := true, q := (cap : Int) * 100000, anchor := some (s.chan ch).integ, anchored := true, clean := true } := by
    rw [State.setChan_chan, if_pos rfl]
  have h2 := s1.seLog_touches 0x6101 ch (packBytes [(1, ch), (3, 0), (4, cap)])
  have h3 (u : State) : u.seTrigger.chan ch = u.chan ch := rfl
  have h4 (u : State) : OneChan ch u u.seTrigger := ⟨(touch_se ..).widen, fun _ _ => rfl, rfl⟩
  rw [h3, State.chan_of_se h2.se, hc]
  exact ⟨(h1.trans (.of_touches ch h2)).trans (h4 _), rfl, rfl, rfl⟩

/-- The learned values of one channel. -/
def State.resetChan (s : State) (ch : Nat) : State :=
  let u := s.setChan ch (fun c => { c with cap := some (s.odv (0x6100 + ch) 6), res := some (s.odv (0x6100 + ch) 7 : Rat),
                                           resetQ := true, learnPend := true, countEst := true, full := false,
                                           anchor := none, anchored := false, disagree := false })
  if (s.chan ch).disagree then u.seLog 0x6104 ch (packBytes [(1, ch), (1, 0)]) else u

theorem State.seLog_keepsEntries (e c p : Nat) : KeepsEntries logCounters s (s.seLog e c p) :=
  (s.logLimited_keepsEntries ..).trans (.of_od (State.raise_touches ..).od)

theorem State.resetChan_resets : OneChan ch s (s.resetChan ch) ∧ KeepsEntries logCounters s (s.resetChan ch) ∧
    ((s.resetChan ch).chan ch).cap = some (s.odv (0x6100 + ch) 6) ∧ ((s.resetChan ch).chan ch).full = false ∧
    ((s.resetChan ch).chan ch).resetQ = true := by
  unfold State.resetChan
  extract_lets u
  have h1 : OneChan ch s u := s.setChan_one ch _ fun _ => rfl
  have ho : KeepsEntries logCounters s u := .of_od rfl
  have hc : (u.chan ch).cap = some (s.odv (0x6100 + ch) 6) ∧ (u.chan ch).full = false ∧ (u.chan ch).resetQ = true := by
    rw [State.setChan_chan, if_pos rfl]
    exact ⟨rfl, rfl, rfl⟩
  have h2 := u.seLog_touches 0x6104 ch (packBytes [(1, ch), (1, 0)])
  split
  · rw [State.chan_of_se h2.se]
    exact ⟨h1.trans (.of_touches ch h2), ho.trans (u.seLog_keepsEntries ..), hc⟩
  · exact ⟨h1, ho, hc⟩

/-- The learned values of a channel whose reset has been asked for are the dictionary's. -/
def State.learnedReset (s : State) (od : Nat) (ch : Nat) : Prop :=
  (s.chan ch).cap = some od ∧ (s.chan ch).full = false ∧ (s.chan ch).resetQ = true

theorem State.resetChans_reset (l : List Nat) (od : Nat) (hch : ch < 8) (ho : s.odv (0x6100 + ch) 6 = od)
    (hl : ch ∈ l ∨ s.learnedReset od ch) : (l.foldl State.resetChan s).learnedReset od ch := by
  induction l generalizing s with
  | nil => exact hl.resolve_left List.not_mem_nil
  | cons c l ih =>
    obtain ⟨hone, hod, hreset⟩ := s.resetChan_resets c
    have hkey : okey (0x6100 + ch) 6 ∉ logCounters := by
      simp only [logCounters, okey, List.mem_cons, List.not_mem_nil, or_false]
      omega
    refine ih (s.resetChan c) ((hod.odv hkey).trans ho) ?_
    by_cases hc : ch = c
    · subst hc
      rw [ho] at hreset
      exact .inr hreset
    · refine hl.imp (fun hm => (List.mem_cons.mp hm).resolve_left hc) fun hz => ?_
      unfold State.learnedReset
      rw [hone.others ch hc]
      exact hz

theorem State.resetLearned_resets (mask : Nat) (hch : ch < 8) (hb : bitAt mask ch = true) :
    (s.resetLearned mask).learnedReset (s.odv (0x6100 + ch) 6) ch := by
  unfold State.resetLearned
  extract_lets s1
  have h1 : s1.learnedReset (s.odv (0x6100 + ch) 6) ch :=
    s.resetChans_reset ch (bitsOf 8 mask) _ hch rfl (.inl (List.mem_filter.mpr ⟨List.mem_range.mpr hch, hb⟩))
  have h2 := s1.seLog_touches 0x6108 0 mask
  have h3 (u : State) : u.seTrigger.chan ch = u.chan ch := rfl
  unfold State.learnedReset
  rw [h3, State.chan_of_se h2.se]
  exact h1

end Channels

end Sys2Proof.Machine

namespace Sys2Proof.Machine

open Sys2Proof

theorem State.csReturn_logs (s : State) (ch : Nat) (h : (s.chan ch).csLost = true) :
    s.csReturn ch = (s.setChan ch (fun c => { c with csLost := false })).seLog 0x6106 ch
      (packBytes [(1, ch), (1, 0), (2, 0), (4, (s.chan ch).lossTime)]) := by
  unfold State.csReturn
  exact if_pos h

/-- The record of the learned values goes to a free NVR. -/
theorem State.seRecordWrite_writes (s : State) (hl : s.se.lastWrite = none) (hp : s.se.pending = true)
    (hr : s.power.inRange = true) (hv : s.power.leaving = false) (hw : s.nvr.writing = none) :
    s.seRecordWrite = { s with
      nvr := { s.nvr with writing := some ⟨.se, s.nvr.nextSeq .se, s.seBytes (s.nvr.nextSeq .se)⟩ }
      se := { s.se with pending := false, lastWrite := some s.intake } } := by
  have hd : s.seDue = true := by
    unfold State.seDue
    rw [hl, hp]
    rfl
  unfold State.seRecordWrite
  rw [if_pos hd, if_neg (by rw [hr, hv]; decide)]
  dsimp only
  rw [s.nvrWrite_free _ hv hw]

theorem State.seRecordWrite_waits (s : State) (hl : s.se.lastWrite = none) (hp : s.se.pending = false)
    (ht : s.intake < 600000000) : s.seRecordWrite = s := by
  unfold State.seRecordWrite
  refine if_neg ?_
  unfold State.seDue
  rw [hl, hp]
  dsimp only
  rw [Bool.false_and, Bool.false_or]
  exact fun h => absurd (of_decide_eq_true h) (Nat.not_le.mpr (by rw [Option.getD_none, Nat.zero_add]; exact ht))

/-- Settles O49: each command of the channels by what it does to the channel it names, the limits and the reset by induction
over the channels. -/
theorem storedEnergy : Obligations.StoredEnergy := by
  unfold Obligations.StoredEnergy
  have on {s : State} {ch : Nat} (hup : s.up = true) (hch : ch < 8) (f : State → State) :
      State.onChannel { s with out := [] } ch f = f { s with out := [] } :=
    if_pos ((Bool.and_eq_true ..).mpr ⟨hup, decide_eq_true hch⟩)
  refine ⟨fun ch bit s hup hch hcs d hd => ?_, fun ch bit s hup hcs => ?_, fun ch s hup hch hcs => ⟨?_, ?_⟩, fun ch s hup hch hcs => ?_,
    fun s hup => ?_, fun ch s hup hch hf ht hn => ?_, fun s hup => ?_, fun h mask => ?_, fun mask ch s hch hb => ?_,
    fun s hs hl hp hr hv hw => ?_, fun s hs hl hp ht => ?_⟩
  · have hsense := State.senseBit_counts { s with out := [] } ch bit hcs
    have hchan (j : Nat) : (State.setChan (State.addCharge { s with out := [] } ch d) ch
        (fun c => { c with bits := c.bits + d })).chan j = if j = ch then
          { s.chan ch with integ := wrap64 ((s.chan ch).integ + d), q := (s.chan ch).q - d, bits := (s.chan ch).bits + d }
        else s.chan j := by
      unfold State.addCharge
      rw [State.setChan_chan, State.setChan_chan, State.setChan_chan, if_pos rfl]
      split <;> rfl
    subst hd
    refine ⟨_, congrArg Host.Outcome.next ((on hup hch _).trans hsense), ?_, ?_, ?_, fun c hc => (hchan c).trans (if_neg hc), rfl, rfl⟩
    · exact congrArg SeChan.bits ((hchan ch).trans (if_pos rfl))
    · exact congrArg SeChan.integ ((hchan ch).trans (if_pos rfl))
    · exact congrArg SeChan.q ((hchan ch).trans (if_pos rfl))
  · refine congrArg Host.Outcome.next ?_
    by_cases hch : ch < 8
    · exact (on hup hch _).trans (if_pos hcs)
    · exact if_neg fun h => hch (of_decide_eq_true ((Bool.and_eq_true ..).mp h).2)
  · exact congrArg Host.Outcome.next ((on hup hch _).trans (if_neg (by
      rw [show (State.chan { s with out := [] } ch).csLost = false from hcs]; exact Bool.false_ne_true)))
  · exact congrArg Host.Outcome.next ((on hup hch _).trans (if_neg (by
      rw [show (State.chan { s with out := [] } ch).csLost = false from hcs]; exact Bool.false_ne_true)))
  · exact congrArg Host.Outcome.next ((on hup hch _).trans (State.csReturn_logs { s with out := [] } ch hcs))
  · exact congrArg Host.Outcome.next (if_pos hup)
  · obtain ⟨h1, h2, h3, h4⟩ := State.fullDetect_anchors { s with out := [] } ch hf ht hn
    exact ⟨_, congrArg Host.Outcome.next (on hup hch _), h2, h3, h4, h1.others, h1.touches.mode⟩
  · obtain ⟨h1, h2⟩ := State.limitUpdate_limits { s with out := [] }
    exact ⟨_, congrArg Host.Outcome.next (if_pos hup), h1.mode, h1.power, h2⟩
  · exact rowDoes_of_execute State.presentStraps (by decide) (fun _ => rfl) (by decide) fun s => execute_resetLearned s _ rfl
  · exact s.resetLearned_resets ch mask hch hb
  · exact congrArg Host.Outcome.next ((if_pos hs).trans (State.seRecordWrite_writes { s with out := [] } hl hp hr hv hw))
  · exact congrArg Host.Outcome.next ((if_pos hs).trans (State.seRecordWrite_waits { s with out := [] } hl hp ht))

end Sys2Proof.Machine

namespace Sys2Proof.Machine
open Host

/-! ## The rails (R477 to R481) -/

section Tables

variable {α : Type} [DecidableEq α] (d : α) (P : α → Prop) (f : α → α)

/-- What every update keeps of an entry, updates of any entries keep. -/
theorem tabGet_foldl_tabMod_keeps (hf : ∀ x, P x → P (f x)) (g : Nat → Nat) (l : List Nat) (t : Tab α) (j : Nat)
    (h : P (tabGet d t j)) : P (tabGet d (l.foldl (fun t i => tabMod d t (g i) f) t) j) := by
  induction l generalizing t with
  | nil => exact h
  | cons i l ih =>
    refine ih _ ?_
    rw [tabGet_tabMod]
    split
    · next hj => exact hf _ (hj ▸ h)
    · exact h

/-- What every update brings about stands in each entry that is updated. -/
theorem tabGet_foldl_tabMod_brings (hf : ∀ x, P (f x)) (l : List Nat) (t : Tab α) (j : Nat)
    (h : P (tabGet d t j) ∨ j ∈ l) : P (tabGet d (l.foldl (fun t i => tabMod d t i f) t) j) := by
  induction l generalizing t with
  | nil => exact h.resolve_right List.not_mem_nil
  | cons i l ih =>
    refine ih _ ?_
    rw [tabGet_tabMod]
    by_cases hj : j = i
    · exact .inl (by rw [if_pos hj]; exact hf _)
    · rw [if_neg hj]
      exact h.imp_right fun hm => (List.mem_cons.mp hm).resolve_left hj

end Tables

/-- What lowering a rail keeps of it, lowering the rails of the CD keeps of every rail (R470). -/
theorem Mpc.lowerCd_rail (P : Rail → Prop) (hP : ∀ r, P r → P r.lowered) (m : Mpc) (j : Nat) (h : P (tabGet {} m.rails j)) :
    P (tabGet {} m.lowerCd.rails j) := by
  unfold Mpc.lowerCd
  generalize upTo 8 = l
  exact tabGet_foldl_tabMod_keeps {} P Rail.lowered hP (5 + ·) l m.rails j h

/-- So does a stop of the CD. -/
theorem State.cdStop_rail (P : Rail → Prop) (hP : ∀ r, P r → P r.lowered) (s : State) (cause j : Nat) (h : P (s.rail j)) :
    P ((s.cdStop cause).rail j) := by
  have hmpc : (s.cdStop cause).mpc = s.mpc.lowerCd ∨ (s.cdStop cause).mpc = s.mpc := by
    cases hrun : s.cd.running with
    | true => exact .inl (State.cdStop_running s cause hrun).2.2
    | false => exact .inr (by unfold State.cdStop; rw [if_neg (by rw [hrun]; exact Bool.false_ne_true)])
  unfold State.rail at h ⊢
  obtain hm | hm := hmpc
  · rw [hm]
    exact Mpc.lowerCd_rail P hP s.mpc j h
  · rw [hm]
    exact h

/-- Lowering keeps a latched rail latched, with its cause. -/
theorem Rail.lowered_latched (c : Nat) (r : Rail) (h : r.st = 4 ∧ r.cause = c) : r.lowered.st = 4 ∧ r.lowered.cause = c :=
  ⟨(if_pos (.inr h.1)).trans h.1, h.2⟩

/-- Lowering keeps a rail that waits for its one retry. -/
theorem Rail.lowered_waits (r : Rail) (h : r.st = 3 ∧ r.retried = true) : r.lowered.st = 3 ∧ r.lowered.retried = true :=
  ⟨(if_pos (.inl h.1)).trans h.1, h.2⟩

section RailFaults

variable (s : State) (j : Nat)

theorem State.rampReach_touches : Touches [.mpc] s (s.rampReach j) := by
  unfold State.rampReach
  split
  · exact Touches.foldl _ _ (.refl ..) fun u _ => u.rampNext_touches
  · exact .refl ..

/-- A rail that no waiting group holds finds nothing to raise first (log entry 41). -/
theorem State.rampReach_same (h : ∀ g, g ∈ s.mpc.rising → j ∉ g) : s.rampReach j = s :=
  if_neg fun hany => by
    obtain ⟨g, hg, hj⟩ := List.any_eq_true.mp hany
    exact h g hg (List.contains_iff_mem.mp hj)

theorem State.railFault_on (cause : Nat) (m : RailMeas) (h : (s.rampReach j).railOn j = true) :
    s.railFault j cause m = (s.rampReach j).latchRail j cause m := if_pos h

theorem State.railFault_off (cause : Nat) (m : RailMeas) (h : (s.rampReach j).railOn j = false) :
    s.railFault j cause m = s.rampReach j := if_neg (by rw [h]; exact Bool.false_ne_true)

theorem State.softStartShort_off (m : RailMeas) (h : (s.rampReach j).railOn j = false) :
    s.softStartShort j m = s.rampReach j := if_pos (by rw [h]; rfl)

/-- A rail of the CD that latches: it stays so with its cause, and the CD stops. -/
theorem State.latchRail_latches (cause : Nat) (m : RailMeas) (h5 : 5 ≤ j) :
    ((s.latchRail j cause m).rail j).st = 4 ∧ ((s.latchRail j cause m).rail j).cause = cause ∧
    (s.latchRail j cause m).cd.running = false ∧ (s.latchRail j cause m).cd.due = false ∧
    (s.latchRail j cause m).mode = s.mode ∧ (s.latchRail j cause m).power = s.power := by
  unfold State.latchRail
  extract_lets place mpc s1 s2 s3 cd s4
  rw [if_neg (Nat.not_lt.mpr h5)]
  have hat : s1.rail j = { s.rail j with st := 4, mv := 0, deciAmp := 0, cause := cause, retried := false } :=
    (tabGet_tabMod ({} : Rail) s.mpc.rails j j fun r : Rail =>
      { r with st := 4, mv := 0, deciAmp := 0, cause := cause, retried := false }).trans (if_pos rfl)
  have hrail1 : (s1.rail j).st = 4 ∧ (s1.rail j).cause = cause := by
    rw [hat]
    exact ⟨rfl, rfl⟩
  have h2 := s1.faultRecord_touches cause s1.afterCdFault place
  have hrail2 : (s2.rail j).st = 4 ∧ (s2.rail j).cause = cause := by
    unfold State.rail
    rw [show s2.mpc = s1.mpc from h2.mpc]
    exact hrail1
  have hstop := State.cdStop_rail (fun r => r.st = 4 ∧ r.cause = cause) (Rail.lowered_latched cause) s2 3 j hrail2
  have hc := State.count_touches (s2.cdStop 3) 0x7042 1 1
  have h4 : Touches stopParts s2 s4 := ((s2.cdStop_touches 3).step hc (by decide)).step (touch_cd s3 _) (by decide)
  have hl := s4.mpcLog_touches 0x7101 j (packBytes [(1, j), (1, 1), (2, cause)])
  unfold State.rail
  rw [hl.mpc, hl.cd, hl.mode, hl.power, h4.mode, h4.power]
  refine ⟨?_, ?_, ?_, rfl, h2.mode, h2.power⟩
  · rw [show s4.mpc = (s2.cdStop 3).mpc from hc.mpc]
    exact hstop.1
  · rw [show s4.mpc = (s2.cdStop 3).mpc from hc.mpc]
    exact hstop.2
  · exact (congrArg Cd.running hc.cd).trans (s2.cdStop_cd 3).1

/-- The rail's short goes through its test of the rail and of its retry. -/
theorem State.softStartShort_retried (m : RailMeas) (h5 : 5 ≤ j) (h13 : j < 13) (hst : ((s.rampReach j).rail j).st = 1)
    (hr : ((s.rampReach j).rail j).retried = true) : s.softStartShort j m = (s.rampReach j).latchRail j 0x22 m := by
  unfold State.softStartShort State.railOn
  extract_lets u place after mpc s1 s2 pw s3 cd s4
  rw [if_neg (by simp [u, hst]; omega), if_pos hr]

/-- The first short of a CD rail that ramps stops the CD and waits for the one retry. -/
theorem State.softStartShort_waits (m : RailMeas) (h5 : 5 ≤ j) (h13 : j < 13) (hst : ((s.rampReach j).rail j).st = 1)
    (hr : ((s.rampReach j).rail j).retried = false) :
    ((s.softStartShort j m).rail j).st = 3 ∧ ((s.softStartShort j m).rail j).retried = true ∧
    (s.softStartShort j m).cd.running = false ∧ (s.softStartShort j m).cd.retry = true ∧
    (s.softStartShort j m).cd.due = true ∧ (s.softStartShort j m).mode = s.mode ∧
    (s.softStartShort j m).power = s.power := by
  unfold State.softStartShort State.railOn
  extract_lets u place after mpc s1 s2 pw s3 cd s4
  rw [if_neg (by simp [u, hst]; omega), if_neg (by rw [hr]; exact Bool.false_ne_true)]
  have hu : Touches [.mpc] s u := s.rampReach_touches j
  have hat : s1.rail j = { u.rail j with st := 3, mv := 0, deciAmp := 0, retried := true } :=
    (tabGet_tabMod ({} : Rail) u.mpc.rails j j fun r : Rail =>
      { r with st := 3, mv := 0, deciAmp := 0, retried := true }).trans (if_pos rfl)
  have hrail1 : (s1.rail j).st = 3 ∧ (s1.rail j).retried = true := by
    rw [hat]
    exact ⟨rfl, rfl⟩
  have h2 : Touches [.nvr, .dictionary] s1 s2 :=
    (s1.faultRecord_touches 0x21 after place).step (State.count_touches _ 0x7042 2 1) (by decide)
  have hrail2 : (s2.rail j).st = 3 ∧ (s2.rail j).retried = true := by
    unfold State.rail
    rw [h2.mpc]
    exact hrail1
  have hstop := State.cdStop_rail (fun r => r.st = 3 ∧ r.retried = true) Rail.lowered_waits s2 0 j hrail2
  have h3 := s2.cdStop_touches 0
  have h4 : s4 = { s3 with cd := { s3.cd with retry := true, due := true } } := if_neg (Nat.not_lt.mpr h5)
  have hl := s4.mpcLog_touches 0x7101 j (packBytes [(1, j), (1, 0), (2, 0x21)])
  unfold State.rail
  rw [hl.mpc, hl.cd, hl.mode, hl.power, h4]
  exact ⟨hstop.1, hstop.2, (s2.cdStop_cd 0).1, rfl, rfl, h3.mode.trans (h2.mode.trans hu.mode),
    h3.power.trans (h2.power.trans hu.power)⟩

/-- The retry of a CD rail: the rail no longer waits, and the CD starts where it may. -/
theorem State.softStartRetry_cd (inp : CdStartInputs) (hst : (s.rail j).st = 3) (h5 : 5 ≤ j) (u : State)
    (hu : u = State.cdDue { s with cd := { s.cd with retry := false },
                                   mpc := { s.mpc with rails := tabMod {} s.mpc.rails j (fun r => { r with st := 0 }) } }) :
    s.softStartRetry j inp = if u.cdMayStart then u.cdStart inp else u := by
  unfold State.softStartRetry
  rw [if_neg (not_not_intro hst), if_neg (Nat.not_lt.mpr h5), hu]

/-- The retry of a rail of the SIOD raises the rails from the one that waits. -/
theorem State.softStartRetry_siod (inp : CdStartInputs) (hst : (s.rail j).st = 3) (hj : j < 5) (hb : s.mode = .boot)
    (hsh : inp.highSideShort = none) (u : State) (hu : u = s.raiseRails (((upTo 5).filter (j ≤ ·)).map (fun k => [k]))) :
    s.softStartRetry j inp = { u with power := { u.power with servicesUp := !u.power.bootStopped } } := by
  unfold State.softStartRetry
  rw [if_neg (not_not_intro hst), if_pos hj, if_neg (not_not_intro hb), hsh, hu]

end RailFaults

/-- A latch that is released leaves its rail down, the PLL's latch gone and the thermal latch as it was. -/
theorem State.releaseLatches_releases (s : State) : s.releaseLatches.cd.pllLatch = false ∧
    s.releaseLatches.cd.thermalLatch = s.cd.thermalLatch ∧
    (∀ j, 5 ≤ j → j < 13 → (s.rail j).st = 4 → (s.releaseLatches.rail j).st = 0) ∧ s.releaseLatches.mode = s.mode := by
  unfold State.releaseLatches
  extract_lets mask cd mpc s1
  have hl := s1.mpcLog_touches 0x7102 0 (packBytes [(2, mask)])
  have hd := (s1.mpcLog 0x7102 0 (packBytes [(2, mask)])).cdDue_touches
  have hlatch (t : State) : t.cdDue.cd.pllLatch = t.cd.pllLatch ∧ t.cdDue.cd.thermalLatch = t.cd.thermalLatch := by
    unfold State.cdDue
    split
    · exact ⟨rfl, rfl⟩
    · exact ⟨rfl, rfl⟩
  refine ⟨(hlatch _).1.trans (congrArg Cd.pllLatch hl.cd), (hlatch _).2.trans (by rw [hl.cd]), ?_,
    hd.mode.trans hl.mode⟩
  intro j h5 h13 hst
  unfold State.rail
  rw [hd.mpc, hl.mpc]
  refine tabGet_foldl_tabMod_brings {} (fun r : Rail => r.st = 0)
    (fun r : Rail => { r with st := 0, cause := 0 }) (fun _ => rfl) s.latchedRails _ j (.inr ?_)
  refine List.mem_filter.mpr ⟨List.mem_map.mpr ⟨j - 5, ?_, Nat.sub_add_cancel h5⟩, decide_eq_true hst⟩
  exact List.mem_range.mpr (by omega)

/-- Settles O50: a faulty rail that is on latches, a short waits for one retry, and a release takes the latches. -/
theorem rails : Obligations.Rails := by
  refine ⟨?faults, fun j s h => s.rampReach_same j h, fun j cause m s hup hj => State.latchRail_shut s j cause m hup hj,
    fun j cause m s h5 _ => s.latchRail_latches j cause m h5, ?short, ?retry, ?release, State.releaseLatches_releases⟩
  case faults =>
    rintro j m s hup u rfl
    refine ⟨fun hon => ⟨?_, ?_, ?_⟩, fun hoff => ⟨?_, ?_, ?_, ?_⟩⟩
    · exact congrArg Host.Outcome.next ((if_pos hup).trans (State.railFault_on _ j 0x20 m hon))
    · exact congrArg Host.Outcome.next ((if_pos hup).trans (State.railFault_on _ j 0x23 m hon))
    · exact congrArg Host.Outcome.next ((if_pos hup).trans (State.railFault_on _ j 0x24 m hon))
    · exact congrArg Host.Outcome.next ((if_pos hup).trans (State.railFault_off _ j 0x20 m hoff))
    · exact congrArg Host.Outcome.next ((if_pos hup).trans (State.railFault_off _ j 0x23 m hoff))
    · exact congrArg Host.Outcome.next ((if_pos hup).trans (State.railFault_off _ j 0x24 m hoff))
    · exact congrArg Host.Outcome.next ((if_pos hup).trans (State.softStartShort_off _ j m hoff))
  case short =>
    rintro j m s hup h5 h13 u rfl hst
    refine ⟨fun hr => ?_, fun hr => ?_⟩
    · exact ⟨_, congrArg Host.Outcome.next (if_pos hup), State.softStartShort_waits { s with out := [] } j m h5 h13 hst hr⟩
    · exact congrArg Host.Outcome.next ((if_pos hup).trans (State.softStartShort_retried _ j m h5 h13 hst hr))
  case retry =>
    intro j inp s hup
    refine ⟨fun hst => ?_, fun hst h5 u hu => ?_, fun hst hj hb hsh u hu => ?_⟩
    · exact congrArg Host.Outcome.next ((if_pos hup).trans (if_pos hst))
    · exact congrArg Host.Outcome.next ((if_pos hup).trans (State.softStartRetry_cd { s with out := [] } j inp hst h5 u hu))
    · exact congrArg Host.Outcome.next ((if_pos hup).trans (State.softStartRetry_siod { s with out := [] } j inp hst hj hb hsh u hu))
  case release =>
    intro h
    exact rowDoes_of_execute State.presentStraps (by decide) (fun _ => rfl) (by decide) fun s => execute_release s _ rfl

end Sys2Proof.Machine

namespace Sys2Proof.Machine
open Host

/-! ## Phases and hint windows (R472 to R476) -/

/-- The phases wanted depend on the slots' currents, the windows, the operating point and the dictionary alone. -/
theorem State.phaseTarget_of (s t : State) (ha : t.mpc.slotAmps = s.mpc.slotAmps) (hw : t.mpc.windows = s.mpc.windows)
    (hc : t.clk = s.clk) (ho : t.od = s.od) : t.phaseTarget = s.phaseTarget := by
  have hahead : t.mpc.ahead = s.mpc.ahead := by unfold Mpc.ahead; rw [hw]
  have hodv (k : Nat) : t.odv 0x7031 k = s.odv 0x7031 k := by unfold State.odv State.odk; rw [ho]
  unfold State.phaseTarget State.predicted State.fullAmps
  rw [ha, hahead, hc, hodv 2, hodv 3]

/-- What an evaluation has in hand once the phase that was being shed has stopped. -/
def State.shedBegun (s : State) : State :=
  { s with mpc := { s.mpc with periods := s.mpc.periods + 1, sinceShed := s.mpc.sinceShed + 1, shedding := false,
                               phases := s.mpc.phases - b2n s.mpc.shedding } }

theorem State.shedBegun_target (s : State) : s.shedBegun.phaseTarget = s.phaseTarget :=
  State.phaseTarget_of s s.shedBegun rfl rfl rfl rfl

/-- The evaluation goes on from there by its four cases (R474). -/
theorem State.shedEvaluate_eq (s : State) : s.shedEvaluate =
    if !s.shedBegun.shedEnabled then { s.shedBegun with mpc := { s.shedBegun.mpc with phases := 32, below := 0 } }
    else if s.shedBegun.mpc.holdoff then { s.shedBegun with mpc := { s.shedBegun.mpc with below := 0 } }
    else if s.shedBegun.mpc.phases ≤ s.shedBegun.phaseTarget then
      { s.shedBegun with mpc := { s.shedBegun.mpc with phases := s.shedBegun.phaseTarget, below := 0 } }
    else if 64 ≤ s.shedBegun.mpc.below + 1 ∧ 16 ≤ s.shedBegun.mpc.sinceShed then
      { s.shedBegun with mpc := { s.shedBegun.mpc with below := s.shedBegun.mpc.below + 1, shedding := true, sinceShed := 0 } }
    else { s.shedBegun with mpc := { s.shedBegun.mpc with below := s.shedBegun.mpc.below + 1 } } := by
  unfold State.shedEvaluate
  extract_lets +onlyGivenNames mpc s1 mpc' s2
  have h2 : s2 = s.shedBegun := by
    unfold State.shedBegun
    cases hs : s.mpc.shedding with
    | true => exact if_pos hs
    | false =>
      have hmpc : s.mpc = { s.mpc with shedding := false } := by rw [← hs]
      refine (if_neg (by rw [show s1.mpc.shedding = false from hs]; exact Bool.false_ne_true)).trans ?_
      exact congrArg (fun m : Mpc =>
        ({ s with mpc := { m with periods := s.mpc.periods + 1, sinceShed := s.mpc.sinceShed + 1 } } : State)) hmpc
  rw [h2]

/-- The evaluation of shedding, case by case. -/
theorem State.shedEvaluate_cases (s : State) (p n : Nat) (hp : p = s.mpc.phases - b2n s.mpc.shedding)
    (hn : n = s.phaseTarget) :
    (s.shedEnabled = false → s.shedEvaluate.mpc.phases = 32) ∧
    (s.shedEnabled = true → s.mpc.holdoff = true → s.shedEvaluate.mpc.phases = p) ∧
    (s.shedEnabled = true → s.mpc.holdoff = false → p ≤ n →
      s.shedEvaluate.mpc.phases = n ∧ s.shedEvaluate.mpc.below = 0) ∧
    (s.shedEnabled = true → s.mpc.holdoff = false → n < p →
      s.shedEvaluate.mpc.phases = p ∧ s.shedEvaluate.mpc.below = s.mpc.below + 1 ∧
      s.shedEvaluate.mpc.shedding = decide (64 ≤ s.mpc.below + 1 ∧ 16 ≤ s.mpc.sinceShed + 1)) := by
  have hph : s.shedBegun.mpc.phases = p := hp.symm
  have ht : s.shedBegun.phaseTarget = n := s.shedBegun_target.trans hn.symm
  have hen : s.shedBegun.shedEnabled = s.shedEnabled := rfl
  have hho : s.shedBegun.mpc.holdoff = s.mpc.holdoff := rfl
  rw [State.shedEvaluate_eq, hen, hho, ht, hph]
  refine ⟨fun hoff => ?_, fun hon hh => ?_, fun hon hh hle => ?_, fun hon hh hlt => ?_⟩
  · rw [if_pos (by rw [hoff]; rfl)]
  · rw [if_neg (by rw [hon]; exact Bool.false_ne_true), if_pos hh]
    exact hph
  · rw [if_neg (by rw [hon]; exact Bool.false_ne_true), if_neg (by rw [hh]; exact Bool.false_ne_true), if_pos hle]
    exact ⟨rfl, rfl⟩
  · rw [if_neg (by rw [hon]; exact Bool.false_ne_true), if_neg (by rw [hh]; exact Bool.false_ne_true),
      if_neg (Nat.not_le.mpr hlt)]
    split
    · next h => exact ⟨hph, rfl, (decide_eq_true h).symm⟩
    · next h => exact ⟨hph, rfl, (decide_eq_false h).symm⟩

theorem State.shedEvaluate_touches (s : State) : Touches [.mpc] s s.shedEvaluate := by
  rw [State.shedEvaluate_eq]
  exact .ite (touch_mpc ..) (.ite (touch_mpc ..) (.ite (touch_mpc ..) (.ite (touch_mpc ..) (touch_mpc ..))))

/-- No window, no current. -/
theorem State.predicted_nil (s : State) : s.predicted [] = 0 := by
  have hzero (l : List Nat) : sumR (l.map (fun c => levelOf [] c / 65535 * s.fullAmps)) = 0 := by
    have hlevel (c : Nat) : levelOf [] c / 65535 * s.fullAmps = 0 := by
      rw [show levelOf [] c = 0 from rfl, Rat.div_def, Rat.zero_mul, Rat.zero_mul]
    unfold sumR
    induction l with
    | nil => rfl
    | cons c l ih => rw [List.map_cons, List.foldl_cons, hlevel, Rat.add_zero]; exact ih
  exact hzero (upTo 96)

/-- The only window, when it begins, feeds its whole rise forward. -/
theorem State.windowStart_only (s : State) (w : HintMsg) (h : s.mpc.windows = [(w, false)]) :
    s.windowStart = { s with mpc := { s.mpc with
      windows := [(w, true)], feedForward := natRat (1000 * s.predicted [w] / (s.mpc.phases : Rat)) } } := by
  have hnext : s.mpc.nextWindow = some w := by unfold Mpc.nextWindow Mpc.ahead; rw [h]; rfl
  have hkeep (g : HintMsg × Bool → Bool) (hg : g (w, false) = true) : [(w, false)].filter g = [(w, false)] := by
    rw [List.filter_cons_of_pos hg, List.filter_nil]
  have hbegin : beginWindow [(w, false)] w = [(w, true)] := if_pos ⟨rfl, rfl⟩
  unfold State.windowStart
  rw [hnext, h]
  simp only [hkeep (fun x => !x.2 || decide (w.start < x.1.stop)) rfl, hbegin,
    Bool.false_eq_true, not_false_eq_true, List.filter_cons_of_neg, List.filter_nil,
    List.map_nil, List.nil_append, State.predicted_nil, Rat.sub_eq_add_neg, Rat.neg_zero, Rat.add_zero]

theorem State.windowStart_none (s : State) (h : s.mpc.ahead = []) : s.windowStart = s := by
  unfold State.windowStart Mpc.nextWindow
  rw [h]
  rfl

theorem State.hintReceive_none (s : State) (unit : Nat) (h : s.te.hintQ.find? (fun h => decide (h.1 = unit)) = none) :
    s.hintReceive unit = s := by
  unfold State.hintReceive
  rw [h]

/-- A unit's oldest hint becomes a window ahead, its credit returns, and shedding is aborted. -/
theorem State.hintReceive_some (s : State) (unit : Nat) (h : Nat × HintMsg)
    (hq : s.te.hintQ.find? (fun h => decide (h.1 = unit)) = some h) (hw : ∀ x, x ∈ s.mpc.windows → x.1.source < 0x80) :
    s.hintReceive unit = State.shedAbort { s with
      te := { s.te with hintQ := s.te.hintQ.erase h, credits := tabMod 0 s.te.credits (3 * 128 + unit) (· - 1) }
      mpc := { s.mpc with windows := s.mpc.windows ++ [(h.2, false)] } } := by
  have hkept : s.mpc.windows.filter (fun x => decide (x.1.source < 0x80 ∨ x.1.source ≠ h.2.source)) = s.mpc.windows :=
    List.filter_eq_self.mpr fun x hx => decide_eq_true (.inl (hw x hx))
  unfold State.hintReceive
  rw [hq]
  simp only [hkept]

theorem State.rotate_turns (s : State) (j : Nat) (hj : j < 13) (hst : (s.rail j).st = 2) (hn : s.railPhases j ≠ 0) :
    s.rotate j = { s with mpc := { s.mpc with rails := tabMod {} s.mpc.rails j (fun r =>
      { r with rotation := (r.rotation + 1) % s.railPhases j }) } } := by
  refine if_neg ?_
  rintro (h | h | h)
  · exact hn h
  · exact absurd hj (Nat.not_lt.mpr h)
  · exact h hst

/-- Settles O51: shedding is evaluated, aborted and held off, the phases rotate, and hints become windows. -/
theorem phasesAndHints : Obligations.PhasesAndHints := by
  refine ⟨?shed, ?abort, ?holdoff, ?rotate, ?still, ?noHint, ?hint, ?begins, ?noWindow⟩
  case shed =>
    intro p n s hup hp hn
    obtain ⟨h1, h2, h3, h4⟩ := State.shedEvaluate_cases { s with out := [] } p n hp hn
    exact ⟨_, congrArg Host.Outcome.next (if_pos hup), h1, h2, h3, h4,
      (touch_out s []).andThen (State.shedEvaluate_touches _)⟩
  case abort =>
    intro byHint s hup
    refine ⟨fun hen hless => congrArg Host.Outcome.next ((if_pos hup).trans (if_pos ?_)),
      fun hoff => congrArg Host.Outcome.next ((if_pos hup).trans (if_neg ?_))⟩
    · refine (Bool.and_eq_true_iff).mpr ⟨hen, (Bool.or_eq_true_iff).mpr (hless.imp_right decide_eq_true)⟩
    · intro h
      exact Bool.false_ne_true (hoff.symm.trans (Bool.and_eq_true_iff.mp h).1)
  case holdoff =>
    intro s hup
    exact congrArg Host.Outcome.next (if_pos hup)
  case rotate =>
    intro j s hup hj hst hn
    exact congrArg Host.Outcome.next ((if_pos hup).trans (State.rotate_turns { s with out := [] } j hj hst hn))
  case still =>
    intro j s hup hst
    exact congrArg Host.Outcome.next ((if_pos hup).trans (if_pos (.inr (.inr hst))))
  case noHint =>
    intro unit s hup h
    exact congrArg Host.Outcome.next ((if_pos hup).trans (State.hintReceive_none { s with out := [] } unit h))
  case hint =>
    intro unit h s hup hq _ hw
    exact congrArg Host.Outcome.next ((if_pos hup).trans (State.hintReceive_some { s with out := [] } unit h hq hw))
  case begins =>
    intro w s hup hw
    exact congrArg Host.Outcome.next ((if_pos hup).trans (State.windowStart_only { s with out := [] } w hw))
  case noWindow =>
    intro s hup h
    exact congrArg Host.Outcome.next ((if_pos hup).trans (State.windowStart_none { s with out := [] } h))

end Sys2Proof.Machine

namespace Sys2Proof.Machine
open Host

/-! ## Power measurement (R484 to R489) -/

theorem odv_of_od {s t : State} (h : t.od = s.od) {i k : Nat} : t.odv i k = s.odv i k := by
  unfold State.odv State.odk
  rw [h]

section Slots

variable (s : State)

theorem State.fillWaiting_touches : Touches [.cd, .te, .dictionary] s s.fillWaiting := by
  unfold State.fillWaiting
  split
  · exact .foldl _ _ (touch_te s _).widen fun u x => (u.writeMaster_touches x.1 x.2).widen
  · exact .refl ..

theorem State.sendCopies_touches (cluster : Nat) : Touches [.cd, .te] s (s.sendCopies cluster) := by
  unfold State.sendCopies
  split
  · exact (touch_te s _).widen.trans (State.active_touches _ _ _ _).widen
  · exact .refl ..

theorem State.sendAllCopies_touches : Touches [.cd, .te, .dictionary] s s.sendAllCopies := by
  have hfold (t : State) (l : List Nat) : Touches [.cd, .te, .dictionary] t (l.foldl State.sendCopies t) :=
    .foldl _ _ (.refl ..) fun u c => (u.sendCopies_touches c).widen
  unfold State.sendAllCopies
  exact .ite s.fillWaiting_touches (s.fillWaiting_touches.trans (hfold _ _))

theorem State.aim_syncPos (p : Nat) : (s.aim p).clk.syncPos = s.clk.syncPos := by
  unfold State.aim
  split
  · rfl
  · split
    · rfl
    · split
      · rfl
      · rfl

theorem State.reaim_syncPos : s.reaim.clk.syncPos = s.clk.syncPos := by
  unfold State.reaim
  split
  · rfl
  · exact s.aim_syncPos _

end Slots

/-- What a slot boundary leaves of the measurement and of the current controller (R485, R486, R488). -/
def SlotDone (s : State) (r : SlotReadings) (t : State) : Prop :=
  t.clk.syncPos = (if s.clk.syncIn then r.edge % 4000 else s.clk.syncPos) ∧ t.mpc.k = s.mpc.nextK.getD s.mpc.k ∧
  t.mpc.nextK = none ∧ t.mpc.slot = s.intake / 2 % 16 ∧ t.mpc.slotAmps = (r.deciAmp :: s.mpc.slotAmps).take 500 ∧
  t.mpc.duty = lambdaDuty s.fixedPoint s.lambda ∧
  (10 * s.odv 0x7030 5 < r.deciAmp → t.mpc.lI = min (s.mpc.lI + 1) s.lambdaMax ∧ t.mpc.iQuiet = 0) ∧
  (r.deciAmp ≤ 10 * s.odv 0x7030 5 → 9 * s.odv 0x7030 5 ≤ r.deciAmp → t.mpc.lI = s.mpc.lI ∧ t.mpc.iQuiet = 0) ∧
  (r.deciAmp < 9 * s.odv 0x7030 5 → t.mpc.lI = if s.mpc.iQuiet + 1 = 500 then s.mpc.lI - 1 else s.mpc.lI) ∧
  t.mpc.lCap = s.mpc.lCap ∧ t.mpc.lT = s.mpc.lT

theorem SlotDone.of_mpc {s t u : State} {r : SlotReadings} (h : SlotDone s r t) (hm : u.mpc = t.mpc)
    (hc : u.clk.syncPos = t.clk.syncPos) : SlotDone s r u := by
  unfold SlotDone
  rw [hm, hc]
  exact h

/-- The current controller's level and its count of quiet slots after a slot of `amps`, the limit in tenths of an ampere. -/
def currentStep (limit amps quiet level top : Nat) : Nat × Nat :=
  let q := if decide (10 * amps < 9 * limit) then quiet + 1 else 0
  if limit < amps then (0, min (level + 1) top) else if q = 500 then (0, level - 1) else (q, level)

theorem currentStep_above {limit amps : Nat} (quiet level top : Nat) (h : limit < amps) :
    currentStep limit amps quiet level top = (0, min (level + 1) top) := if_pos h

theorem currentStep_near {limit amps : Nat} (quiet level top : Nat) (h : amps ≤ limit) (hn : 9 * limit ≤ 10 * amps) :
    currentStep limit amps quiet level top = (0, level) := by
  unfold currentStep
  have hq : ¬ decide (10 * amps < 9 * limit) = true := fun hd => absurd (of_decide_eq_true hd) (Nat.not_lt.mpr hn)
  simp only [if_neg hq]
  exact (if_neg (Nat.not_lt.mpr h)).trans (if_neg (by decide))

theorem currentStep_below {limit amps : Nat} (quiet level top : Nat) (h : 10 * amps < 9 * limit) :
    (currentStep limit amps quiet level top).2 = if quiet + 1 = 500 then level - 1 else level := by
  unfold currentStep
  simp only [if_pos (decide_eq_true h)]
  rw [if_neg (show ¬ limit < amps by omega)]
  exact apply_ite ..

theorem State.slotBoundary_done (s : State) (r : SlotReadings) :
    SlotDone s r (s.slotBoundary r) ∧ Touches [.mpc, .clk, .cd] s (s.slotBoundary r) := by
  unfold State.slotBoundary
  extract_lets +onlyGivenNames duty clk s1 s2 m k raw pCd limit lmax below quiet ql m' s3 good mpc s4
  have h1 : Touches [.clk, .cd] s s1 := .ite (touch_clk ..).widen (.refl ..)
  have hsync : s1.clk.syncPos = if s.clk.syncIn then r.edge % 4000 else s.clk.syncPos :=
    (apply_ite (fun t : State => t.clk.syncPos) _ _ _)
  have h12 : Touches [.cd] s1 s2 := .foldl _ _ (.refl ..) fun u c => u.active_touches ..
  have h2 : Touches [.clk, .cd] s s2 := h1.trans h12.widen
  have hm : m = s.mpc := h2.mpc
  have hlimit : limit = 10 * s.odv 0x7030 5 := congrArg (10 * ·) (odv_of_od h2.od)
  have hlmax : lmax = s.lambdaMax := congrArg (· + 15) (odv_of_od h2.od)
  have hql : ql = currentStep limit r.deciAmp m.iQuiet m.lI lmax := rfl
  have hclk3 : s3.clk.syncPos = s1.clk.syncPos := congrArg Clk.syncPos h12.clk
  have hm3 : m'.k = m.nextK.getD m.k ∧ m'.nextK = none ∧ m'.slot = s2.intake / 2 % 16 ∧
      m'.slotAmps = (r.deciAmp :: m.slotAmps).take 500 ∧ m'.lI = ql.2 ∧ m'.iQuiet = ql.1 ∧ m'.lCap = m.lCap ∧ m'.lT = m.lT :=
    ⟨rfl, rfl, rfl, rfl, rfl, rfl, rfl, rfl⟩
  have h3 : Touches [.mpc, .clk, .cd] s s3 := h2.widen.trans (touch_mpc s2 m').widen
  have hs3 : s3.mpc = m' := rfl
  have hm4 : s4.mpc = { m' with headroom := if good then m'.headroom + 1 else 0, duty := duty } := rfl
  have h4 : Touches [.mpc, .clk, .cd] s s4 := h3.trans (touch_mpc s3 s4.mpc).widen
  have hc4 : s4.clk.syncPos = s1.clk.syncPos := hclk3
  clear_value s4 s3 m' ql good
  refine ⟨SlotDone.of_mpc (t := s4) ?_ s4.reaim_touches.mpc s4.reaim_syncPos, h4.trans s4.reaim_touches.widen⟩
  obtain ⟨hk, hnext, hslot, hamps, hlI, hquiet, hcap, hlT⟩ := hm3
  unfold SlotDone
  rw [hm4, hc4, hsync]
  simp only [hk, hnext, hslot, hamps, hlI, hquiet, hcap, hlT, hql, hlimit, hlmax, hm, h2.intake, true_and, and_true]
  refine ⟨rfl, fun habove => ?_, fun hat hnear => ?_, fun hbelow => ?_⟩
  · rw [currentStep_above _ _ _ habove]
    exact ⟨rfl, rfl⟩
  · rw [currentStep_near _ _ _ hat (by omega)]
    exact ⟨rfl, rfl⟩
  · exact currentStep_below _ _ _ (by omega)

/-- A sample of the input power is added to the mean and to the energy. -/
theorem State.inputSample_adds (s : State) (mv ma : Nat) :
    (s.inputSample mv ma).power.vin = mv ∧ (s.inputSample mv ma).power.iin = ma ∧
    (s.inputSample mv ma).power.gate = s.power.gate ∧
    (s.power.powerCount = 499 → (s.inputSample mv ma).power.powerMean = (s.power.powerAcc + mv * ma) / 500000000 ∧
      (s.inputSample mv ma).power.powerAcc = 0 ∧ (s.inputSample mv ma).power.powerCount = 0) ∧
    (s.power.powerCount < 499 → (s.inputSample mv ma).power.powerMean = s.power.powerMean ∧
      (s.inputSample mv ma).power.powerAcc = s.power.powerAcc + mv * ma ∧
      (s.inputSample mv ma).power.powerCount = s.power.powerCount + 1) ∧
    (s.odv 0x4030 10 + (s.power.energyFrac + 2 * (mv * ma)) / 1000000 < 2 ^ 64 →
      1000000 * (s.inputSample mv ma).odv 0x4030 10 + (s.inputSample mv ma).power.energyFrac =
        1000000 * s.odv 0x4030 10 + s.power.energyFrac + 2 * (mv * ma)) ∧
    Touches [.power, .dictionary] s (s.inputSample mv ma) := by
  unfold State.inputSample
  extract_lets +onlyGivenNames p e s1 acc n pw q
  have h1 : Touches [.dictionary] s s1 := s.count64_touches 0x4030 10 (e / 1000000)
  have hacc : acc = s.power.powerAcc + mv * ma := congrArg (fun x : Power => x.powerAcc + mv * ma) h1.power
  have hn : n = s.power.powerCount + 1 := congrArg (fun x : Power => x.powerCount + 1) h1.power
  have hod : s1.odv 0x4030 10 = sat64 (s.odv 0x4030 10) (e / 1000000) := (State.odPut_odk ..).trans (if_pos rfl)
  have he : e = s.power.energyFrac + 2 * (mv * ma) := rfl
  have hq : q.vin = mv ∧ q.iin = ma ∧ q.gate = s1.power.gate ∧ q.powerMean = s1.power.powerMean ∧ q.energyFrac = e % 1000000 :=
    ⟨rfl, rfl, rfl, rfl, rfl⟩
  clear_value q s1 acc n e
  obtain ⟨hvin, hiin, hgate, hmean, hfrac⟩ := hq
  have henergy (w : Power) (hw : w.energyFrac = q.energyFrac) :
      s.odv 0x4030 10 + (s.power.energyFrac + 2 * (mv * ma)) / 1000000 < 2 ^ 64 →
      1000000 * s1.odv 0x4030 10 + w.energyFrac = 1000000 * s.odv 0x4030 10 + s.power.energyFrac + 2 * (mv * ma) := by
    intro hlt
    rw [hw, hfrac, hod, he]
    unfold sat64 u64Max
    omega
  by_cases h : n = 500
  · rw [if_pos h]
    refine ⟨hvin, hiin, hgate.trans (by rw [h1.power]), fun _ => ⟨congrArg (· / 500000000) hacc, rfl, rfl⟩, fun hlt => ?_,
      henergy _ rfl, h1.widen.trans (touch_power s1 _).widen⟩
    omega
  · rw [if_neg h]
    refine ⟨hvin, hiin, hgate.trans (by rw [h1.power]), fun hat => ?_, fun _ => ⟨?_, hacc, hn⟩,
      henergy _ rfl, h1.widen.trans (touch_power s1 _).widen⟩
    · omega
    · exact hmean.trans (by rw [h1.power])

/-- Settles O52: a slot boundary, the calibration and the samples of the input power. -/
theorem powerMeasurement : Obligations.PowerMeasurement := by
  refine ⟨?slot, ?running, ?stopped, ?sample⟩
  case slot =>
    intro r s hup
    obtain ⟨hdone, ht⟩ := State.slotBoundary_done { s with out := [] } r
    have hsend := (State.slotBoundary { s with out := [] } r).sendAllCopies_touches
    obtain ⟨h1, h2, h3, h4, h5, h6, h7, h8, h9, h10, h11⟩ :=
      hdone.of_mpc hsend.mpc (congrArg Clk.syncPos hsend.clk)
    exact ⟨_, congrArg Host.Outcome.next (if_pos hup), h1, h2, h3, h4, h5, h6, h7, h8, h9, h10, h11,
      ((touch_out s []).widen.trans ht.widen).trans hsend.widen⟩
  case running =>
    intro measured s hup hrun he
    refine congrArg Host.Outcome.next ((if_pos hup).trans ((if_pos hrun).trans ?_))
    rw [if_neg (show ¬ ({ s with out := [] } : State).mpc.estEnergy = 0 from he)]
  case stopped =>
    intro measured s hup hrun
    exact congrArg Host.Outcome.next ((if_pos hup).trans (if_neg (by rw [hrun]; exact Bool.false_ne_true)))
  case sample =>
    intro mv ma s hup
    obtain ⟨h1, h2, h3, h4, h5, h6, h7⟩ := State.inputSample_adds { s with out := [] } mv ma
    exact ⟨_, congrArg Host.Outcome.next (if_pos hup), h1, h2, h3, h4, h5, h6, (touch_out s []).widen.trans h7.widen⟩

end Sys2Proof.Machine

namespace Sys2Proof.Machine
open Host

/-! ## Temperatures (R489 to R501) -/

section Thermal

variable (s : State)

/-- The thermal controller's level and its count of cool updates after an update. -/
theorem State.thermalUpdate_level (hot cool : Bool)
    (hhot : hot = (decide (signed 32 (s.odv 0x7030 1) ≤ s.hotCd) || decide (signed 32 (s.odv 0x7030 2) ≤ s.hotHbm)))
    (hcool : cool = (decide (s.hotCd ≤ signed 32 (s.odv 0x7030 1) - 500) &&
      decide (s.hotHbm ≤ signed 32 (s.odv 0x7030 2) - 500))) :
    (hot = true → s.thermalUpdate.mpc.lT = min (s.mpc.lT + 1) s.lambdaMax ∧ s.thermalUpdate.mpc.tQuiet = 0) ∧
    (hot = false → cool = false → s.thermalUpdate.mpc.lT = s.mpc.lT ∧ s.thermalUpdate.mpc.tQuiet = 0) ∧
    (hot = false → cool = true → s.mpc.tQuiet = 9 →
      s.thermalUpdate.mpc.lT = s.mpc.lT - 1 ∧ s.thermalUpdate.mpc.tQuiet = 0) ∧
    (hot = false → cool = true → s.mpc.tQuiet ≠ 9 →
      s.thermalUpdate.mpc.lT = s.mpc.lT ∧ s.thermalUpdate.mpc.tQuiet = s.mpc.tQuiet + 1) ∧
    s.thermalUpdate.mpc.lI = s.mpc.lI ∧ s.thermalUpdate.mpc.lCap = s.mpc.lCap ∧
    Touches [.mpc, .clk, .dictionary, .log, .host, .out] s s.thermalUpdate := by
  unfold State.thermalUpdate
  extract_lets cdT hbmT cdHot hot' cool' m ql was now s1 i s2 s3
  have h' : hot' = hot := hhot.symm
  have c' : cool' = cool := hcool.symm
  have hql : ql = if hot' then (0, min (m.lT + 1) s.lambdaMax)
    else if cool' && m.tQuiet + 1 == 10 then (0, m.lT - 1) else (if cool' then m.tQuiet + 1 else 0, m.lT) := rfl
  have hm1 : s1.mpc.lT = ql.2 ∧ s1.mpc.tQuiet = ql.1 ∧ s1.mpc.lI = s.mpc.lI ∧ s1.mpc.lCap = s.mpc.lCap := ⟨rfl, rfl, rfl, rfl⟩
  have h1 : Touches [.mpc] s s1 := touch_mpc ..
  have h2 : Touches logParts s1 s2 := .ite (State.count_touches s1 0x7042 4 1).widen (.refl ..)
  have h3 : Touches logParts s2 s3 := .ite (.refl ..) (s2.mpcLog_touches ..)
  clear_value s3 s2 s1 ql hot' cool'
  have h13 : Touches logParts s1 s3 := h2.trans h3
  have hend := s3.reaim_touches
  obtain ⟨hlT, hq, hlI, hcap⟩ := hm1
  rw [hend.mpc, h13.mpc, hlT, hq, hlI, hcap, hql, h', c']
  refine ⟨fun h => ?_, fun h hc => ?_, fun h hc hn => ?_, fun h hc hn => ?_, rfl, rfl,
    (h1.widen.trans h13.widen).trans hend.widen⟩
  · rw [if_pos h]
    exact ⟨rfl, rfl⟩
  · rw [h, hc]
    exact ⟨rfl, rfl⟩
  · rw [h, hc, if_neg Bool.false_ne_true, if_pos (by rw [show m.tQuiet = 9 from hn]; rfl)]
    exact ⟨rfl, rfl⟩
  · have hne : m.tQuiet ≠ 9 := hn
    rw [h, hc, if_neg Bool.false_ne_true, if_neg (by simp [hne]), if_pos rfl]
    exact ⟨rfl, rfl⟩

/-- Where the headroom criterion holds and no slew runs, the point heads for the next one. -/
theorem State.opportunisticRaise_heads (hrun : s.cd.running = true) (hh : s.headroomHolds = true)
    (ht : s.clk.target = none) (hp : s.clk.point < 7) :
    s.opportunisticRaise = { s with clk := { s.clk with
      target := some (s.clk.point + 1)
      vddC := if s.clk.divider < pointSteps (s.clk.point + 1) then pointMv (s.clk.point + 1) else s.clk.vddC } } := by
  have hmin : min 7 (s.clk.point + 1) = s.clk.point + 1 := Nat.min_eq_right hp
  unfold State.opportunisticRaise
  rw [if_pos (by rw [hh, ht]; rfl), hmin]
  unfold State.aim
  rw [if_neg (by rw [hrun]; exact Bool.false_ne_true), ht]
  exact if_neg (Nat.succ_ne_self _)

theorem State.opportunisticRaise_stays (hh : s.headroomHolds = false) (hm : s.mayRun s.clk.heading = true) :
    s.opportunisticRaise = s := by
  unfold State.opportunisticRaise
  rw [if_neg (by rw [hh]; exact Bool.false_ne_true)]
  exact if_pos hm

/-- A trip of a CD sensor latches the CD off. -/
theorem State.cdTrip_latches (cause i : Nat) :
    (s.cdTrip cause i).cd.thermalLatch = true ∧ (s.cdTrip cause i).cd.running = false ∧ (s.cdTrip cause i).mode = s.mode ∧
    (s.cdTrip cause i).power = s.power := by
  unfold State.cdTrip
  extract_lets second cd s1 s2
  have h1 : Touches [.cd] s s1 := touch_cd ..
  have hf := s1.faultRecord_touches cause s1.afterCdFault { place := i }
  have hstop := (s1.faultRecord cause s1.afterCdFault { place := i }).cdStop_touches 2
  have hlatch (t : State) : (t.cdStop 2).cd.thermalLatch = t.cd.thermalLatch := by
    cases hrun : t.cd.running with
    | true => rw [(State.cdStop_running t 2 hrun).1]
    | false => unfold State.cdStop; rw [if_neg (by rw [hrun]; exact Bool.false_ne_true)]
  have h2 : s2.cd.thermalLatch = true ∧ s2.cd.running = false ∧ s2.mode = s.mode ∧ s2.power = s.power :=
    ⟨(hlatch _).trans (congrArg Cd.thermalLatch hf.cd), (State.cdStop_cd ..).1,
      hstop.mode.trans (hf.mode.trans h1.mode), hstop.power.trans (hf.power.trans h1.power)⟩
  have h3 := s2.mpcEvent_touches 0x7107 2
  split
  · rw [h3.cd, h3.mode, h3.power]
    exact h2
  · exact h2

theorem State.siodWarm_sensors : Touches (.mpc :: logParts) s s.siodWarm ∧ s.siodWarm.mpc.sensors = s.mpc.sensors := by
  unfold State.siodWarm
  extract_lets t i
  split
  · refine ⟨(touch_mpc s _).widen.trans (State.mpcLog_touches ..).widen, ?_⟩
    rw [(State.mpcLog_touches ..).mpc]
  · split
    · exact ⟨(touch_mpc s _).widen, rfl⟩
    · exact ⟨.refl .., rfl⟩

end Thermal

section Sensors

variable (old : Tab Sensor) (rs : List Int)

/-- A good reading of a sensor is the one used. -/
theorem Sensor.read_good (i : Nat) (hst : (tabGet {} old i).st = 0) (haway : (tabGet {} old i).away < 999) :
    (Sensor.read old rs i).1.used = rs.getD i 0 ∧ (Sensor.read old rs i).1.reading = rs.getD i 0 ∧
    (Sensor.read old rs i).1.st ≠ 1 := by
  unfold Sensor.read
  extract_lets c x good vs die checked med d near away
  have ha : ¬ 1000 ≤ away := by
    have : away ≤ c.away + 1 := by unfold away; split <;> omega
    have : c.away < 999 := haway
    omega
  rw [if_neg (show ¬ c.st = 1 by rw [show c.st = 0 from hst]; decide)]
  split
  · exact ⟨rfl, rfl, show (2 : Nat) ≠ 1 by decide⟩
  · exact ⟨rfl, rfl, show (0 : Nat) ≠ 1 by decide⟩

/-- Entries put one by one stand in the table. -/
theorem tabGet_foldl_tabPut {α β : Type} [DecidableEq α] (d : α) (g : Nat × β → α) (f : Nat → β) (l : List Nat) (t : Tab α) (i : Nat)
    (h : i ∈ l ∨ tabGet d t i = g (i, f i)) :
    tabGet d ((l.map fun j => (j, f j)).foldl (fun t r => tabPut d t r.1 (g r)) t) i = g (i, f i) := by
  induction l generalizing t with
  | nil => exact h.resolve_left List.not_mem_nil
  | cons j l ih =>
    refine ih _ ?_
    rw [tabGet_tabPut]
    by_cases hj : i = j
    · exact .inr (by rw [if_pos hj, hj])
    · rw [if_neg hj]
      exact h.imp_left fun hm => (List.mem_cons.mp hm).resolve_left hj

/-- A sensor's reading, held against its trip. -/
def Sensor.judged (r : Nat × Sensor × Option (Bool × Int)) : Sensor :=
  { r.2.1 with trip := tripAt r.1 r.2.1.used, tripped := tripAt r.1 r.2.1.used && (tabGet {} old r.1).trip }

/-- The sensors after a read. -/
def sensorsRead : Tab Sensor :=
  ((upTo 95).map (fun i => (i, Sensor.read old rs i))).foldl (fun t r => tabPut {} t r.1 (Sensor.judged old r)) []

/-- The sensors that are at their trip in a second read. -/
def secondTrips : List Nat :=
  (upTo 95).filter (fun i => tripAt i (Sensor.read old rs i).1.used && (tabGet {} old i).trip)

theorem sensorsRead_get (i : Nat) (h : i < 95) : tabGet {} (sensorsRead old rs) i = { (Sensor.read old rs i).1 with
    trip := tripAt i (Sensor.read old rs i).1.used,
    tripped := tripAt i (Sensor.read old rs i).1.used && (tabGet {} old i).trip } :=
  tabGet_foldl_tabPut ({} : Sensor) (Sensor.judged old) (Sensor.read old rs) (upTo 95) [] i (.inl (List.mem_range.mpr h))

/-- The model looks each sensor's reading up in the list of all. -/
theorem secondTrips_eq : (upTo 95).filter (fun i =>
    match ((upTo 95).map (fun i => (i, Sensor.read old rs i)))[i]? with
    | some r => tripAt i r.2.1.used && (tabGet {} old i).trip
    | none => false) = secondTrips old rs := by
  refine List.filter_congr fun i hi => ?_
  have hlt : i < 95 := List.mem_range.mp hi
  have hget : ((upTo 95).map (fun i => (i, Sensor.read old rs i)))[i]? = some (i, Sensor.read old rs i) := by
    rw [List.getElem?_map, show (upTo 95)[i]? = some i from List.getElem?_range hlt]
    rfl
  rw [hget]

/-- The state once the sensors are read and their changes logged. -/
def State.sensorsLogged (s : State) (rs : List Int) : State :=
  ((upTo 95).map (fun i => (i, Sensor.read s.mpc.sensors rs i))).foldl (fun (s : State) r =>
    match r.2.2 with
    | some e => s.mpcLog 0x7105 r.1 (packBytes [(1, r.1), (1, b2n e.1), (2, temp16 r.2.1.reading), (2, temp16 e.2)])
    | none => s) { s with mpc := { s.mpc with sensors := sensorsRead s.mpc.sensors rs } }

variable (s : State)

theorem State.sensorsLogged_touches : Touches (.mpc :: logParts) s (s.sensorsLogged rs) ∧
    (s.sensorsLogged rs).mpc.sensors = sensorsRead s.mpc.sensors rs := by
  have h : Touches logParts { s with mpc := { s.mpc with sensors := sensorsRead s.mpc.sensors rs } } (s.sensorsLogged rs) := by
    refine .foldl _ _ (.refl ..) fun u r => ?_
    split
    · exact u.mpcLog_touches ..
    · exact .refl ..
  exact ⟨(touch_mpc s _).widen.trans h.widen, congrArg Mpc.sensors h.mpc⟩

/-- A read that finds no second trip only warns. -/
theorem State.sensorRead_noTrip (h : secondTrips s.mpc.sensors rs = []) :
    s.sensorRead rs = (s.sensorsLogged rs).siodWarm := by
  unfold State.sensorRead
  extract_lets +onlyGivenNames old res trips new mpc s1 s2
  have ht : trips = [] := (secondTrips_eq _ _).trans h
  have hs2 : s2 = s.sensorsLogged rs := rfl
  rw [ht, hs2]
  rfl

/-- A second trip of a SIOD sensor shuts the module down. -/
theorem State.sensorRead_siod (i : Nat)
    (h : (secondTrips s.mpc.sensors rs).find? (fun i => decide (64 ≤ i ∧ i < 80)) = some i) :
    s.sensorRead rs = (s.sensorsLogged rs).enterShutdown 0x10 { place := i } := by
  unfold State.sensorRead
  extract_lets +onlyGivenNames old res trips new mpc s1 s2
  have ht : trips = secondTrips s.mpc.sensors rs := secondTrips_eq _ _
  have hs2 : s2 = s.sensorsLogged rs := rfl
  rw [ht, h, hs2]

end Sensors

/-- Settles O53: the thermal controller, the raise of the point, and what a read of the sensors does. -/
theorem temperatures : Obligations.Temperatures := by
  refine ⟨?thermal, ?raise, ?stays, ?noTrip, ?siod, fun cause i s _ => s.cdTrip_latches cause i,
    fun i rs old hst haway => Sensor.read_good old rs i hst haway⟩
  case thermal =>
    intro hot cool s hup hhot hcool
    obtain ⟨h1, h2, h3, h4, h5, h6, h7⟩ := State.thermalUpdate_level { s with out := [] } hot cool hhot hcool
    exact ⟨_, congrArg Host.Outcome.next (if_pos hup), h1, h2, h3, h4, h5, h6, (touch_out s []).widen.trans h7⟩
  case raise =>
    intro s hup hrun hh ht hp
    exact congrArg Host.Outcome.next ((if_pos hup).trans (State.opportunisticRaise_heads { s with out := [] } hrun hh ht hp))
  case stays =>
    intro s hup hh hm
    exact congrArg Host.Outcome.next ((if_pos hup).trans (State.opportunisticRaise_stays { s with out := [] } hh hm))
  case noTrip =>
    intro rs s hup htrip
    have hnone : secondTrips s.mpc.sensors rs = [] :=
      List.filter_eq_nil_iff.mpr fun i _ => by
        rw [show (tabGet {} s.mpc.sensors i).trip = false from htrip i, Bool.and_false]
        exact Bool.false_ne_true
    obtain ⟨hl, hsensors⟩ := State.sensorsLogged_touches rs { s with out := [] }
    obtain ⟨hw, hkeep⟩ := (State.sensorsLogged { s with out := [] } rs).siodWarm_sensors
    refine ⟨_, congrArg Host.Outcome.next ((if_pos hup).trans (State.sensorRead_noTrip rs { s with out := [] } hnone)),
      fun i hi => ?_, ((touch_out s []).widen.trans hl).trans hw⟩
    unfold State.sensor
    rw [hkeep, hsensors, sensorsRead_get _ _ i hi, show (tabGet {} s.mpc.sensors i).trip = false from htrip i, Bool.and_false]
  case siod =>
    intro i rs s hup hi hi' htrip hat
    have hmem : i ∈ secondTrips s.mpc.sensors rs :=
      List.mem_filter.mpr ⟨List.mem_range.mpr (by omega), Bool.and_eq_true_iff.mpr ⟨hat, htrip⟩⟩
    obtain ⟨j, hj⟩ : ∃ j, (secondTrips s.mpc.sensors rs).find? (fun i => decide (64 ≤ i ∧ i < 80)) = some j :=
      Option.isSome_iff_exists.mp (List.find?_isSome.mpr ⟨i, hmem, decide_eq_true ⟨hi, hi'⟩⟩)
    obtain ⟨hl, -⟩ := State.sensorsLogged_touches rs { s with out := [] }
    have hup' : (State.sensorsLogged { s with out := [] } rs).up = true :=
      (congrArg (fun m : Mode => (decide (m ≠ .off ∧ m ≠ .shutdownLatched))) hl.mode).trans hup
    exact ⟨_, congrArg Host.Outcome.next ((if_pos hup).trans (State.sensorRead_siod rs { s with out := [] } j hj)),
      State.enterShutdown_shut _ 0x10 { place := j } hup'⟩

end Sys2Proof.Machine

namespace Sys2Proof.Machine
open Host

/-! ## Attachment (R330, R331) -/

/-- Landing 0 stands three times in the table of landings: first without a place, and twice more, hidden from a look-up, at
a berth of link 1, which has ended. -/
def hiddenPlaces : State :=
  { mode := .standbyCold
    power := { servicesUp := true }
    ferry := { landings := [(0, {}), (0, { place := some (1, 0) }), (0, { place := some (1, 0) })]
               links := [(1, { endOld := true })]
               changes := [{ attach := true, landing := 0, link := 0, berth := 0 }] } }

/-- The landing's epoch advances once for each of its places that ended. -/
theorem hiddenPlaces_epoch : ((State.attachEffect { hiddenPlaces with out := [] }).landing 0).epoch = 2 := by
  decide +kernel

/-- Refutes O41: the boundary takes the landings of an ended link from the table's entries and not from a look-up, so a
table with several entries for the attached landing, which the statement does not exclude, advances its epoch by more than
one. -/
theorem not_attachment : ¬ Obligations.Attachment := by
  intro h
  obtain ⟨t, hrun, -, hepoch, -⟩ := h.2 0 0 0 hiddenPlaces (by decide +kernel) rfl rfl
  have hserved : ({ hiddenPlaces with out := [] } : State).services = true := by decide +kernel
  have ht : State.attachEffect { hiddenPlaces with out := [] } = t :=
    Host.Outcome.next.inj ((congrArg Host.Outcome.next (if_pos hserved)).symm.trans hrun)
  rw [← ht, hiddenPlaces_epoch] at hepoch
  exact absurd hepoch (by decide +kernel)

end Sys2Proof.Machine

namespace Sys2Proof.Machine
open Host

/-! ## The budget and its barriers (R252, R253, R258, R266) -/

section Tables

variable {α : Type} (t : Tab α)

theorem tabFind_tabInsert_same (i : Nat) (v : α) : tabFind (tabInsert t i v) i = some v := by
  induction t with
  | nil => exact if_pos rfl
  | cons p t ih =>
    unfold tabInsert
    split
    · exact if_pos rfl
    · next hlt =>
      split
      · exact if_pos rfl
      · next hne => exact (if_neg hne).trans ih

theorem tabFind_tabPut_same [DecidableEq α] (d : α) (i : Nat) (v : α) (h : v ≠ d) : tabFind (tabPut d t i v) i = some v := by
  unfold tabPut
  rw [if_neg h]
  exact tabFind_tabInsert_same t i v

end Tables

section Budget

variable (s : State)

/-- The value in force of an entry that takes effect later stays as its value is written. -/
theorem State.odWrite_effk (k v : Nat) (h : effectOf k ≠ .now) : (s.odWrite k v).effk k = s.effk k := by
  unfold State.odWrite
  rw [if_neg h]
  cases hf : tabFind s.eff k with
  | some x => 
    unfold State.effk State.odPut
    rw [hf]
  | none =>
    unfold State.effk State.odPut
    rw [hf]
    simp only [tabFind_tabInsert_same]

/-- The value in force depends on the values kept for later and on the dictionary. -/
theorem effv_of {s t : State} {i k : Nat} (he : t.eff = s.eff) (ho : t.odv i k = s.odv i k) : t.effv i k = s.effv i k := by
  unfold State.effv State.effk
  rw [he]
  cases tabFind s.eff (okey i k) with
  | some v => rfl
  | none => exact ho

theorem State.arrival_eff (h : ReqHead) (i k n v : Nat) : (s.arrival h i k n v).eff = s.eff := by
  unfold State.arrival
  cases h.via with
  | host => rfl
  | dap p m t => rfl

theorem State.afterWrite_budget (old : Nat) : s.afterWrite 0x4001 1 old = s := by
  unfold State.afterWrite
  simp

theorem State.setValue_budget (v : Nat) : s.setValue 0x4001 1 v false = s.odWrite (okey 0x4001 1) v := by
  unfold State.setValue
  exact State.afterWrite_budget _ _

/-- An admitted write of the budget is stored, and the value in force stays. -/
theorem budgetWrite_stores {s : State} {h : ReqHead} {w : Nat} (a : s.admits h 0x4001 1 4 w) :
    Runs (.budgetWrite h w) s (fun t => t.odv 0x4001 1 = w ∧ t.effv 0x4001 1 = s.effv 0x4001 1 ∧
      (∀ i k, okey i k ≠ okey 0x4001 1 → okey i k ≠ okey 0x1001 6 → okey i k ≠ okey 0x1020 1 → t.odv i k = s.odv i k)) := by
  refine runs_of_commit (State.presentStraps { s with out := [] }) a rfl (by decide) fun t hc => ?_
  rw [commit_setting (show isSetting 0x4001 1 false = true by decide), State.setValue_budget] at hc
  have hkeep := (s.arrival_keeps h 0x4001 1 4 w).2
  have heff : (s.arrival h 0x4001 1 4 w).effv 0x4001 1 = s.effv 0x4001 1 :=
    effv_of (s.arrival_eff ..) (hkeep.entry _ (by decide))
  have hw := State.odWrite_effk (s.arrival h 0x4001 1 4 w) (okey 0x4001 1) w (by decide)
  have hod := State.odWrite_odk (s.arrival h 0x4001 1 4 w) (okey 0x4001 1) w
  generalize State.odWrite (s.arrival h 0x4001 1 4 w) (okey 0x4001 1) w = c at *
  obtain ⟨host, net, out, free, ch, rfl⟩ := hc
  refine ⟨(hod _).trans (if_pos rfl), hw.trans heff, fun i k h1 h2 h3 => ?_⟩
  exact ((hod _).trans (if_neg h1)).trans (hkeep.entry _ (by simp [requestCounters, h2, h3]))

/-- At the period's boundary a budget that waits is in force. -/
theorem State.takeEffect_budget : (s.takeEffect .period).effv 0x4001 1 = s.odv 0x4001 1 := by
  have h : tabFind (s.takeEffect .period).eff (okey 0x4001 1) = none :=
    tabFind_filter s.eff (fun k => decide (effectOf k ≠ .period)) (by decide)
  unfold State.effv State.effk
  rw [h]
  rfl

theorem State.applyBudget_waiting (h : (tabFind s.eff (okey 0x4001 1)).isSome = true) :
    s.applyBudget.effv 0x4001 1 = s.odv 0x4001 1 ∧ s.applyBudget.bm.source = 0 := by
  unfold State.applyBudget
  rw [if_pos h]
  exact ⟨State.takeEffect_budget _, rfl⟩

/-- A refresh that did not come puts the fallback in the budget's place (R253). -/
theorem State.applyBudget_fallback (hdue : s.bm.refreshDue = true) (hr : s.odv 0x4001 4 ≠ 0)
    (h : tabFind s.eff (okey 0x4001 1) = none) : s.applyBudget.odv 0x4001 1 = s.odv 0x4001 2 ∧
      s.applyBudget.bm.source = 1 ∧ s.applyBudget.bm.refreshDue = false := by
  unfold State.applyBudget
  rw [if_neg (by rw [h]; exact Bool.false_ne_true), if_pos ⟨hdue, hr⟩]
  extract_lets boot s1 bm s2
  have hl := (s2.logEvent_touches 0x4001 boot).trans ((s2.logEvent 0x4001 boot).raise_touches irqBudget).widen
  have hk : KeepsEntries logCounters s2 ((s2.logEvent 0x4001 boot).raise irqBudget) :=
    (s2.logEvent_keepsEntries 0x4001 boot).trans (.of_od (State.raise_touches _ _).od)
  have h2 : s2.odv 0x4001 1 = boot := (s.odPut_odk ..).trans (if_pos rfl)
  refine ⟨(hk.entry _ (by decide)).trans h2, ?_, ?_⟩
  · exact congrArg Bm.source hl.bm
  · exact congrArg Bm.refreshDue hl.bm

/-- A barrier's release is counted, and is the group's release. -/
theorem State.releaseGroup_releases (g : Nat) (t : Nat × Nat) (hgr : s.grants = true) (hg : g < 64) (hheld : s.heldAt g ≠ [])
    (ht : s.releaseStart g (s.heldAt g) = some t) :
    (∃ y, tabFind (s.releaseGroup g).bm.groups g = some y ∧ y.relAt = some t.1 ∧ y.relEvent = t.2 ∧ y.relIds = s.heldAt g) ∧
    (s.releaseGroup g).odv (0x4200 + g) 13 = min (s.odv (0x4200 + g) 13 + 1) u32Max ∧
    Touches [.dictionary, .ferry, .bm] s (s.releaseGroup g) := by
  unfold State.releaseGroup
  rw [if_pos hgr]
  unfold State.barrierRelease
  extract_lets ids s1 r d ms
  rw [if_neg (not_or.mpr ⟨hheld, Nat.not_le.mpr hg⟩), ht]
  dsimp -zeta only
  extract_lets s2
  have h1 : Touches [.dictionary] s s1 := State.count_touches ..
  have h2 : Touches [.ferry] s1 s2 := .foldl _ _ (.refl ..) fun u k => u.setLanding_touches ..
  have hod : s1.odv (0x4200 + g) 13 = sat32 (s.odv (0x4200 + g) 13) 1 := (State.count_odk ..).trans (if_pos rfl)
  clear_value s2 s1
  refine ⟨⟨{ s2.group g with relAt := some t.1, relEvent := t.2, relEnd := t.1 + d * 1000, relIds := ids, resumed := false },
    tabFind_tabPut_same _ _ _ _ fun he => ?_, rfl, rfl, rfl⟩, ?_, ?_⟩
  · exact absurd (congrArg JobGroup.relAt he) (Option.some_ne_none t.1)
  · exact (odv_of_od h2.od).trans hod
  · exact (h1.widen.trans h2.widen).trans (touch_bm s2 _).widen

end Budget

theorem State.refreshMissed_due (s : State) (h : s.odv 0x4001 4 ≠ 0) :
    s.refreshMissed = { s with bm := { s.bm with refreshDue := true } } := if_neg h

theorem State.refreshMissed_none (s : State) (h : s.odv 0x4001 4 = 0) : s.refreshMissed = s := if_pos h

/-- Settles O35: writes of the budget, its boundaries and its fallback, and the release of barriers. -/
theorem budget : Obligations.Budget := by
  refine ⟨fun h w s a => budgetWrite_stores a, ?boundary, State.applyBudget_waiting, ?due, ?noInterval, State.applyBudget_fallback,
    ?release, ?noGrants⟩
  case boundary =>
    intro s hup
    refine ⟨_, congrArg Host.Outcome.next (if_pos hup), ?_⟩
    have hgv : (State.periodBoundary { s with out := [] }).gv = s.gv := State.periodBoundary_gv _
    generalize State.periodBoundary { s with out := [] } = t at hgv
    exact ⟨congrArg (·.2.1) hgv, congrArg (·.1.2) hgv, congrArg (·.2.2.1) hgv⟩
  case due =>
    intro s hs hr
    exact congrArg Host.Outcome.next ((if_pos hs).trans (State.refreshMissed_due { s with out := [] } hr))
  case noInterval =>
    intro s hs hr
    exact congrArg Host.Outcome.next ((if_pos hs).trans (State.refreshMissed_none { s with out := [] } hr))
  case release =>
    intro g t s hs hgr hg hheld ht
    obtain ⟨h1, h2, h3⟩ := State.releaseGroup_releases { s with out := [] } g t hgr hg hheld ht
    exact ⟨_, congrArg Host.Outcome.next (if_pos hs), h1, h2, (touch_out s []).widen.trans h3.widen⟩
  case noGrants =>
    intro g s hs hgr
    exact congrArg Host.Outcome.next ((if_pos hs).trans (if_neg (by
      rw [show ({ s with out := [] } : State).grants = false from hgr]; exact Bool.false_ne_true)))

end Sys2Proof.Machine

namespace Sys2Proof.Machine
open Host

/-! ## The merge (R163, R230, R235) -/

section Merge

variable (s : State) (j : Nat)

/-- Nothing is struck where nothing is named. -/
theorem State.mergeStrike_nil : s.mergeStrike [] = s := rfl

/-- A store without flipped bits has no copies to vote on. -/
theorem State.mergeVote_quiet (h : s.te.mergeMem.votes = []) : s.mergeVote = s := by
  unfold State.mergeVote
  rw [h]
  rfl

/-- And meets no error. -/
theorem State.mergeErrors_quiet (he : s.te.mergeMem.errs = []) (hl : s.te.mergeLost = []) : s.mergeErrors = (s, false) := by
  unfold State.mergeErrors
  rw [he, hl]
  rfl

/-- What a start notes of its frame. -/
theorem State.mergeStart_notes : (s.mergeStart j).te = { s.te with
      mergeNext := max s.te.mergeNext j, mergeStarted := max s.te.mergeStarted (j + 1) } ∧
    Touches [.te, .dictionary] s (s.mergeStart j) := by
  unfold State.mergeStart
  split
  · have h := s.count_touches 0x3030 2 (j - s.te.mergeNext)
    exact ⟨congrArg (fun t : Te => { t with mergeNext := max t.mergeNext j, mergeStarted := max t.mergeStarted (j + 1) }) h.te,
      h.widen.trans (touch_te _ _).widen⟩
  · exact ⟨rfl, (touch_te s _).widen⟩

/-- Nothing of the tensor engine changes but what is classified. -/
def Classifies (s t : State) : Prop := (∃ x, t.te = { s.te with classified := x }) ∧ Touches [.te, .dictionary] s t

theorem Classifies.trans {s t u : State} (h : Classifies s t) (k : Classifies t u) : Classifies s u := by
  obtain ⟨⟨x, hx⟩, h1⟩ := h
  obtain ⟨⟨y, hy⟩, h2⟩ := k
  exact ⟨⟨y, hy.trans (by rw [hx])⟩, h1.trans h2⟩

theorem Classifies.set (x : Tab Nat) : Classifies s { s with te := { s.te with classified := x } } :=
  ⟨⟨x, rfl⟩, (touch_te s _).widen⟩

theorem Classifies.count (i k n : Nat) : Classifies s (s.count i k n) :=
  ⟨⟨s.te.classified, (s.count_touches i k n).te⟩, (s.count_touches i k n).widen⟩

theorem Classifies.foldl {α : Type} (f : State → α → State) (hf : ∀ u e, Classifies u (f u e)) (l : List α) :
    ∀ u, Classifies u (l.foldl f u) := by
  induction l with
  | nil => exact fun u => Classifies.set u u.te.classified
  | cons e l ih => exact fun u => (hf u e).trans (ih (f u e))

theorem State.classify_classifies (l : List (Nat × Result)) (es : List Shelf) : Classifies s (s.classify l j es) := by
  unfold State.classify
  extract_lets newest close known te s1
  refine (Classifies.set s known).trans (Classifies.foldl _ (fun u e => ?_) es s1)
  split
  · exact Classifies.set ..
  · exact (Classifies.count ..).trans (Classifies.set ..)

/-- The results that contribute depend on the store, its upsets and the streams. -/
theorem contributing_of {s t : State} (j : Nat) (h1 : t.te.store = s.te.store) (h2 : t.te.mergeMem = s.te.mergeMem)
    (h3 : t.te.mergeLost = s.te.mergeLost) (h4 : t.te.streams = s.te.streams) : t.contributing j = s.contributing j := by
  unfold State.contributing State.mergeRead State.stream
  rw [h1, h2, h3, h4]

/-- What the merge leaves of a frame: one record, one credit less, and the next frame. -/
theorem State.mergeEmit_emits : ∃ m : Merged, (s.mergeEmit j).te.mergeQ = s.te.mergeQ ++ [m] ∧ m.frame = j ∧
    m.profile = s.profile ∧ m.contributing = (s.contributing j).length ∧ (s.mergeEmit j).te.mergeNext = j + 1 ∧
    (s.mergeEmit j).te.store = s.te.store ∧ (s.mergeEmit j).te.credits = tabMod 0 s.te.credits (2 * 128) (· + 1) ∧
    Touches [.te, .dictionary] s (s.mergeEmit j) := by
  unfold State.mergeEmit
  extract_lets l residual es s1 m levels streams
  obtain ⟨⟨x, hx⟩, h1⟩ : Classifies s s1 := s.classify_classifies j l es
  have hm : m.1.frame = j ∧ m.1.profile = s1.profile ∧ m.1.contributing = l.length := ⟨rfl, rfl, rfl⟩
  have hp : s1.profile = s.profile := h1.2 .profile (by decide)
  have hq : s1.te.mergeQ = s.te.mergeQ ∧ s1.te.store = s.te.store ∧ s1.te.credits = s.te.credits := by
    rw [hx]
    exact ⟨rfl, rfl, rfl⟩
  clear_value streams levels m s1
  obtain ⟨hframe, hprofile, hcount⟩ := hm
  exact ⟨m.1, congrArg (· ++ [m.1]) hq.1, hframe, hprofile.trans hp, hcount, rfl, hq.2.1,
    congrArg (fun t => tabMod 0 t (2 * 128) (· + 1)) hq.2.2, h1.trans (touch_te s1 _).widen⟩

/-- A run of a frame that may start, over a store without upsets. -/
theorem State.mergeRun_ready (hrun : s.cd.running = true) (hf : s.mergeFrame = some j) (hr : s.mergeReady j = true)
    (he : s.te.mergeMem.errs = []) (hv : s.te.mergeMem.votes = []) (hl : s.te.mergeLost = []) : s.mergeRun [] =
    if 4 ≤ tabGet 0 s.te.credits (2 * 128) then
      if j < s.te.mergeStarted then s.mergeStart j else (s.mergeStart j).count 0x3210 4
    else (s.mergeStart j).mergeEmit j := by
  have hte := (s.mergeStart_notes j).1
  have hmem : (s.mergeStart j).te.mergeMem = s.te.mergeMem := by rw [hte]
  have hlost : (s.mergeStart j).te.mergeLost = [] := by rw [hte]; exact hl
  unfold State.mergeRun
  rw [State.mergeStrike_nil]
  dsimp only
  rw [hf]
  dsimp only
  rw [if_neg (by rw [hrun, hr]; exact Bool.false_ne_true), State.mergeVote_quiet _ (by rw [hmem]; exact hv),
    State.mergeErrors_quiet _ (by rw [hmem]; exact he) hlost]
  simp only [Bool.false_eq_true, if_false, decide_eq_true_eq]

theorem State.mergeRun_early (hf : s.mergeFrame = some j) (hr : s.mergeReady j = false) : s.mergeRun [] = s := by
  unfold State.mergeRun
  rw [State.mergeStrike_nil]
  dsimp only
  rw [hf]
  exact if_pos (by rw [hr]; exact Bool.or_true _)

theorem State.mergeRun_idle (h : s.cd.running = false ∨ s.mergeFrame = none) : s.mergeRun [] = s ∧ s.mergeOverrun = s := by
  unfold State.mergeRun State.mergeOverrun
  rw [State.mergeStrike_nil]
  dsimp only
  cases hf : s.mergeFrame with
  | none => exact ⟨rfl, rfl⟩
  | some j =>
    have hrun : s.cd.running = false := h.resolve_right (by rw [hf]; exact Option.some_ne_none j)
    exact ⟨if_pos (by rw [hrun]; rfl), if_neg (by rw [hrun]; exact Bool.false_ne_true)⟩

theorem State.mergeOverrun_late (hrun : s.cd.running = true) (hf : s.mergeFrame = some j) :
    s.mergeOverrun = if j + 6 ≤ s.intake then (s.mergeStart j).mergeStop j else s := by
  unfold State.mergeOverrun
  rw [hf]
  simp only [hrun, Bool.true_and, decide_eq_true_eq]

end Merge

/-- Settles O34: a merge run with and without a credit, before its start, and one that overruns. -/
theorem mergeRuns : Obligations.MergeRuns := by
  refine ⟨fun j s hup hrun hf hr he hv hl => ?ready, ?early, ?overrun, ?idle⟩
  case ready =>
    have hready := State.mergeRun_ready { s with out := [] } j hrun hf hr he hv hl
    have hexec : exec (.mergeRun []) s = .next (State.mergeRun { s with out := [] } []) :=
      congrArg Host.Outcome.next (if_pos hup)
    refine ⟨fun hc => ?_, fun hc => ?_⟩
    · have hemit : State.mergeRun { s with out := [] } [] = (State.mergeStart { s with out := [] } j).mergeEmit j :=
        hready.trans (if_neg (Nat.not_le.mpr hc))
      obtain ⟨hte, ht⟩ := State.mergeStart_notes { s with out := [] } j
      refine ⟨_, hexec.trans (congrArg Host.Outcome.next hemit), ?_⟩
      generalize State.mergeStart { s with out := [] } j = u at hte ht ⊢
      have hcon : u.contributing j = s.contributing j :=
        contributing_of j (by rw [hte]) (by rw [hte]) (by rw [hte]) (by rw [hte])
      obtain ⟨m, h1, h2, h3, h4, h5, h6, h7, h8⟩ := u.mergeEmit_emits j
      refine ⟨m, h1.trans (by rw [hte]), h2, h3.trans (ht.2 .profile (by decide)), h4.trans (by rw [hcon]), h5, h6.trans (by rw [hte]),
        h7.trans (by rw [hte]), (touch_out s []).widen.trans (ht.widen.trans h8.widen)⟩
    · exact hexec.trans (congrArg Host.Outcome.next (hready.trans (if_pos hc)))
  case early =>
    intro j s hup hf hr
    exact congrArg Host.Outcome.next ((if_pos hup).trans (State.mergeRun_early { s with out := [] } j hf hr))
  case overrun =>
    intro j s hup hrun hf
    have h := State.mergeOverrun_late { s with out := [] } j hrun hf
    exact ⟨fun hj => congrArg Host.Outcome.next ((if_pos hup).trans (h.trans (if_pos hj))),
      fun hj => congrArg Host.Outcome.next ((if_pos hup).trans (h.trans (if_neg (Nat.not_le.mpr hj))))⟩
  case idle =>
    intro s hup h
    obtain ⟨hr, ho⟩ := State.mergeRun_idle { s with out := [] } h
    exact ⟨congrArg Host.Outcome.next ((if_pos hup).trans hr), congrArg Host.Outcome.next ((if_pos hup).trans ho)⟩

end Sys2Proof.Machine

namespace Sys2Proof.Machine
open Host

/-! ## Words and their check bits (R203) -/

/-- The columns of the code, rising: the numbers below 128 with three bits set. -/
def columns : List Nat :=
  [7, 11, 13, 14, 19, 21, 22, 25, 26, 28, 35, 37, 38, 41, 42, 44, 49, 50, 52, 56, 67, 69, 70, 73, 74, 76, 81, 82, 84, 88, 97, 98, 100, 104, 112]

theorem column_eq (j : Nat) : column j = columns.getD j 0 := by
  have h : (upTo 128).filter (fun v => decide (popCount 7 v = 3)) = columns := by decide +kernel
  unfold column
  rw [h]

theorem eccDecode_one : ∀ i : Nat, i < 39 → eccDecode (2 ^ i) = .corrected 0 := by decide +kernel

/-- The syndrome of two flipped bits is even and not zero. -/
theorem syndrome_two : ∀ i : Nat, i < 39 → ∀ j : Nat, j < i →
    syndrome (2 ^ i ^^^ 2 ^ j) ≠ 0 ∧ popCount 7 (syndrome (2 ^ i ^^^ 2 ^ j)) % 2 = 0 := by
  unfold syndrome checkBits
  simp only [column_eq]
  decide +kernel

theorem popCount_column : ∀ k : Nat, k < 32 → popCount 7 (column k) = 3 := by
  simp only [column_eq]
  decide +kernel

/-- An even syndrome is that of no single bit. -/
theorem eccDecode_even (m : Nat) (h0 : syndrome m ≠ 0) (h : popCount 7 (syndrome m) % 2 = 0) : eccDecode m = .bad := by
  have hnone : (upTo 32).find? (fun j => decide (column j = syndrome m)) = none := by
    refine List.find?_eq_none.mpr fun k hk hc => ?_
    rw [← of_decide_eq_true hc, popCount_column k (List.mem_range.mp hk)] at h
    exact absurd h (by decide)
  unfold eccDecode
  dsimp only
  rw [if_neg h0, if_neg (fun h1 => by rw [h1] at h; exact absurd h (by decide)), hnone]

theorem eccDecode_two (i j : Nat) (hi : i < 39) (hj : j < 39) (hij : i ≠ j) : eccDecode (2 ^ i ^^^ 2 ^ j) = .bad := by
  obtain hlt | hlt := Nat.lt_or_gt_of_ne hij
  · obtain ⟨h0, h⟩ := syndrome_two j hj i hlt
    rw [Nat.xor_comm]
    exact eccDecode_even _ h0 h
  · obtain ⟨h0, h⟩ := syndrome_two i hi j hlt
    exact eccDecode_even _ h0 h

theorem eccDecode_zero : eccDecode 0 = .clean 0 := by decide +kernel

theorem codeOf_zero : codeOf 0 = 0 := by decide +kernel

/-! ## Fences keep the conditions of the stacks and the fences of the clusters -/

/-- The conditions of the stacks and the fenced clusters are the same. -/
structure KeepsFence (s t : State) : Prop where
  cond : t.cd.stackCond = s.cd.stackCond
  clusters : t.te.clusters = s.te.clusters

theorem KeepsFence.refl (s : State) : KeepsFence s s := ⟨rfl, rfl⟩

theorem KeepsFence.trans {s t u : State} (h : KeepsFence s t) (k : KeepsFence t u) : KeepsFence s u :=
  ⟨k.cond.trans h.cond, k.clusters.trans h.clusters⟩

theorem KeepsFence.ite {c : Prop} [Decidable c] {s a b : State} (ha : KeepsFence s a) (hb : KeepsFence s b) :
    KeepsFence s (if c then a else b) := by split <;> assumption

theorem KeepsFence.foldl {α : Type} {s t : State} (f : State → α → State) (l : List α) (h : KeepsFence s t)
    (k : ∀ s x, KeepsFence s (f s x)) : KeepsFence s (l.foldl f t) := by
  induction l generalizing t with
  | nil => exact h
  | cons x xs ih => exact ih (h.trans (k t x))

theorem KeepsFence.of_touches {ps : List Part} {s t : State} (h : Touches ps s t) (hcd : .cd ∉ ps) (hte : .te ∉ ps) :
    KeepsFence s t :=
  ⟨congrArg Cd.stackCond (h.2 .cd hcd), congrArg Te.clusters (h.2 .te hte)⟩

section Fences

variable (s : State)

theorem State.dropRipen_keepsFence (c : Nat) (r : Run) : KeepsFence s (s.dropRipen c r) := ⟨rfl, rfl⟩

theorem State.keepWords_keepsFence (before : State) (cores : List Nat) : KeepsFence s (s.keepWords before cores) :=
  .ite (.refl ..) ⟨rfl, rfl⟩

theorem State.dropPrograms_keepsFence (c : Nat) : KeepsFence s (s.dropPrograms c) := by
  unfold State.dropPrograms
  extract_lets before te1 s1 te2 s2 queued te3 s3 s4
  have h1 : KeepsFence s s1 := by
    unfold s1
    split
    · exact ⟨rfl, rfl⟩
    · exact .refl ..
  have h2 : KeepsFence s1 s2 := by
    unfold s2
    split
    · exact ⟨rfl, rfl⟩
    · exact .refl ..
  have h4 : KeepsFence s s4 :=
    KeepsFence.foldl _ _ ((h1.trans h2).trans (u := s3) ⟨rfl, rfl⟩) fun u x => u.dropRipen_keepsFence c x.2
  have h5 := KeepsFence.foldl _ (s4.streamsOn c) h4 fun u n =>
    (⟨rfl, rfl⟩ : KeepsFence u (u.setStream n (fun t => { t with run := none })))
  exact h5.trans (State.keepWords_keepsFence ..)

theorem State.fenceCore_keepsFence (c cause : Nat) : KeepsFence s (s.fenceCore c cause) := by
  refine .ite (.refl ..) ?_
  extract_lets s1 te s2
  have h1 : KeepsFence s s1 := s.dropPrograms_keepsFence c
  clear_value s1
  exact h1.trans ⟨rfl, rfl⟩

theorem State.fenceOne_keepsFence (c cause : Nat) : KeepsFence s (s.fenceOne c cause) :=
  .ite (.refl ..) ((s.fenceCore_keepsFence c cause).trans
    (.of_touches (State.logEvent_touches ..) (by decide) (by decide)))

theorem State.fillMaster_keepsFence (n bytes : Nat) : KeepsFence s (s.fillMaster n bytes) := by
  refine .ite (.trans (t := s.active n 43 (pieces 0 bytes)) (.ite ⟨rfl, rfl⟩ (.refl ..)) ?_) ⟨rfl, rfl⟩
  exact .of_touches (State.count_touches ..) (by decide) (by decide)

theorem State.remaster_keepsFence (n : Nat) : KeepsFence s (s.remaster n) := by
  unfold State.remaster
  extract_lets s1
  have fills (u : State) (l : List Nat) (b : Nat) :
      KeepsFence u (l.foldl (fun (v : State) m => v.fillMaster m b) u) :=
    KeepsFence.foldl _ _ (.refl ..) fun v m => v.fillMaster_keepsFence m b
  have h1 : KeepsFence s s1 := KeepsFence.foldl _ _ (.refl ..) fun u p => .ite ((fills u _ _).trans ⟨rfl, rfl⟩) (.refl ..)
  exact KeepsFence.foldl _ _ h1 fun u p => .ite ((fills u _ _).trans ⟨rfl, rfl⟩) (.refl ..)

/-- The fence of a cluster not yet fenced: its cause is noted, and a stack whose cluster it is keeps its failure. -/
theorem State.fenceCluster_fences (n cause : Nat) (hrun : s.cd.running = true) (hf : s.clusterFenced n = false) :
    (s.fenceCluster n cause).te.clusters = tabPut 0 s.te.clusters n cause ∧
    (s.fenceCluster n cause).cd.stackCond = tabMod 0 s.cd.stackCond n (fun c => if c = 1 then 2 else c) := by
  unfold State.fenceCluster
  rw [if_neg (by rw [hrun, hf]; exact Bool.false_ne_true)]
  extract_lets te s1 s2 s3 cd s4 s5 s6
  have h2 : KeepsFence s1 s2 := .of_touches (s1.logEvent_touches ..) (by decide) (by decide)
  have h3 : KeepsFence s1 s3 := KeepsFence.foldl _ _ h2 fun u i => u.fenceOne_keepsFence ..
  clear_value s3
  have h4 : s4.cd.stackCond = tabMod 0 s3.cd.stackCond n (fun c => if c = 1 then 2 else c) ∧
    s4.te.clusters = s3.te.clusters := ⟨rfl, rfl⟩
  clear_value s4
  have h6 : KeepsFence s4 s6 := KeepsFence.foldl _ _ (.trans (t := s5) ⟨rfl, rfl⟩ (.refl ..)) fun u p =>
    .ite ⟨rfl, rfl⟩ (.refl ..)
  have h7 := h6.trans (s6.remaster_keepsFence n)
  rw [h7.cond, h7.clusters, h4.1, h4.2, h3.cond, h3.clusters]
  exact ⟨rfl, rfl⟩

/-- A stack in service that fails has the failure of its cause, and its cluster is fenced. -/
theorem State.stackFailed_fails (n cause : Nat) (hrun : s.cd.running = true) (hc : tabGet 0 s.cd.stackCond n < 3)
    (hf : s.clusterFenced n = false) :
    tabGet 0 (s.stackFailed n cause).cd.stackCond n = (if cause = 1 ∨ cause = 4 then 4 else 3) ∧
    (s.stackFailed n cause).clusterFenced n = true := by
  unfold State.stackFailed
  extract_lets silent cond cd s1 s2
  have hsmall : cond < 3 := hc
  rw [if_neg (by rw [hrun]; simp; omega)]
  have hl := s1.logEvent_touches 0xA002 (packBytes [(1, n), (1, cause)])
  have hcond : s2.cd.stackCond = tabPut 0 s.cd.stackCond n (if silent then 4 else 3) := congrArg Cd.stackCond hl.cd
  have hcl : s2.te.clusters = s.te.clusters := congrArg Te.clusters hl.te
  have hrun2 : s2.cd.running = true := (congrArg Cd.running hl.cd).trans hrun
  have hf2 : s2.clusterFenced n = false := by
    unfold State.clusterFenced
    rw [hcl]
    exact hf
  clear_value s2
  obtain ⟨h1, h2⟩ := s2.fenceCluster_fences n 7 hrun2 hf2
  unfold State.clusterFenced
  rw [h1, h2, hcond, tabGet_tabMod, if_pos rfl, tabGet_tabPut, if_pos rfl, tabGet_tabPut, if_pos rfl]
  refine ⟨?_, by decide⟩
  by_cases h : cause = 1 ∨ cause = 4
  · rw [if_pos h, show silent = true from decide_eq_true h]
    rfl
  · rw [if_neg h, show silent = false from decide_eq_false h]
    rfl

/-- A stack that gives no answer does not fail again, and a failed one that answers neither. -/
theorem State.stackFailed_again (n cause : Nat) (h : tabGet 0 s.cd.stackCond n = 4 ∨
    (tabGet 0 s.cd.stackCond n = 3 ∧ cause ≠ 1 ∧ cause ≠ 4)) : s.stackFailed n cause = s := by
  refine if_pos (.inr (h.imp_right fun h3 => ⟨h3.1, ?_⟩))
  simpa using h3.2

end Fences

end Sys2Proof.Machine

namespace Sys2Proof.Machine
open Host

/-! ## Scrubs, stacks and refresh (R204, R214 to R219) -/

section Scrubs

variable (s : State)

/-- A memory with no struck copies has nothing to vote on. -/
theorem Mem.vote_quiet (m : Mem) (unit a n : Nat) (h : m.votes = []) : m.vote unit a n = (m, 0) := by
  unfold Mem.vote
  rw [h]
  rfl

theorem State.disagreed_zero : s.disagreed 0 = s := if_pos rfl

theorem State.blockVote_quiet (b : Nat) (h : s.cd.hbm.votes = []) (hf : s.inForecast (4096 * b) = false) :
    s.blockVote b = s := by
  have hvote : s.hbmVote (4096 * b) 4096 = s := by
    unfold State.hbmVote
    rw [if_neg (fun hc => Bool.false_ne_true (hf.symm.trans hc.1)), Mem.vote_quiet _ _ _ _ h]
    exact State.disagreed_zero s
  unfold State.blockVote
  dsimp only
  rw [hvote, if_neg (by rw [hf]; exact Bool.false_ne_true)]

/-- The valid blocks of a stack do not depend on where its scrub stands. -/
theorem State.nextBlock_of_scrub (n lo : Nat) (x y : Tab Nat) :
    State.nextBlock { s with cd := { s.cd with scrubAt := x, progress := y } } n lo = s.nextBlock n lo := rfl

/-- A scrub step over a block without flipped bits moves to the next valid block and counts it. -/
theorem State.hbmScrub_moves (n b c : Nat) (again : List Upset) (hrun : s.cd.running = true) (hn : n < 12)
    (hst : tabGet 0 s.cd.stackCond n ≠ 4) (hv : s.cd.hbm.votes = [])
    (hb : s.nextBlock n (tabGet 0 s.cd.scrubAt n) = some b) (hc : s.nextBlock n (b + 1) = some c)
    (hf : s.inForecast (4096 * b) = false) (he : s.blockErrs b = []) :
    s.hbmScrub n [] again = { s with cd := { s.cd with
      scrubAt := tabPut 0 s.cd.scrubAt n (b + 1)
      progress := tabMod 0 s.cd.progress n (fun x => min (x + 1) u32Max) } } := by
  unfold State.hbmScrub
  rw [if_neg (by simp [hrun, hn, hst]), show s.hbmUpsets [] = s from rfl]
  dsimp only
  rw [hb]
  dsimp only
  rw [State.blockVote_quiet s b hv hf, he, List.foldl_nil, State.nextBlock_of_scrub, hc]
  rfl

theorem State.hbmMask_plain (a : Nat) (h : s.inForecast a = false) : s.hbmMask a = tabGet 0 s.cd.hbm.errs a := by
  unfold State.hbmMask
  rw [if_neg (by rw [h]; exact Bool.false_ne_true)]

theorem State.setHbmMask_plain (a m : Nat) (h : s.inForecast a = false) : s.setHbmMask a m =
    { s with cd := { s.cd with hbm := { s.cd.hbm with errs := tabPut 0 s.cd.hbm.errs a m } } } := by
  unfold State.setHbmMask
  rw [if_neg (by rw [h]; exact Bool.false_ne_true)]

/-- A corrected word outside the forecast areas is written back. -/
theorem State.hbmScrubWord_corrects (a : Nat) (hf : s.inForecast a = false)
    (hc : eccDecode (tabGet 0 s.cd.hbm.errs a) = .corrected 0) :
    (s.hbmScrubWord a []).cd.hbm = { s.cd.hbm with errs := tabErase s.cd.hbm.errs a } := by
  unfold State.hbmScrubWord
  extract_lets n s1
  rw [State.hbmMask_plain s a hf, hc]
  dsimp only
  have hcount (k : Nat) (hk : k = 1 ∨ k = 2) (u : State) : (u.count (0xA100 + n) k).odv 0xA010 0 = u.odv 0xA010 0 :=
    (State.count_odk ..).trans (if_neg (by unfold okey; omega))
  have hodv : s1.odv 0xA010 0 = s.odv 0xA010 0 := (hcount 2 (.inr rfl) _).trans (hcount 1 (.inl rfl) s)
  have hcd : s1.cd = s.cd := (State.count_touches ..).cd.trans (State.count_touches ..).cd
  have hf1 : s1.inForecast a = false := by
    unfold State.inForecast at hf ⊢
    rw [hodv]
    exact hf
  generalize hu : (s1.setHbmMask a (codeOf 0)).hbmUpsets _ = u
  have hu' : u = { s1 with cd := { s1.cd with hbm := { s1.cd.hbm with errs := tabPut 0 s1.cd.hbm.errs a 0 } } } := by
    rw [← hu, List.filter_nil, codeOf_zero]
    exact State.setHbmMask_plain s1 a 0 hf1
  have hfu : u.inForecast a = false := by rw [hu']; exact hf1
  have herrs : u.cd.hbm.errs = tabPut 0 s1.cd.hbm.errs a 0 := by rw [hu']
  rw [State.hbmMask_plain u a hfu, herrs, tabGet_tabPut, if_pos rfl, eccDecode_zero]
  dsimp only
  rw [hu', hcd]
  rfl

theorem State.sramVote_quiet (a : Nat) (h : s.cd.sram.votes = []) : s.sramVote a = s := by
  unfold State.sramVote
  rw [h]
  rfl

/-- The read back of a word without flipped bits finds nothing. -/
theorem State.sramReadBack_quiet (m a : Nat) (again : List Upset) (hv : s.cd.sram.votes = [])
    (he : tabGet 0 s.cd.sram.errs a = 0) : s.sramReadBack m a again = s := by
  have hmeets : s.sramMeets a = none ∨ s.sramMeets a = some (.clean 0) := by
    unfold State.sramMeets
    rw [he, eccDecode_zero]
    split
    · exact .inr rfl
    · exact .inl rfl
  unfold State.sramReadBack
  rw [State.sramVote_quiet s a hv]
  dsimp only
  obtain h | h := hmeets
  · rw [h]
  · rw [h]

/-- The next word that a scrub of the SRAM comes to does not depend on what was sent. -/
theorem State.sramNext_of_out (m : Nat) (o : List Output) : State.sramNext { s with out := o } m = s.sramNext m := by
  have h : State.sramValid { s with out := o } = s.sramValid := rfl
  unfold State.sramNext
  rw [h]

theorem State.sramScrub_moves (m w : Nat) (again : List Upset) (hon : s.macroOn m = true) (hw : s.sramNext m = some w)
    (hv : s.cd.sram.votes = []) (he : tabGet 0 s.cd.sram.errs (m * 2 ^ 20 + 4 * w) = 0) : s.sramScrub m [] again =
    { s with cd := { s.cd with sramAt := tabPut 0 s.cd.sramAt m ((w + 1) % 2 ^ 18) } } := by
  unfold State.sramScrub
  rw [if_neg (by rw [hon]; exact Bool.false_ne_true), show s.sramUpsets [] = s from rfl]
  dsimp only
  rw [hw]
  exact State.sramReadBack_quiet { s with cd := { s.cd with sramAt := tabPut 0 s.cd.sramAt m ((w + 1) % 2 ^ 18) } } m _ again hv he

/-- A stack in continuous mode whose good readout agrees with its sensor refreshes at the readout's rate. -/
theorem State.refreshUpdate_readout (n : Nat) (t : Int) (hrun : s.cd.running = true) (hn : n < 12)
    (hm : tabGet 0 s.cd.refreshMode n = 0)
    (hg : (tabFind s.mpc.sensors (80 + n)).isSome = true → (t - (s.sensor (80 + n)).used).natAbs ≤ 1200) :
    s.refreshUpdate n (some t) = { s with cd := { s.cd with
      goodRuns := tabPut 0 s.cd.goodRuns n (tabGet 0 s.cd.goodRuns n + 1)
      refreshMode := tabPut 0 s.cd.refreshMode n 0
      refresh := tabPut 0 s.cd.refresh n (refreshSteps t - 16), bandWait := tabPut 0 s.cd.bandWait n 0 } } := by
  have hgood : (!(tabFind s.mpc.sensors (80 + n)).isSome ||
      decide ((t - (s.sensor (80 + n)).used).natAbs ≤ 1200)) = true := by
    cases h : (tabFind s.mpc.sensors (80 + n)).isSome with
    | false => rfl
    | true => exact decide_eq_true (hg h)
  unfold State.refreshUpdate
  rw [if_neg (by simp [hrun, hn])]
  dsimp only
  rw [hgood, hm]
  rfl

/-- A stack with neither a readout nor a sensor refreshes at the highest rate. -/
theorem State.refreshUpdate_blind (n : Nat) (hrun : s.cd.running = true) (hn : n < 12)
    (hs : tabFind s.mpc.sensors (80 + n) = none) : s.refreshUpdate n none = { s with cd := { s.cd with
      goodRuns := tabPut 0 s.cd.goodRuns n 0, refreshMode := tabPut 0 s.cd.refreshMode n 2
      refresh := tabPut 0 s.cd.refresh n 48, bandWait := tabPut 0 s.cd.bandWait n 0 } } := by
  unfold State.refreshUpdate
  rw [if_neg (by simp [hrun, hn])]
  dsimp only
  rw [hs]
  rfl

end Scrubs

/-- The scrub step of a stack runs the scrub, and what it made wait goes on. -/
theorem hbmScrubStep_exec (n : Nat) (again : List Upset) (s : State) (hup : s.up = true) :
    exec (.hbmScrubStep n [] again) s = .next (State.hbmScrub { s with out := [] } n [] again).settled :=
  congrArg Host.Outcome.next (if_pos hup)

theorem sramScrubStep_exec (m : Nat) (again : List Upset) (s : State) (hup : s.up = true) :
    exec (.sramScrubStep m [] again) s = .next (State.sramScrub { s with out := [] } m [] again).settled :=
  congrArg Host.Outcome.next (if_pos hup)

theorem stackFatal_exec (n : Nat) (s : State) (hup : s.up = true) :
    exec (.hbmAccessTimeout n) s = .next (State.stackFailed { s with out := [] } n 4).settled ∧
    exec (.stackManagementFatal n) s = .next (State.stackFailed { s with out := [] } n 3).settled :=
  ⟨congrArg Host.Outcome.next (if_pos hup), congrArg Host.Outcome.next (if_pos hup)⟩

/-- Settles O33: words and their check bits, scrub steps that find nothing or one flipped bit, failures of stacks, and
their refresh. -/
theorem memoryErrorsAndStacks : Obligations.MemoryErrorsAndStacks := by
  refine ⟨fun i hi => eccDecode_one i (by omega), fun i _ hi => eccDecode_one i hi, eccDecode_two, ?hbm,
    fun a s => s.hbmScrubWord_corrects a, ?sram, fun n s hup => stackFatal_exec n s hup,
    fun n cause s => s.stackFailed_fails n cause, ?again, ?readout, ?blind⟩
  case hbm =>
    intro n b c again s hup hrun hn hst hv hb hc hf he
    rw [hbmScrubStep_exec n again s hup, State.hbmScrub_moves { s with out := [] } n b c again hrun hn hst hv hb hc hf he]
  case sram =>
    intro m w again s hup hon hw hv he
    rw [sramScrubStep_exec m again s hup, State.sramScrub_moves { s with out := [] } m w again hon
      ((s.sramNext_of_out m []).trans hw) hv he]
  case again =>
    intro n cause s h
    exact s.stackFailed_again n cause h
  case readout =>
    intro n t s hup hrun hn hm hg
    exact congrArg Host.Outcome.next ((if_pos hup).trans
      (State.refreshUpdate_readout { s with out := [] } n t hrun hn hm hg))
  case blind =>
    intro n s hup hrun hn hs
    exact congrArg Host.Outcome.next ((if_pos hup).trans (State.refreshUpdate_blind { s with out := [] } n hrun hn hs))

end Sys2Proof.Machine

namespace Sys2Proof.Machine
open Host

/-! ## The host's window to the HBM (R199, R200) -/

/-- An access within one region has one part. -/
theorem bar2Parts_one (off n : Nat) (hn : n ≠ 0) (h : off % regionBytes + n ≤ regionBytes) : bar2Parts off n = [(off, n)] := by
  have hpos : 0 < regionBytes := by decide
  unfold bar2Parts
  generalize regionBytes = r at h hpos
  have hdm : r * (off / r) + off % r = off := Nat.div_add_mod off r
  have hlast : (off + n - 1) / r = off / r := by
    have hmod := Nat.mod_lt off hpos
    refine Nat.div_eq_of_lt_le ?_ ?_
    · rw [Nat.mul_comm]
      omega
    · rw [Nat.mul_comm, Nat.mul_add, Nat.mul_one]
      omega
  have hlo : max off ((off / r + 0) * r) = off := by
    rw [Nat.add_zero, Nat.mul_comm]
    omega
  have hhi : min (off + n) ((off / r + 0 + 1) * r) = off + n := by
    rw [Nat.add_zero, Nat.mul_comm, Nat.mul_add, Nat.mul_one]
    omega
  dsimp only
  rw [if_neg hn, hlast, Nat.sub_self]
  show [(max off ((off / r + 0) * r), min (off + n) ((off / r + 0 + 1) * r) - max off ((off / r + 0) * r))] = [(off, n)]
  rw [hlo, hhi, Nat.add_sub_cancel_left]

theorem packBytes_zero (n : Nat) : packBytes [(n, 0)] = 0 := by simp [packBytes]

/-- An access of the host through the window, within one region, by a module that serves it. -/
structure WindowAccess (s : State) (off n : Nat) : Prop where
  services : s.services = true
  awake : s.host.d3hot = false
  some_ : n ≠ 0
  inside : off % regionBytes + n ≤ regionBytes

section Window

variable {s : State} {off n : Nat} (a : WindowAccess s off n) (v : Blob)

include a

theorem WindowAccess.taken : ¬ (!s.services || s.host.d3hot) = true := by
  rw [a.services, a.awake]
  exact Bool.false_ne_true

theorem WindowAccess.parts : bar2Parts off n = [(off, n)] := bar2Parts_one off n a.some_ a.inside

theorem bar2_unmapped (hm : s.bar2Map off = none) :
    s.bar2Read off n [] = (s.count 0xA050 3).emit (.bar2 false n 0) ∧ s.bar2Write off n v [] = s.count 0xA050 3 := by
  unfold State.bar2Read State.bar2Write
  rw [if_neg a.taken, if_neg a.taken, show s.hbmUpsets [] = s from rfl, a.parts]
  simp only [List.foldl_cons, List.foldl_nil, hm, Bool.or_false, Bool.false_eq_true, if_false, List.nil_append, packBytes_zero,
    and_self]

theorem bar2_secure {pa : Nat} (hm : s.bar2Map off = some pa) (hsec : s.hbmSecure pa = true) :
    s.bar2Read off n [] = s.violation.emit (.bar2 false n 0) ∧ s.bar2Write off n v [] = s.violation := by
  unfold State.bar2Read State.bar2Write
  rw [if_neg a.taken, if_neg a.taken, show s.hbmUpsets [] = s from rfl, a.parts]
  simp only [List.foldl_cons, List.foldl_nil, hm, hsec, Bool.or_false, Bool.false_eq_true, if_false, if_true, List.nil_append,
    packBytes_zero, and_self]

theorem bar2_stopped {pa : Nat} (hm : s.bar2Map off = some pa) (hsec : s.hbmSecure pa = false) (hrun : s.cd.running = false) :
    s.bar2Read off n [] = s.emit (.bar2 false n 0) ∧ s.bar2Write off n v [] = s := by
  unfold State.bar2Read State.bar2Write
  rw [if_neg a.taken, if_neg a.taken, show s.hbmUpsets [] = s from rfl, a.parts]
  simp only [List.foldl_cons, List.foldl_nil, hm, hsec, hrun, Bool.not_false, Bool.or_false, Bool.false_eq_true, if_false,
    if_true, List.nil_append, packBytes_zero, and_self]

theorem bar2_unreachable {pa : Nat} (hm : s.bar2Map off = some pa) (hsec : s.hbmSecure pa = false)
    (hrun : s.cd.running = true) (hr : s.stackReachable pa = false) :
    s.bar2Read off n [] = (s.count 0xA050 1).emit (.bar2 true n 0) ∧ s.bar2Write off n v [] = s.count 0xA050 1 := by
  unfold State.bar2Read State.bar2Write
  rw [if_neg a.taken, if_neg a.taken, show s.hbmUpsets [] = s from rfl, a.parts]
  simp only [List.foldl_cons, List.foldl_nil, hm, hsec, hrun, hr, Bool.not_false, Bool.not_true, Bool.or_true,
    Bool.false_eq_true, if_false, if_true, and_self]

theorem bar2Read_reads {pa : Nat} (hm : s.bar2Map off = some pa) (hsec : s.hbmSecure pa = false)
    (hrun : s.cd.running = true) (hr : s.stackReachable pa = true) (t : State) (ht : t = (s.hbmMoved 42 pa n).hbmVote pa n)
    (r : Blob × MemFx) (hread : r = t.cd.hbm.read 4096 pa n) (hbad : r.2.bad = []) :
    s.bar2Read off n [] = (t.hbmFx r.2 pa).emit (.bar2 false n (packBytes [(n, r.1)])) := by
  unfold State.bar2Read
  rw [if_neg a.taken, show s.hbmUpsets [] = s from rfl, a.parts]
  simp only [List.foldl_cons, List.foldl_nil, hm, hsec, hrun, hr, Bool.not_true, Bool.false_eq_true, if_false,
    List.nil_append, ← ht, ← hread, hbad, ne_eq, not_true_eq_false, decide_false, Bool.or_false]

theorem bar2Write_writes {pa : Nat} (hm : s.bar2Map off = some pa) (hsec : s.hbmSecure pa = false)
    (hrun : s.cd.running = true) (hr : s.stackReachable pa = true) (t : State) (ht : t = (s.hbmMoved 43 pa n).hbmVote pa n)
    (r : Mem × MemFx) (hwrite : r = t.cd.hbm.write 4096 pa n (bytesAt v 0 n)) (hdrop : r.2.dropped = 0) :
    s.bar2Write off n v [] = State.hbmFx { t with cd := { t.cd with hbm := r.1 } } r.2 pa := by
  unfold State.bar2Write
  rw [if_neg a.taken, show s.hbmUpsets [] = s from rfl, a.parts]
  simp only [List.foldl_cons, List.foldl_nil, hm, hsec, hrun, hr, Bool.not_true, Bool.false_eq_true, if_false,
    Nat.sub_self, ← ht, ← hwrite, hdrop, if_true]

end Window

theorem bar2Read_exec {off n : Nat} {s : State} (a : WindowAccess { s with out := [] } off n) :
    exec (.bar2Read off n []) s = .next (State.bar2Read { s with out := [] } off n []).settled := by
  refine congrArg Host.Outcome.next (if_pos ?_)
  unfold State.hostReaches State.answers
  rw [a.services, a.awake]
  rfl

theorem bar2Write_exec {off n : Nat} {s : State} (v : Blob) (a : WindowAccess { s with out := [] } off n) :
    exec (.bar2Write off n v []) s = .next (State.bar2Write { s with out := [] } off n v []).settled := by
  refine congrArg Host.Outcome.next (if_pos ?_)
  unfold State.hostReaches State.answers
  rw [a.services, a.awake]
  rfl

/-- Settles O32: an access within one region has one part, and goes by the case of its place. -/
theorem hbmWindow : Obligations.HbmWindow := by
  intro off n v s hs hd hn hin
  have a : WindowAccess { s with out := [] } off n := ⟨hs, hd, hn, hin⟩
  rw [bar2Read_exec a, bar2Write_exec v a]
  refine ⟨fun hm => ?_, fun pa hm hsec => ?_, fun pa hm hsec hrun => ?_, fun pa hm hsec hrun hr => ?_,
    fun pa hm hsec hrun hr => ⟨fun t ht r hread hbad => ?_, fun t ht r hwrite hdrop => ?_⟩⟩
  · obtain ⟨h1, h2⟩ := bar2_unmapped a v hm
    rw [h1, h2]
    exact ⟨rfl, rfl⟩
  · obtain ⟨h1, h2⟩ := bar2_secure a v hm hsec
    rw [h1, h2]
    exact ⟨rfl, rfl⟩
  · obtain ⟨h1, h2⟩ := bar2_stopped a v hm hsec hrun
    rw [h1, h2]
    exact ⟨rfl, rfl⟩
  · obtain ⟨h1, h2⟩ := bar2_unreachable a v hm hsec hrun hr
    rw [h1, h2]
    exact ⟨rfl, rfl⟩
  · rw [bar2Read_reads a hm hsec hrun hr t ht r hread hbad]
  · rw [bar2Write_writes a v hm hsec hrun hr t ht r hwrite hdrop]

end Sys2Proof.Machine

namespace Sys2Proof.Machine
open Host

/-! ## Crossings (R329) -/

/-- A landing stands at berth 0 of the peer link, link 48, on the connectors that are not mated. -/
def unmatedLanding : State :=
  { power := { mateHigh := true }
    ferry := { landings := [(0, { place := some (48, 0) })] } }

/-- Nothing is driven on link 48 while MATE_N is high (R41). -/
theorem unmatedLanding_silent : (unmatedLanding.sendWindow 48 0 0).out = [] := by decide +kernel

/-- Refutes O40: its clause on the window of a berth with a landing is over every link, and link 48 is on a connector on
which nothing is sent while MATE_N is high. -/
theorem not_crossingsAndPeers : ¬ Obligations.CrossingsAndPeers := by
  intro h
  obtain ⟨-, -, -, -, hwindow, -⟩ := h
  obtain ⟨hlanding, -⟩ := hwindow 48 0 0 unmatedLanding
  obtain ⟨m, hm⟩ := hlanding 0 (by decide +kernel)
  rw [unmatedLanding_silent] at hm
  exact absurd hm List.not_mem_nil

end Sys2Proof.Machine

namespace Sys2Proof.Machine
open Host

/-! ## Master copies (R213) -/

/-- Two models of one identification, with the keys 5 and 3 in this order. The master copy of model 3 is in stack 0, and
of the two of model 5 one is bad. -/
def unsortedModels : State :=
  { mode := .standbyCold
    te := { models := [(5, { ident := 7, masters := [1, 2], badMasters := [1] }), (3, { ident := 7, masters := [0], imageLen := 4096 })]
            streams := [(0, { loaded := true, model := 5 }), (1, { loaded := true, model := 3 })]
            hbmRooms := [(0, [11], [])] } }

/-- An upset in the master copy of model 3. -/
def masterUpset : List Upset := [{ space := .hbm, addr := 11 * regionBytes, mask := 1 }]

/-- The upset enters model 3 before model 5, so that it is the one found by the identification, and nothing is restored. -/
theorem unsortedModels_kept : ((State.masterRestore { unsortedModels with out := [] } 7 masterUpset).model 5).badMasters = [1] := by
  decide +kernel

theorem unsortedModels_read :
    ((((State.hbmUpsets { unsortedModels with out := [] } masterUpset).readMaster 5).1).model 5).lost = false := by
  decide +kernel

/-- Refutes O30: the model of an identification is looked up once the operand's upsets have struck, and in a table of models
out of order, which the statement does not exclude, an upset of another model with this identification changes which one is
found. -/
theorem not_otherWork : ¬ Obligations.OtherWork := by
  intro h
  obtain ⟨-, -, -, -, -, -, -, hrestore, -⟩ := h
  obtain ⟨t, hrun, hbad, -⟩ := (hrestore 7 5 masterUpset unsortedModels (by decide +kernel) (by decide +kernel) (by decide +kernel)
    (by decide +kernel) _ rfl).1 unsortedModels_read
  have hup : ({ unsortedModels with out := [] } : State).up = true := by decide +kernel
  have ht : State.masterRestore { unsortedModels with out := [] } 7 masterUpset = t :=
    Host.Outcome.next.inj ((congrArg Host.Outcome.next (if_pos hup)).symm.trans hrun)
  rw [← ht, unsortedModels_kept] at hbad
  exact absurd hbad (by decide)

end Sys2Proof.Machine

namespace Sys2Proof.Machine
open Host

/-! ## Loads (R145, R181, R183) -/

/-- A state without a load in progress stays without one, and a loaded stream stays loaded. -/
structure KeepsLoads (s t : State) : Prop where
  load : s.te.load = none → t.te.load = none
  loaded : ∀ n, (s.stream n).loaded = true → (t.stream n).loaded = true

theorem KeepsLoads.refl (s : State) : KeepsLoads s s := ⟨id, fun _ => id⟩

theorem KeepsLoads.trans {s t u : State} (h : KeepsLoads s t) (k : KeepsLoads t u) : KeepsLoads s u :=
  ⟨fun hl => k.load (h.load hl), fun n hn => k.loaded n (h.loaded n hn)⟩

theorem KeepsLoads.of_eq {s t : State} (hs : t.te.streams = s.te.streams) (hl : t.te.load = s.te.load) : KeepsLoads s t :=
  ⟨fun h => hl.trans h, fun n h => by unfold State.stream at h ⊢; rw [hs]; exact h⟩

theorem KeepsLoads.of_te {s t : State} (h : t.te = s.te) : KeepsLoads s t := .of_eq (by rw [h]) (by rw [h])

theorem KeepsLoads.ite {c : Prop} [Decidable c] {s a b : State} (ha : KeepsLoads s a) (hb : KeepsLoads s b) :
    KeepsLoads s (if c then a else b) := by split <;> assumption

theorem KeepsLoads.foldl {α : Type} (f : State → α → State) (k : ∀ s x, KeepsLoads s (f s x)) (l : List α) (s : State) :
    KeepsLoads s (l.foldl f s) := by
  induction l generalizing s with
  | nil => exact .refl s
  | cons x l ih => exact (k s x).trans (ih _)

section Keeps

variable (s : State)

theorem State.setStream_keepsLoads (n : Nat) (f : Stream → Stream) (hf : ∀ t, t.loaded = true → (f t).loaded = true) :
    KeepsLoads s (s.setStream n f) :=
  ⟨id, fun m h => by
    rw [State.stream_setStream]
    split
    · next hm => exact hf _ (hm ▸ h)
    · exact h⟩

theorem State.count_keepsLoads (i k n : Nat) : KeepsLoads s (s.count i k n) := .of_te (s.count_touches ..).te

theorem State.setCore_keepsLoads (c : Nat) (f : Core → Core) : KeepsLoads s (s.setCore c f) := .of_eq rfl rfl

theorem State.setKept_keepsLoads (n : Nat) (x : Kept4) (off mask : Nat) : KeepsLoads s (s.setKept n x off mask) := by
  unfold State.setKept
  split
  · exact .of_eq rfl rfl
  · exact .of_eq rfl rfl
  · exact s.setStream_keepsLoads _ _ fun _ h => h
  · exact .of_eq rfl rfl
  · exact .of_eq rfl rfl

theorem State.takeSettings_keepsLoads (n : Nat) : KeepsLoads s (s.takeSettings n) := s.setStream_keepsLoads _ _ fun _ h => h

theorem State.bump_keepsLoads (n : Nat) : KeepsLoads s (s.bump n) := by
  unfold State.bump
  extract_lets t s1
  have h1 : KeepsLoads s s1 := s.setStream_keepsLoads _ _ fun t h => by
    dsimp only
    split
    · exact h
    · exact h
  clear_value s1
  exact .ite h1 (h1.trans (.of_eq rfl rfl))

theorem State.openArea_keepsLoads (n : Nat) : KeepsLoads s (s.openArea n) := .ite (.refl s) (.of_eq rfl rfl)

theorem State.newRun_keepsLoads (m : Model) (c g : Nat) (secure : Bool) (x : Nat) : KeepsLoads s (s.newRun m c g secure x).2 :=
  .of_eq rfl rfl

theorem State.rerun_keepsLoads (n : Nat) : KeepsLoads s (s.rerun n) := by
  unfold State.rerun
  split
  · exact .ite ((s.newRun_keepsLoads _ _ _ _ _).trans (State.setStream_keepsLoads _ _ _ fun _ h => h)) (.refl s)
  · exact .refl s

theorem State.startRun_keepsLoads (c j n : Nat) : KeepsLoads s (s.startRun c j n) :=
  (s.newRun_keepsLoads _ _ _ _ _).trans (State.setStream_keepsLoads _ _ _ fun _ h => h)

theorem State.firstRun_keepsLoads (n : Nat) : KeepsLoads s (s.firstRun n) := by
  unfold State.firstRun
  split
  · exact .refl s
  · exact .ite (.refl s) (s.startRun_keepsLoads _ _ _)

theorem State.keepWords_keepsLoads (before : State) (cores : List Nat) : KeepsLoads s (s.keepWords before cores) :=
  .ite (.refl s) (.of_eq rfl rfl)

theorem State.keepValid_keepsLoads (before : State) : KeepsLoads s (s.keepValid before) :=
  (s.keepWords_keepsLoads before before.usedCores).trans (.ite (.refl _) (.of_eq rfl rfl))

theorem State.promote_keepsLoads : KeepsLoads s s.promote := by
  unfold State.promote
  refine .foldl _ (fun u x => ?_) s.te.ripenQ s
  exact .ite (.refl u) (.of_eq rfl rfl)

theorem State.dropJob_keepsLoads (i : Nat) : KeepsLoads s (s.dropJob i) := by
  unfold State.dropJob
  refine .trans ?_ (State.promote_keepsLoads _)
  exact .of_eq rfl rfl

theorem State.abandonIds_keepsLoads (ids : List Nat) : KeepsLoads s (s.abandonIds ids) := by
  have hjobs : KeepsLoads s (s.abandonJobs ids) := .foldl _ (fun u i => by
    split
    · exact (u.count_keepsLoads ..).trans (State.dropJob_keepsLoads _ i)
    · exact .refl u) ids s
  exact .ite (.refl s) (hjobs.trans (State.keepValid_keepsLoads _ s))

theorem State.pruneModels_keepsLoads : KeepsLoads s s.pruneModels := by
  unfold State.pruneModels
  extract_lets loading dead live ids s1 te s2
  have h1 : KeepsLoads s s1 := s.abandonIds_keepsLoads _
  clear_value s1
  exact h1.trans (.of_eq rfl rfl)

theorem State.loaderWrites_keepsLoads (c : Nat) (want : Area → Bool) : KeepsLoads s (s.loaderWrites c want) :=
  .ite (.refl s) (.of_eq rfl rfl)

theorem State.wroteArea_keepsLoads (want : Area → Bool) (a n : Nat) : KeepsLoads s (s.wroteArea want a n) := .of_eq rfl rfl

theorem State.layAltered_keepsLoads (c key : Nat) (words : List (Nat × Nat)) : KeepsLoads s (s.layAltered c key words) := by
  unfold State.layAltered
  extract_lets m head body put
  have hput (u : State) (a : Area) (off code : Nat) : KeepsLoads u (put u a off code) := by
    unfold put
    split
    · exact .of_eq rfl rfl
    · exact .refl u
  clear_value put
  refine .foldl _ (fun u x => ?_) words s
  refine .ite (hput ..) (.ite (.refl u) ?_)
  split
  · exact .refl u
  · exact .ite (hput ..) (.ite (hput ..) (u.setKept_keepsLoads ..))

/-- A core's copies are laid anew; a load in progress may lay its own along with them. -/
theorem State.relay_keepsLoads (c : Nat) : KeepsLoads s (s.relay c) := by
  unfold State.relay
  extract_lets old fp te s1 s2 te2 s3 s4 fresh fills
  have h2 : KeepsLoads s s2 := (KeepsLoads.of_eq (s := s) (t := s1) rfl rfl).trans (s1.loaderWrites_keepsLoads ..)
  clear_value s2
  have h3 : KeepsLoads s2 s3 := by
    unfold s3
    cases hl : s2.te.load with
    | none => exact .refl s2
    | some l => exact .ite ⟨fun h => absurd (hl.symm.trans h) (Option.some_ne_none l), fun _ h => h⟩ (.refl s2)
  clear_value s3
  have h4 : KeepsLoads s3 s4 := .ite (.refl s3) (s3.wroteArea_keepsLoads ..)
  clear_value s4
  exact .ite ((h2.trans h3).trans h4)
    (((h2.trans h3).trans h4).trans ((s4.setCore_keepsLoads ..).trans (State.count_keepsLoads ..)))

theorem State.sendHint_keepsLoads (n : Nat) (m : HintMsg) : KeepsLoads s (s.sendHint n m) :=
  .ite (.of_eq rfl rfl) (s.count_keepsLoads ..)

theorem State.schedulerHints_keepsLoads : KeepsLoads s s.schedulerHints := by
  refine .foldl _ (fun u n => ?_) (upTo 12) s
  refine .ite (.refl u) ?_
  exact KeepsLoads.trans (t := State.draw { u with te := { u.te with hinted := tabPut [] u.te.hinted n (u.clusterBatches n) } } |>.2)
    (.of_eq rfl rfl) (State.sendHint_keepsLoads ..)

end Keeps

end Sys2Proof.Machine

namespace Sys2Proof.Machine
open Host

/-! ### Streams that take a load -/

section Commit

variable (s : State)

/-- Each stream of a load takes it, and keeps it while the next ones do. -/
theorem foldl_loads (f : State → Nat → State)
    (hf : ∀ u n, KeepsLoads u (f u n) ∧ ((f u n).stream n).loaded = true) (l : List Nat) (u : State) :
    KeepsLoads u (l.foldl f u) ∧ ∀ n, n ∈ l → ((l.foldl f u).stream n).loaded = true := by
  induction l generalizing u with
  | nil => exact ⟨.refl u, fun n h => absurd h List.not_mem_nil⟩
  | cons m l ih =>
    obtain ⟨hk, hl⟩ := hf u m
    obtain ⟨ihk, ihl⟩ := ih (f u m)
    refine ⟨hk.trans ihk, fun n h => ?_⟩
    obtain rfl | h := List.mem_cons.mp h
    · exact ihk.loaded _ hl
    · exact ihl n h

/-- A stream that is set to be loaded is, and the steps after it keep it so. -/
theorem State.setStream_loads (n : Nat) (f : Stream → Stream) (hf : ∀ t, (f t).loaded = true) :
    KeepsLoads s (((((s.setStream n f).takeSettings n).bump n).openArea n).rerun n) ∧
    ((((((s.setStream n f).takeSettings n).bump n).openArea n).rerun n).stream n).loaded = true := by
  have h1 : KeepsLoads s (s.setStream n f) := s.setStream_keepsLoads n f fun t _ => hf t
  have hl : ((s.setStream n f).stream n).loaded = true := by
    rw [State.stream_setStream, if_pos rfl]
    exact hf _
  have h5 : KeepsLoads (s.setStream n f) (((((s.setStream n f).takeSettings n).bump n).openArea n).rerun n) :=
    (((State.takeSettings_keepsLoads _ n).trans (State.bump_keepsLoads _ n)).trans (State.openArea_keepsLoads _ n)).trans
      (State.rerun_keepsLoads _ n)
  exact ⟨h1.trans h5, h5.loaded n hl⟩

/-- A load that a copy of it still holds up does not commit. -/
theorem State.commitLoad_waits (l : Load) (hl : s.te.load = some l) (hw : s.copyWaits (fun x => x.load) = true) :
    s.commitLoad = s := by
  unfold State.commitLoad
  extract_lets before
  rw [hl]
  exact if_pos hw

/-- A load that no longer meets its deadlines ends. -/
theorem State.commitLoad_late (l : Load) (hl : s.te.load = some l) (hw : s.copyWaits (fun x => x.load) = false)
    (hr : s.replan l = none) : s.commitLoad = s.endLoad stDeadline := by
  unfold State.commitLoad
  extract_lets before
  rw [hl]
  dsimp -zeta only
  rw [if_neg (by rw [hw]; exact Bool.false_ne_true), hr]

/-- A host's load that meets its deadlines is finished, and its streams are loaded. -/
theorem State.commitLoad_finishes (l m : Load) (hl : s.te.load = some l) (hw : s.copyWaits (fun x => x.load) = false)
    (hr : s.replan l = some m) (hm : m.ripens = none) (hp : m.replay = false) :
    s.commitLoad.te.load = none ∧ s.commitLoad.te.loadStatus = stOk ∧ s.commitLoad.te.loadCommitted = m.count ∧
    (∀ n, m.first ≤ n → n < m.first + m.count → (s.commitLoad.stream n).loaded = true) := by
  unfold State.commitLoad
  extract_lets before
  rw [hl]
  dsimp -zeta only
  rw [if_neg (by rw [hw]; exact Bool.false_ne_true), hr]
  dsimp -zeta only
  extract_lets key ns old rec_ m' s1 te s2 halted s3 s4 cores s5 s6 s7 s8 s9 s10 fin lvl te' s11
  have hns (n : Nat) (h1 : m.first ≤ n) (h2 : n < m.first + m.count) : n ∈ ns := by
    unfold ns State.loadStreams
    rw [hm]
    exact List.mem_map.mpr ⟨n - m.first, List.mem_range.mpr (by omega), Nat.add_sub_cancel' h1⟩
  have hload : s2.te.load = none := rfl
  clear_value s2
  have h3 : KeepsLoads s2 s3 ∧ ∀ n, n ∈ ns → (s3.stream n).loaded = true :=
    foldl_loads _ (fun u n => u.setStream_loads n _ fun t => rfl) ns s2
  clear_value s3
  have h4 : KeepsLoads s3 s4 := s3.pruneModels_keepsLoads
  clear_value s4
  have h5 : KeepsLoads s4 s5 := .foldl _ (fun u c => (u.relay_keepsLoads c).trans (State.layAltered_keepsLoads ..)) cores s4
  clear_value s5
  have h6 : KeepsLoads s5 s6 := s5.keepValid_keepsLoads before
  clear_value s6
  have h7 : KeepsLoads s6 s7 := .foldl _ (fun u n => u.firstRun_keepsLoads n) halted s6
  clear_value s7
  have h8 : KeepsLoads s7 s8 := s7.schedulerHints_keepsLoads
  clear_value s8
  have h9 : KeepsLoads s8 s9 := .ite (s8.count_keepsLoads ..) (.refl s8)
  clear_value s9
  have h10 : KeepsLoads s9 s10 := .of_te (s9.logEvent_touches ..).te
  clear_value s10
  have hall : KeepsLoads s3 s10 := (((((h4.trans h5).trans h6).trans h7).trans h8).trans h9).trans h10
  have h11 : s11.te.load = s10.te.load ∧ s11.te.loadStatus = stOk ∧ s11.te.loadCommitted = m.count ∧
    s11.te.streams = s10.te.streams := ⟨rfl, rfl, rfl, rfl⟩
  clear_value s11
  obtain ⟨hload11, hstatus, hcount, hstreams⟩ := h11
  rw [if_neg (by rw [hp]; exact Bool.false_ne_true)]
  unfold State.stream
  rw [(s11.raise_touches irqTensor).te, hstreams]
  exact ⟨hload11.trans ((h3.1.trans hall).load hload), hstatus, hcount, fun n h1 h2 => hall.loaded n (h3.2 n (hns n h1 h2))⟩

theorem State.sendCopies_load (c : Nat) : (s.sendCopies c).te.load = s.te.load := by
  unfold State.sendCopies
  extract_lets key out r
  split
  · refine (congrArg Te.load (State.active_touches _ _ _ _).te).trans ?_
    rfl
  · rfl

theorem State.loadToll_load (c n : Nat) (load : Bool) : (s.loadToll c n load).te.load = s.te.load := by
  unfold State.loadToll
  extract_lets units beyond item te s1
  refine (State.sendCopies_load _ _).trans ?_
  split
  · rfl
  · exact (congrArg Te.load (s1.count_touches ..).te).trans (show s1.te.load = s.te.load from rfl)

theorem State.beginLoad_load (l : Load) (m : Model) : (s.beginLoad l m).te.load = some l := by
  unfold State.beginLoad
  extract_lets s1 te s2 cores
  exact foldl_keeps (fun u : State => u.te.load) _ (fun u c => u.loadToll_load ..) cores s2

/-- A load that passes its checks is the load in progress. -/
theorem State.startLoad_starts (d : Blob) (secure : Bool) (source : Nat) (l : Load) (m : Model) (t : State)
    (ht : t = if s.loadBusy (s.loadIdents d secure) || !(loadReq d).ok then s else s.imageRead .forecast secure (loadReq d).addr)
    (h : (t.checkLoad d secure).2 = some (l, m)) : (s.startLoad d secure source).te.load = some l := by
  unfold State.startLoad
  extract_lets +onlyGivenNames s1 r
  have h1 : s1 = t := ht.symm
  have hr : r.2 = some (l, m) := by
    unfold r
    rw [h1]
    exact h
  rw [hr]
  exact State.beginLoad_load _ l m

end Commit

/-! ### Settings and replays -/

theorem isSetting_stream : ∀ n < 768, ∀ k < 4, 1 ≤ k → (isSetting (0x3400 + n) k true || isSetting (0x3400 + n) k false) = true := by
  decide +kernel

theorem afterWrite_stream (s : State) (n k old : Nat) (hn : n < 768) (h1 : 1 ≤ k) (h3 : k ≤ 3) :
    s.afterWrite (0x3400 + n) k old = s.setStream n (fun t => { t with newSettings := true }) := by
  unfold State.afterWrite
  rw [if_neg (by omega), if_neg (by omega), if_neg (by omega), if_pos (by omega), Nat.add_sub_cancel_left]

/-- An admitted write of a stream's settings. -/
theorem streamSettingsWrite_stores {h : ReqHead} {n k v : Nat} {s : State} (hn : n < 768) (h1 : 1 ≤ k) (h3 : k ≤ 3)
    (a : s.admits h (0x3400 + n) k (entryLen (0x3400 + n) k) v) :
    Runs (.streamSettingsWrite h n k v) s (fun t => t.odv (0x3400 + n) k = v ∧ (t.stream n).newSettings = true ∧
      (∀ m, m ≠ n → t.stream m = s.stream m)) := by
  refine runs_of_commit (State.presentStraps { s with out := [] }) a rfl (by omega) fun t hc => ?_
  obtain ⟨config, hs⟩ : ∃ config, isSetting (0x3400 + n) k config = true :=
    ((Bool.or_eq_true ..).mp (isSetting_stream n hn k (by omega) h1)).elim (fun h => ⟨true, h⟩) fun h => ⟨false, h⟩
  rw [commit_setting hs] at hc
  obtain ⟨u, hu, hod, -, htouch⟩ := (s.arrival h (0x3400 + n) k (entryLen (0x3400 + n) k) v).setValue_stores (0x3400 + n) k v config
  rw [hu, afterWrite_stream _ _ _ _ hn h1 h3] at hc
  have hte : u.te = s.te := htouch.te.trans (s.arrival_keeps h (0x3400 + n) k _ v).1.te
  have hstream (m : Nat) := u.stream_setStream n m (fun t => { t with newSettings := true })
  have hsame (m : Nat) : u.stream m = s.stream m := by unfold State.stream; rw [hte]
  have hodc : (u.setStream n (fun t => { t with newSettings := true })).odv (0x3400 + n) k = v := (hod _).trans (if_pos rfl)
  generalize u.setStream n (fun t => { t with newSettings := true }) = c at *
  obtain ⟨host, net, out, free, ch, rfl⟩ := hc
  exact ⟨hodc, congrArg Stream.newSettings ((hstream n).trans (if_pos rfl)),
    fun m hm => ((hstream m).trans (if_neg hm)).trans (hsame m)⟩

/-- A module whose CD does not run, or whose gate is closed, passes over a replay. -/
theorem State.replayLoads_idle (s : State) (c : ModelCatalogue) (h : s.cd.running = false ∨ s.power.gate = false) :
    s.replayLoads c = s := by
  refine if_pos ?_
  obtain h | h := h
  · rw [h]; rfl
  · rw [h]; exact Bool.or_true _

theorem State.replayLoads_one (s : State) (slot seq : Nat) (e : ModelEntry) (hrun : s.cd.running = true)
    (hg : s.power.gate = true) : s.replayLoads ⟨some (slot, seq), [e]⟩ = State.replayOne { s with te := { s.te with
      catalogue := [], catalogueSlot := slot % 2, catalogueSeq := seq, nextModel := max s.te.nextModel e.order,
      slotFreed := true } } e := by
  have hkeep : [e].filter (fun x => decide (x.order = e.order)) = [e] := List.filter_cons_of_pos (decide_eq_true rfl)
  have horders : [e].foldl (fun l e => ordInsert l e.order) [] = [e.order] := rfl
  unfold State.replayLoads
  rw [if_neg (by rw [hrun, hg]; exact Bool.false_ne_true)]
  dsimp only
  rw [horders, List.flatMap_cons, List.flatMap_nil, List.append_nil, hkeep]
  rfl

/-- Settles O29: settings of streams, a load from its request to its commit, and the replay of recorded loads. -/
theorem loads : Obligations.Loads := by
  refine ⟨fun h n k v s hn h1 h3 a => streamSettingsWrite_stores hn h1 h3 a, fun h addr first count => ⟨?new, ?replace⟩,
    fun d secure source l m s t ht h => s.startLoad_starts d secure source l m t ht h, ?waits, ?late, ?finishes, ?idle, ?one⟩
  case new =>
    exact rowDoes_of_execute State.presentStraps (by decide) (fun _ => rfl) (by decide) fun s => execute_load s _ rfl
  case replace =>
    exact rowDoes_of_execute State.presentStraps (by decide) (fun _ => rfl) (by decide) fun s => execute_load s _ rfl
  case waits =>
    intro l s hup hl hw
    exact congrArg Host.Outcome.next ((if_pos hup).trans (State.commitLoad_waits { s with out := [] } l hl hw))
  case late =>
    intro l s hup hl hw hr
    exact congrArg Host.Outcome.next ((if_pos hup).trans (State.commitLoad_late { s with out := [] } l hl hw hr))
  case finishes =>
    intro l m s hup hl hw hr hm hp
    exact ⟨_, congrArg Host.Outcome.next (if_pos hup), State.commitLoad_finishes { s with out := [] } l m hl hw hr hm hp⟩
  case idle =>
    intro c s hup h
    exact congrArg Host.Outcome.next ((if_pos hup).trans (State.replayLoads_idle { s with out := [] } c h))
  case one =>
    intro slot seq e s hup hrun hg
    exact congrArg Host.Outcome.next ((if_pos hup).trans (State.replayLoads_one { s with out := [] } slot seq e hrun hg))

end Sys2Proof.Machine

namespace Sys2Proof.Machine
open Host

/-! ## The intake boundary (R222, R224)

What runs at the boundary leaves the number of the intake frame alone; the boundary itself counts it. One lemma per operation,
as the rules of the state's own operations have it. -/

@[simp] theorem foldl_intake {α : Type} (f : State → α → State) (h : ∀ s x, (f s x).intake = s.intake) (l : List α)
    (s : State) : (l.foldl f s).intake = s.intake := foldl_keeps State.intake f h l s

@[simp] theorem ite_intake (c : Prop) [Decidable c] (a b : State) :
    (if c then a else b).intake = if c then a.intake else b.intake := apply_ite State.intake c a b

/-! ### Operations whose parts are known -/

@[simp] theorem State.draw_intake (s : State) : (s.draw).2.intake = s.intake := (State.draw_touches ..).intake

@[simp] theorem State.active_intake (s : State) (cluster i n : Nat) : (s.active cluster i n).intake = s.intake :=
  (State.active_touches ..).intake

@[simp] theorem State.disagreed_intake (s : State) (n : Nat) : (s.disagreed n).intake = s.intake :=
  (State.disagreed_touches ..).intake

@[simp] theorem State.raise_intake (s : State) (cause : Nat) : (s.raise cause).intake = s.intake :=
  (State.raise_touches ..).intake

@[simp] theorem State.logLimited_intake (s : State) (n source event : Nat) (params : Blob) :
    (s.logLimited n source event params).intake = s.intake := (State.logLimited_touches ..).intake

@[simp] theorem State.violation_intake (s : State) : s.violation.intake = s.intake := (State.violation_touches ..).intake

@[simp] theorem State.sramRewrite_intake (s : State) (ws : List Nat) : (s.sramRewrite ws).intake = s.intake :=
  (State.sramRewrite_touches ..).intake

@[simp] theorem State.keepWords_intake (s before : State) (cores : List Nat) : (s.keepWords before cores).intake = s.intake :=
  (State.keepWords_touches ..).intake

@[simp] theorem State.dropCopies_intake (s : State) (gone : CopyItem → Bool) : (s.dropCopies gone).intake = s.intake :=
  (State.dropCopies_touches ..).intake

@[simp] theorem State.sendCopies_intake (s : State) (cluster : Nat) : (s.sendCopies cluster).intake = s.intake :=
  (State.sendCopies_touches ..).intake

@[simp] theorem State.fillMaster_intake (s : State) (n bytes : Nat) : (s.fillMaster n bytes).intake = s.intake :=
  (State.fillMaster_touches ..).intake

@[simp] theorem State.stackFailed_intake (s : State) (n cause : Nat) : (s.stackFailed n cause).intake = s.intake :=
  (State.stackFailed_touches ..).intake

@[simp] theorem State.promote_intake (s : State) : s.promote.intake = s.intake := (State.promote_touches ..).intake

@[simp] theorem State.dropJob_intake (s : State) (ident : Nat) : (s.dropJob ident).intake = s.intake :=
  (State.dropJob_touches ..).intake

@[simp] theorem State.abandonJobs_intake (s : State) (ids : List Nat) : (s.abandonJobs ids).intake = s.intake :=
  (State.abandonJobs_touches ..).intake

@[simp] theorem State.endLoad_intake (s : State) (status : Nat) : (s.endLoad status).intake = s.intake :=
  (State.endLoad_touches ..).intake

@[simp] theorem State.rampNext_intake (s : State) : s.rampNext.intake = s.intake := (State.rampNext_touches ..).intake

@[simp] theorem State.rampAll_intake (s : State) : s.rampAll.intake = s.intake := (State.rampAll_touches ..).intake

/-! ### Copies, rooms and models -/

@[simp] theorem State.setRipening_intake (s : State) (i : Nat) (f : Model → Model) : (s.setRipening i f).intake = s.intake :=
  rfl

@[simp] theorem State.setKept_intake (s : State) (n : Nat) (x : Kept4) (off mask : Nat) :
    (s.setKept n x off mask).intake = s.intake := by
  unfold State.setKept
  (repeat' split) <;> simp

@[simp] theorem State.wroteArea_intake (s : State) (want : Area → Bool) (a n : Nat) :
    (s.wroteArea want a n).intake = s.intake := rfl

@[simp] theorem State.loaderWrites_intake (s : State) (core : Nat) (want : Area → Bool) :
    (s.loaderWrites core want).intake = s.intake := by
  unfold State.loaderWrites
  simp

@[simp] theorem State.layAltered_intake (s : State) (core key : Nat) (words : List (Nat × Nat)) :
    (s.layAltered core key words).intake = s.intake := by
  unfold State.layAltered
  refine foldl_intake _ (fun u x => ?_) words s
  dsimp only
  (repeat' split) <;> simp

@[simp] theorem State.relay_intake (s : State) (core : Nat) : (s.relay core).intake = s.intake := by
  unfold State.relay
  dsimp only
  (repeat' split) <;> simp

@[simp] theorem State.trimLayout_intake (s : State) : s.trimLayout.intake = s.intake := rfl

@[simp] theorem State.keepValid_intake (s before : State) : (s.keepValid before).intake = s.intake := by
  unfold State.keepValid
  simp

@[simp] theorem State.abandonIds_intake (s : State) (ids : List Nat) : (s.abandonIds ids).intake = s.intake := by
  unfold State.abandonIds
  simp

@[simp] theorem State.store_intake (s : State) (addr len : Nat) (data : Blob) : (s.store addr len data).intake = s.intake := by
  unfold State.store
  simp

@[simp] theorem State.pruneCatalogue_intake (s : State) (gone : List Nat) : (s.pruneCatalogue gone).intake = s.intake := by
  unfold State.pruneCatalogue
  simp

@[simp] theorem State.pruneModels_intake (s : State) : s.pruneModels.intake = s.intake := by
  unfold State.pruneModels
  simp

@[simp] theorem State.syncRooms_intake (s : State) : s.syncRooms.intake = s.intake := rfl

/-! ### The HBM -/

@[simp] theorem State.forecastBad_intake (s : State) (pa : Nat) : (s.forecastBad pa).intake = s.intake := by
  unfold State.forecastBad
  split
  · rfl
  · rfl
  · refine foldl_intake _ (fun u n => ?_) _ s
    rfl
  · exact State.count_intake ..
  · rfl
  · rfl

@[simp] theorem State.hbmBad_intake (s : State) (pa : Nat) : (s.hbmBad pa).intake = s.intake := by
  unfold State.hbmBad
  dsimp only
  (repeat' split) <;> simp

@[simp] theorem State.blockLost_intake (s : State) (pa : Nat) : (s.blockLost pa).intake = s.intake := by
  unfold State.blockLost
  (repeat' split) <;> simp

@[simp] theorem State.hbmVote_intake (s : State) (pa n : Nat) : (s.hbmVote pa n).intake = s.intake := by
  unfold State.hbmVote
  simp

@[simp] theorem State.hbmMoved_intake (s : State) (i pa n : Nat) : (s.hbmMoved i pa n).intake = s.intake := by
  unfold State.hbmMoved
  simp

@[simp] theorem State.hbmFx_intake (s : State) (fx : MemFx) (pa : Nat) : (s.hbmFx fx pa).intake = s.intake := by
  unfold State.hbmFx
  refine (foldl_intake _ (fun u a => u.hbmBad_intake a) _ _).trans ?_
  split
  · exact foldl_intake _ (fun u a => u.count_intake ..) _ s
  · exact (State.count_intake ..).trans (foldl_intake _ (fun u a => u.count_intake ..) _ s)

@[simp] theorem State.bar2Store_intake (s : State) (off n : Nat) (v : Blob) (secure : Bool) :
    (s.bar2Store off n v secure).1.intake = s.intake := by
  unfold State.bar2Store
  extract_lets part s1 r
  have h1 : s1.intake = s.intake := foldl_intake _ (fun u x => by split <;> simp) _ s
  have hpart (x : State × MemFx) (p : Nat × Nat) : (part x p).1.intake = x.1.intake := by
    unfold part
    dsimp only
    (repeat' split) <;> simp
  have hfold (l : List (Nat × Nat)) (x : State × MemFx) : (l.foldl part x).1.intake = x.1.intake := by
    induction l generalizing x with
    | nil => rfl
    | cons p l ih => exact (ih _).trans (hpart x p)
  have hr : r.1.intake = s1.intake := hfold (bar2Parts off n) (s1, {})
  split
  · exact hr.trans h1
  · exact hr.trans h1

/-! ### Loads -/

@[simp] theorem State.loadToll_intake (s : State) (core bytes : Nat) (load : Bool) :
    (s.loadToll core bytes load).intake = s.intake := by
  unfold State.loadToll
  simp

@[simp] theorem State.beginLoad_intake (s : State) (l : Load) (m : Model) : (s.beginLoad l m).intake = s.intake := by
  unfold State.beginLoad
  simp

@[simp] theorem State.loaderRead_intake (s : State) (n : Nat) (x : Kept4) (bytes : Nat) :
    (s.loaderRead n x bytes).1.intake = s.intake := by
  unfold State.loaderRead
  refine (foldl_intake _ (fun u m => ?_) _ _).trans ?_
  · split <;> simp
  · simp

@[simp] theorem State.readMaster_intake (s : State) (k : Nat) : (s.readMaster k).1.intake = s.intake := by
  unfold State.readMaster
  generalize (s.model k).masters = l
  suffices h : ∀ x : State × Bool × List (Nat × Nat), (l.foldl (fun x n =>
      if x.2.1 then x else x.1.loaderRead n (.master k) (s.model k).imageLen) x).1.intake = x.1.intake from h _
  induction l with
  | nil => exact fun x => rfl
  | cons n l ih =>
    intro x
    refine (ih _).trans ?_
    dsimp only
    split
    · rfl
    · exact State.loaderRead_intake ..

@[simp] theorem State.loadFrame_intake (s : State) : s.loadFrame.intake = s.intake := by
  unfold State.loadFrame
  split
  · rfl
  · split
    · rfl
    · split
      · exact State.endLoad_intake ..
      · refine (foldl_intake _ (fun u c => ?_) _ _).trans rfl
        dsimp only
        split <;> simp

@[simp] theorem State.copiesDone_intake (s : State) (core : Nat) (load : Bool) :
    (s.copiesDone core load).intake = s.intake := by
  unfold State.copiesDone
  simp

/-! ### Streams and their runs -/

@[simp] theorem State.discardResult_intake (s : State) (n : Nat) : (s.discardResult n).intake = s.intake := rfl

@[simp] theorem State.bump_intake (s : State) (n : Nat) : (s.bump n).intake = s.intake := by
  unfold State.bump
  dsimp only
  (repeat' split) <;> simp

@[simp] theorem State.takeSettings_intake (s : State) (n : Nat) : (s.takeSettings n).intake = s.intake := rfl

@[simp] theorem State.replaceStream_intake (s : State) (since n : Nat) : (s.replaceStream since n).intake = s.intake := by
  unfold State.replaceStream
  dsimp only
  (repeat' split) <;> simp

@[simp] theorem State.placeFenced_intake (s : State) : s.placeFenced.intake = s.intake := by
  unfold State.placeFenced
  simp

@[simp] theorem State.retryUnplaced_intake (s : State) : s.retryUnplaced.intake = s.intake := by
  unfold State.retryUnplaced
  split
  · refine foldl_intake _ (fun u n => ?_) _ s
    split <;> simp
  · rfl

@[simp] theorem State.finishUnloads_intake (s : State) : s.finishUnloads.intake = s.intake := by
  unfold State.finishUnloads
  simp

@[simp] theorem State.resumeCopies_intake (s : State) : s.resumeCopies.intake = s.intake := by
  unfold State.resumeCopies
  simp

@[simp] theorem State.startRipeningCommit_intake (s : State) : s.startRipeningCommit.intake = s.intake := by
  unfold State.startRipeningCommit
  (repeat' split) <;> simp

@[simp] theorem State.stopReplaced_intake (s : State) : s.stopReplaced.intake = s.intake := by
  unfold State.stopReplaced
  split
  · rfl
  · dsimp only
    split
    · refine foldl_intake _ (fun u n => ?_) _ s
      split
      · rfl
      · exact State.bump_intake ..
    · refine foldl_intake _ (fun u n => ?_) _ s
      rfl

@[simp] theorem State.stopSuspended_intake (s : State) : s.stopSuspended.intake = s.intake := by
  unfold State.stopSuspended
  refine foldl_intake _ (fun u c => foldl_intake _ (fun v n => ?_) _ u) _ s
  rfl

@[simp] theorem State.newRun_intake (s : State) (m : Model) (c group : Nat) (secure : Bool) (completion : Nat) :
    (s.newRun m c group secure completion).2.intake = s.intake := rfl

@[simp] theorem State.startRun_intake (s : State) (c j n : Nat) : (s.startRun c j n).intake = s.intake := rfl

@[simp] theorem State.startRuns_intake (s : State) (c j : Nat) : (s.startRuns c j).intake = s.intake := by
  unfold State.startRuns
  exact (ite_intake ..).trans (by rw [foldl_intake _ (fun u n => u.startRun_intake c j n), ite_self])

@[simp] theorem State.sendHint_intake (s : State) (cluster : Nat) (m : HintMsg) : (s.sendHint cluster m).intake = s.intake := by
  unfold State.sendHint
  simp

@[simp] theorem State.schedulerHints_intake (s : State) : s.schedulerHints.intake = s.intake := by
  unfold State.schedulerHints
  simp

@[simp] theorem State.openBank_intake (s : State) : s.openBank.intake = s.intake := by
  unfold State.openBank
  simp

@[simp] theorem State.gateClusters_intake (s : State) : s.gateClusters.intake = s.intake := rfl

/-! ### Programs that end, and jobs -/

@[simp] theorem State.quit_intake (s : State) (c : Nat) (p : ProgRef) : (s.quit c p).intake = s.intake := rfl

@[simp] theorem State.fixGroup_intake (s : State) (group core : Nat) (f : Run → Run) :
    (s.fixGroup group core f).intake = s.intake := rfl

@[simp] theorem State.leaveGroup_intake (s : State) (r : Run) : (s.leaveGroup r).intake = s.intake := rfl

@[simp] theorem State.setRun_intake (s : State) (p : ProgRef) (r : Run) : (s.setRun p r).intake = s.intake := by
  unfold State.setRun
  (repeat' split) <;> simp

@[simp] theorem State.takeBeats_intake (s : State) (p : ProgRef) (c beats : Nat) (counted : Bool) :
    (s.takeBeats p c beats counted).intake = s.intake := by
  unfold State.takeBeats
  simp

@[simp] theorem State.fillWaits_intake (s : State) (fills : Nat) : (s.fillWaits fills).intake = s.intake := by
  unfold State.fillWaits
  simp

@[simp] theorem State.finishHost_intake (s : State) (c status cycles : Nat) :
    (s.finishHost c status cycles).intake = s.intake := by
  unfold State.finishHost
  (repeat' split) <;> simp

@[simp] theorem State.endHost_intake (s : State) (c status cycles : Nat) : (s.endHost c status cycles).intake = s.intake := by
  unfold State.endHost
  (repeat' split) <;> simp

@[simp] theorem State.endRipen_intake (s : State) (c : Nat) (done : Bool) : (s.endRipen c done).intake = s.intake := by
  unfold State.endRipen
  (repeat' split) <;> simp

@[simp] theorem State.strand_intake (s : State) : s.strand.intake = s.intake := rfl

@[simp] theorem State.countRecords_intake (s : State) : s.countRecords.intake = s.intake := by
  unfold State.countRecords
  refine foldl_intake _ (fun u c => ?_) _ s
  exact State.count_intake ..

@[simp] theorem State.rejectJob_intake (s : State) (ident : Nat) : (s.rejectJob ident).intake = s.intake := by
  unfold State.rejectJob
  simp

@[simp] theorem State.judgeJob_intake (s : State) (ident : Nat) : (s.judgeJob ident).intake = s.intake := by
  unfold State.judgeJob
  (repeat' split) <;> simp

@[simp] theorem State.judgeJobs_intake (s : State) : s.judgeJobs.intake = s.intake := by
  unfold State.judgeJobs
  simp

@[simp] theorem State.settle_intake (n : Nat) (s : State) : (State.settle n s).intake = s.intake := by
  induction n generalizing s with
  | zero => rfl
  | succ n ih =>
    unfold State.settle
    dsimp only
    (repeat' split) <;> simp [ih]

@[simp] theorem State.settled_intake (s : State) : s.settled.intake = s.intake := by
  unfold State.settled
  simp

/-! ### The boundary -/

@[simp] theorem State.writeCatalogue_intake (s : State) : s.writeCatalogue.intake = s.intake := by
  unfold State.writeCatalogue
  simp

@[simp] theorem State.catalogueFrame_intake (s : State) : s.catalogueFrame.intake = s.intake := by
  unfold State.catalogueFrame
  simp

@[simp] theorem State.takeEffect_intake (s : State) (w : When) : (s.takeEffect w).intake = s.intake := rfl

@[simp] theorem State.addEnergy_intake (s : State) (j : Nat) : (s.addEnergy j).intake = s.intake := rfl

@[simp] theorem State.rampTick_intake (s : State) : s.rampTick.intake = s.intake := by
  unfold State.rampTick
  (repeat' split) <;> simp

@[simp] theorem State.teBoundary_intake (s : State) (j : Nat) : (s.teBoundary j).intake = s.intake := by
  unfold State.teBoundary
  split
  · rfl
  · simp

theorem State.intakeBoundary_intake (s : State) : s.intakeBoundary.intake = s.intake + 1 := by
  unfold State.intakeBoundary
  dsimp only
  rw [State.settled_intake, State.teBoundary_intake, State.catalogueFrame_intake, State.addEnergy_intake,
    State.takeEffect_intake, State.rampTick_intake]

/-- The seal of a bank notes its frame and counts the records it misses; nothing else of the tensor engine changes. -/
theorem State.sealBank_seals (s : State) (j : Nat) :
    (s.sealBank j).te = { s.te with sealedTo := max s.te.sealedTo (j + 1) } ∧ Touches [.te, .dictionary] s (s.sealBank j) := by
  have hcount (u : State) : Touches [.dictionary] u (u.te.streams.foldl (fun s p =>
      match tabFind s.te.intake (p.1 * 8 + j % 8) with
      | some i =>
        if i.frame = j then
          let missing := ((upTo i.rows).filter (fun r => !bitAt i.mask r)).length
          if missing = 0 then s else s.count (0x3A00 + p.1) 2 missing
        else s
      | none => s) u) := by
    refine .foldl _ _ (.refl ..) fun v p => ?_
    split
    · exact .ite (.ite (.refl ..) (v.count_touches ..)) (.refl ..)
    · exact .refl ..
  have h := hcount { s with te := { s.te with sealedTo := max s.te.sealedTo (j + 1) } }
  exact ⟨h.te, (touch_te s _).widen.trans h.widen⟩

/-- Settles O20: the boundary counts the intake frame, and a seal notes the frame that closed last. -/
theorem intakeBanks : Obligations.IntakeBanks := by
  refine ⟨fun s hup => ?boundary, fun s hup hrun h0 => ?bank⟩
  case boundary =>
    refine ⟨_, congrArg Host.Outcome.next (if_pos hup), State.intakeBoundary_intake { s with out := [] }, ?_⟩
    have hgv : (State.intakeBoundary { s with out := [] }).gv = s.gv := State.intakeBoundary_gv _
    generalize State.intakeBoundary { s with out := [] } = t at hgv
    exact ⟨congrArg (·.1.2) hgv, congrArg (·.2.1) hgv, congrArg (·.2.2.1) hgv⟩
  case bank =>
    have hseal : State.sealLast { s with out := [] } = State.sealBank { s with out := [] } (s.intake - 1) := if_pos ⟨hrun, h0⟩
    obtain ⟨hte, ht⟩ := State.sealBank_seals { s with out := [] } (s.intake - 1)
    rw [Nat.sub_add_cancel (Nat.pos_of_ne_zero h0)] at hte
    exact ⟨_, congrArg Host.Outcome.next ((if_pos hup).trans hseal), hte, (touch_out s []).widen.trans ht.widen⟩

end Sys2Proof.Machine

end
